-- ==== Sys2Proof/Word.lean ====
section
/-!
DEFINITION. The word types of the CK9 and the plainest operations on them (R3, R41, R42).
Sources: spec/00_scope.md, spec/02_numbers.md.
-/
namespace Sys2Proof

/-- One byte (R3: values of several bytes are stored little-endian). -/
abbrev Byte := BitVec 8

/-- A pilot word and a vector lane (R42). -/
abbrev Word := BitVec 32

/-- A pilot register and an accumulator (R41, R313). -/
abbrev DWord := BitVec 64

/-- The payload of a data token: eight lanes of 32 bits (R42). -/
abbrev Payload := BitVec 256

/-- Lane `k` of a payload (R42, the helper `lane` of R69). -/
def lane (p : Payload) (k : Nat) : Word := p.extractLsb' (32 * k) 32

/-- The payload whose lanes are `f 0` to `f 7` (R42). -/
def ofLanes (f : Nat → Word) : Payload :=
  f 7 ++ f 6 ++ f 5 ++ f 4 ++ f 3 ++ f 2 ++ f 1 ++ f 0

/-- Subword `j` of width `w` of a lane (R42, the helper `sub` of R69). -/
def sub (l : Word) (j w : Nat) : Nat := l.toNat / 2 ^ (w * j) % 2 ^ w

/-- Bits `[lo+w-1:lo]` of a number. -/
def bits (n lo w : Nat) : Nat := n / 2 ^ lo % 2 ^ w

/-- Bit `k` of a number. -/
def bit (n k : Nat) : Bool := n / 2 ^ k % 2 == 1

/-- The value of the low `w` bits of `n` read as two's complement (R41). -/
def signed (n w : Nat) : Int :=
  if n % 2 ^ w < 2 ^ (w - 1) then (n % 2 ^ w : Nat) else (n % 2 ^ w : Nat) - (2 ^ w : Nat)

/-- `wrap` of R43: the low `w` bits of an exact integer. -/
def wrap (n : Int) (w : Nat) : Nat := (n % (2 ^ w : Nat)).toNat

/-- One bit as a number. -/
def b2n (b : Bool) : Nat := if b then 1 else 0

end Sys2Proof
end

