-- ==== Sys2Proof/Payloads.lean ====
section
/-!
DEFINITION. The field records that constructors of Instr carry: pilot register numbers (R72) and the operand record
of an element slot (R79).
-/
namespace Sys2Proof

/-- A pilot register number, `x0` to `x31` (R10, R72). -/
abbrev Reg := BitVec 5

/-- The operand fields of an operation word (R79): destination [23:20], operand a [19:15], operand b [14:10],
type [9:7], modifier [6:2], dequeue a [1], dequeue b [0]. -/
structure Op where
  dst : BitVec 4
  a : BitVec 5
  b : BitVec 5
  ty : BitVec 3
  md : BitVec 5
  dqa : Bool
  dqb : Bool
  deriving DecidableEq, Repr

/-- imm13, bits [14:2] of an operation word (R84), as a number. -/
def Op.imm (o : Op) : Nat := o.b.toNat * 256 + o.ty.toNat * 32 + o.md.toNat

/-- imm13 sign-extended (R84). -/
def Op.simm (o : Op) : Int := signed o.imm 13

/-- The shape index of a brick word, bits [9:6] (R79). -/
def Op.shape (o : Op) : Nat := o.ty.toNat * 2 + o.md.toNat / 16

/-- The modifier of a brick word, bits [5:2] (R79). -/
def Op.bmd (o : Op) : Nat := o.md.toNat % 16

/-- Who waits for a translation or a tagged store (R167 to R169, R228, R364): a stream binding of a region (by lead
pilot, block, index: block 0 the running one, 1 the successor, 2 a predecessor that has committed), a command or request in an edge unit's path, or an access of a pilot. -/
inductive Requester where
  | binding (r : Nat) (place : Nat) (b : Nat)
  | cmd (g : Nat) (i : Nat)
  | pilot (p : Nat) (k : Nat)
  deriving DecidableEq, Repr

/-- A 24-byte record of a completion, convoy or retire flit (R453, R456): tag, operation or status, speed step, phase. -/
structure FlitRec where
  tag : Nat
  op : Nat
  step : Nat
  phase : Nat
  deriving DecidableEq, Repr

/-- A Burbex flit by its fields (R448): `rest` is what stands in the fields that shall be zero, as one number, `crc` bytes 0xF8 to 0xFF. -/
structure Flit where
  seq : Nat
  typ : Nat
  vc : Nat
  ack : Nat
  retry : Bool
  credits : Nat
  creditVc : Nat
  dst : Nat
  src : Nat
  tag : Nat
  off : Nat
  grans : List Payload
  masks : List (BitVec 32)
  recs : List FlitRec
  rest : Nat
  crc : Nat
  deriving DecidableEq, Repr

end Sys2Proof
end

