-- ==== Sys2Proof/Syntax.lean ====
section
/-!
DEFINITION. The instructions and steps of the CK9: one constructor for each row of spec/opcode_table.json.
Pilot words (R72 to R77) carry their fields; element slots (R78 to R85) carry one operand record; the steps that
have no word of their own (95_what_each_step_holds.md) carry what names the place at which they happen.
-/
namespace Sys2Proof

/-- Everything the table lists: first the rows that carry fields, then the others, each in the table's order. The place of
an event (an element, a region, a queue entry) is a number of `State.cur`. -/
inductive Instr where
  /-- Pilot ALU add of xa and xb into xd, modulo 2^64. (R322) -/
  | add (d : Reg) (a : Reg) (b : Reg)
  /-- Pilot subtract xb from xa into xd. (R322) -/
  | sub (d : Reg) (a : Reg) (b : Reg)
  /-- Pilot bitwise AND. (R322) -/
  | and (d : Reg) (a : Reg) (b : Reg)
  /-- Pilot bitwise OR. (R322) -/
  | or (d : Reg) (a : Reg) (b : Reg)
  /-- Pilot bitwise XOR. (R322) -/
  | xor (d : Reg) (a : Reg) (b : Reg)
  /-- Pilot shift left by xb[5:0]. (R322) -/
  | shl (d : Reg) (a : Reg) (b : Reg)
  /-- Pilot logical shift right by xb[5:0]. (R322) -/
  | shr (d : Reg) (a : Reg) (b : Reg)
  /-- Pilot arithmetic shift right by xb[5:0]. (R322) -/
  | sra (d : Reg) (a : Reg) (b : Reg)
  /-- Pilot low 64 bits of the product. (R322) -/
  | mul (d : Reg) (a : Reg) (b : Reg)
  /-- Pilot high 64 bits of the signed 128-bit product. (R322) -/
  | mulh (d : Reg) (a : Reg) (b : Reg)
  /-- Pilot unsigned quotient, all ones on division by zero. (R322) -/
  | divn (d : Reg) (a : Reg) (b : Reg)
  /-- Pilot signed remainder. (R322) -/
  | rem (d : Reg) (a : Reg) (b : Reg)
  /-- Pilot unsigned remainder. (R322) -/
  | remn (d : Reg) (a : Reg) (b : Reg)
  /-- Pilot signed set-less-than. (R322) -/
  | slt (d : Reg) (a : Reg) (b : Reg)
  /-- Pilot signed quotient rounded toward zero. (R322) -/
  | div (d : Reg) (a : Reg) (b : Reg)
  /-- Pilot unsigned set-less-than. (R322) -/
  | sltn (d : Reg) (a : Reg) (b : Reg)
  /-- Pilot signed minimum. (R322) -/
  | min (d : Reg) (a : Reg) (b : Reg)
  /-- Pilot signed maximum. (R322) -/
  | max (d : Reg) (a : Reg) (b : Reg)
  /-- Pilot count of leading zero bits. (R322) -/
  | clz (d : Reg) (a : Reg)
  /-- Pilot count of one bits. (R322) -/
  | popc (d : Reg) (a : Reg)
  /-- Pilot add of a sign-extended immediate. (R322) -/
  | addi (d : Reg) (a : Reg) (imm : BitVec 16)
  /-- Pilot AND with a zero-extended immediate. (R322) -/
  | andi (d : Reg) (a : Reg) (imm : BitVec 16)
  /-- Pilot OR with a zero-extended immediate. (R322) -/
  | ori (d : Reg) (a : Reg) (imm : BitVec 16)
  /-- Pilot XOR with a zero-extended immediate. (R322) -/
  | xori (d : Reg) (a : Reg) (imm : BitVec 16)
  /-- Pilot shift left by an immediate count. (R322) -/
  | shli (d : Reg) (a : Reg) (c : BitVec 6)
  /-- Pilot logical shift right by an immediate count. (R322) -/
  | shri (d : Reg) (a : Reg) (c : BitVec 6)
  /-- Pilot arithmetic shift right by an immediate count. (R322) -/
  | srai (d : Reg) (a : Reg) (c : BitVec 6)
  /-- Pilot signed compare with an immediate. (R322) -/
  | slti (d : Reg) (a : Reg) (imm : BitVec 16)
  /-- Pilot writes sext(imm16) times 2^16. (R73) -/
  | lui (d : Reg) (imm : BitVec 16)
  /-- Pilot 1-byte load, zero-extended. (R323) -/
  | ldN8 (d : Reg) (a : Reg) (imm : BitVec 16)
  /-- Pilot 2-byte load, zero-extended. (R323) -/
  | ldN16 (d : Reg) (a : Reg) (imm : BitVec 16)
  /-- Pilot 4-byte load, zero-extended. (R323) -/
  | ldN32 (d : Reg) (a : Reg) (imm : BitVec 16)
  /-- Pilot 8-byte load. (R323) -/
  | ld (d : Reg) (a : Reg) (imm : BitVec 16)
  /-- Pilot 1-byte load, sign-extended. (R323) -/
  | ldS8 (d : Reg) (a : Reg) (imm : BitVec 16)
  /-- Pilot 2-byte load, sign-extended. (R323) -/
  | ldS16 (d : Reg) (a : Reg) (imm : BitVec 16)
  /-- Pilot 4-byte load, sign-extended. (R323) -/
  | ldS32 (d : Reg) (a : Reg) (imm : BitVec 16)
  /-- Pilot 8-byte acquire load at DEVICE scope. (R323) -/
  | ldacq (d : Reg) (a : Reg) (imm : BitVec 16)
  /-- Pilot 1-byte store. (R323) -/
  | stN8 (s : Reg) (b : Reg) (imm : BitVec 16)
  /-- Pilot 2-byte store. (R323) -/
  | stN16 (s : Reg) (b : Reg) (imm : BitVec 16)
  /-- Pilot 4-byte store. (R323) -/
  | stN32 (s : Reg) (b : Reg) (imm : BitVec 16)
  /-- Pilot 8-byte store; into a peer route it is a peer send, into a window a tagged store. (R323) -/
  | st (s : Reg) (b : Reg) (imm : BitVec 16)
  /-- Pilot 8-byte release store at DEVICE scope. (R323) -/
  | strel (s : Reg) (b : Reg) (imm : BitVec 16)
  /-- Pilot branch if equal. (R325) -/
  | beq (a : Reg) (b : Reg) (off : BitVec 16)
  /-- Pilot branch if not equal. (R325) -/
  | bne (a : Reg) (b : Reg) (off : BitVec 16)
  /-- Pilot branch if less, signed. (R325) -/
  | blt (a : Reg) (b : Reg) (off : BitVec 16)
  /-- Pilot branch if greater or equal, signed. (R325) -/
  | bge (a : Reg) (b : Reg) (off : BitVec 16)
  /-- Pilot branch if less, unsigned. (R325) -/
  | bltn (a : Reg) (b : Reg) (off : BitVec 16)
  /-- Pilot branch if greater or equal, unsigned. (R325) -/
  | bgen (a : Reg) (b : Reg) (off : BitVec 16)
  /-- Pilot jump writing the return address to x31. (R325) -/
  | jal (off : BitVec 26)
  /-- Pilot register-indirect jump writing the return address to xd. (R325) -/
  | jalr (d : Reg) (a : Reg) (imm : BitVec 16)
  /-- Lead pilot starts loading a block image into the region's shadow slots. (R331) -/
  | blkld (a : Reg) (mask : BitVec 8)
  /-- Lead pilot launches the shadow image as a new block. (R332) -/
  | blkgo (mask : BitVec 8)
  /-- Lead pilot arms the shadow image for a wavefront swap. (R333) -/
  | blkarm (mask : BitVec 8)
  /-- Lead pilot waits for and removes the oldest completion-queue entry. (R335) -/
  | blkwait (d : Reg) (mask : BitVec 8)
  /-- Pilot applies switch-word records from chart memory to the region's routers. (R337) -/
  | resteer (d : Reg) (a : Reg) (mask : BitVec 8)
  /-- Pilot writes one switch record as a one-record RESTEER. (R338) -/
  | cfgwrSw (a : Reg) (mask : BitVec 8)
  /-- Pilot writes a node constant of one element's slot. (R338) -/
  | cfgwrConst (a : Reg) (mask : BitVec 8)
  /-- Lead pilot writes a divider-table entry of a slot. (R338) -/
  | cfgwrDiv (a : Reg) (mask : BitVec 8)
  /-- Lead pilot writes a loop-nest count of the shadow image. (R338) -/
  | cfgwrLoop (a : Reg) (mask : BitVec 8)
  /-- Lead pilot reads a write-back of the block last returned by BLKWAIT. (R336) -/
  | wbrd (d : Reg) (mask : BitVec 8) (n : BitVec 4)
  /-- Pilot injects a data token into an injection port of each masked band. (R340) -/
  | injectData (a : Reg) (mask : BitVec 8) (port : BitVec 4) (tag : BitVec 2)
  /-- Pilot injects a null token. (R340) -/
  | injectNull (a : Reg) (mask : BitVec 8) (port : BitVec 4) (tag : BitVec 2)
  /-- Pilot injects a round, end or swap mark, advancing or resetting the port counter. (R340) -/
  | injectMark (a : Reg) (mask : BitVec 8) (port : BitVec 4) (tag : BitVec 2)
  /-- Pilot waits until earlier accesses have performed at the named scope. (R116) -/
  | fence (s : BitVec 3)
  /-- Pilot re-reads a word until it meets a condition; the satisfying read is an acquire. (R327) -/
  | waitw (d : Reg) (a : Reg) (b : Reg) (c : BitVec 3)
  /-- Pilot atomic on a 64-bit word performed at the serving eddy unit. (R328) -/
  | atom (d : Reg) (a : Reg) (b : Reg) (ord : BitVec 1) (f : BitVec 4)
  /-- Lead pilot joins or creates a convoy for its region. (R345) -/
  | cvjoin (a : Reg)
  /-- Lead pilot arrives in the open phase and leaves the convoy. (R345) -/
  | cvleave (a : Reg)
  /-- Lead pilot arrives in the open convoy phase as a release. (R345) -/
  | cvarrive (a : Reg)
  /-- Lead pilot waits for the phase of its latest arrival to complete. (R345) -/
  | cvwait (d : Reg) (a : Reg)
  /-- Pilot acquire for a window named by its handle. (R130) -/
  | winacq (a : Reg)
  /-- Pilot release for a window, tag-guarded. (R129) -/
  | winrel (a : Reg)
  /-- Pilot copies a byte range granule by granule. (R347) -/
  | cpy (d : Reg) (a : Reg) (b : Reg)
  /-- Pilot takes software trap 0x0008. (R348) -/
  | trap (imm : BitVec 16)
  /-- Pilot reads a control register by number. (R348) -/
  | ctlrd (d : Reg) (r : BitVec 12)
  /-- Pilot writes a control register without behaviour of its own, by access type. (R348) -/
  | ctlwr (a : Reg) (r : BitVec 12)
  /-- Pilot reads GUESTTIME. (R348) -/
  | chron (d : Reg)
  /-- Write of 1 to RGNCTL ends a FROZEN block with the fault status. (R342) -/
  | rgnctlEnd (a : Reg)
  /-- Write of 1 to SFCTL removes the head stream-fault report. (R343) -/
  | sfctlPop (a : Reg)
  /-- Write to SFRESUME resumes the named parked stream or edge path. (R344) -/
  | sfresume (a : Reg)
  /-- Element integer add, wrapped. (R247) -/
  | vecAdd (op : Op)
  /-- Element integer subtract, wrapped. (R247) -/
  | vecSub (op : Op)
  /-- Element integer multiply, wrapped. (R247) -/
  | vecMul (op : Op)
  /-- Element high half of the integer product. (R247) -/
  | vecMulh (op : Op)
  /-- Element integer multiply-add into the destination register. (R247) -/
  | vecMad (op : Op)
  /-- Element saturating absolute value. (R247) -/
  | vecAbs (op : Op)
  /-- Element saturating negation. (R247) -/
  | vecNeg (op : Op)
  /-- Element integer minimum. (R247) -/
  | vecMin (op : Op)
  /-- Element integer maximum. (R247) -/
  | vecMax (op : Op)
  /-- Element bitwise AND. (R247) -/
  | vecAnd (op : Op)
  /-- Element bitwise OR. (R247) -/
  | vecOr (op : Op)
  /-- Element bitwise XOR. (R247) -/
  | vecXor (op : Op)
  /-- Element bitwise complement. (R247) -/
  | vecNot (op : Op)
  /-- Element shift left. (R247) -/
  | vecShl (op : Op)
  /-- Element logical shift right. (R247) -/
  | vecShr (op : Op)
  /-- Element arithmetic shift right. (R247) -/
  | vecSra (op : Op)
  /-- Element rotate. (R247) -/
  | vecRot (op : Op)
  /-- Element leading-zero count. (R247) -/
  | vecClz (op : Op)
  /-- Element population count. (R247) -/
  | vecPopc (op : Op)
  /-- Element saturating add. (R247) -/
  | vecAdds (op : Op)
  /-- Element saturating subtract. (R247) -/
  | vecSubs (op : Op)
  /-- Element rounding-up average. (R247) -/
  | vecAvg (op : Op)
  /-- Element floating-point add. (R248) -/
  | vecFadd (op : Op)
  /-- Element floating-point subtract. (R248) -/
  | vecFsub (op : Op)
  /-- Element floating-point multiply. (R248) -/
  | vecFmul (op : Op)
  /-- Element fused multiply-add with one rounding. (R248) -/
  | vecFma (op : Op)
  /-- Element floating-point minimum. (R249) -/
  | vecFmin (op : Op)
  /-- Element floating-point maximum. (R249) -/
  | vecFmax (op : Op)
  /-- Element clears the sign bit. (R250) -/
  | vecFabs (op : Op)
  /-- Element inverts the sign bit. (R250) -/
  | vecFneg (op : Op)
  /-- Element copies the sign of b onto a. (R250) -/
  | vecFcps (op : Op)
  /-- Element integer compare into a predicate. (R251) -/
  | vecCmp (op : Op)
  /-- Element FP32 compare into a predicate. (R252) -/
  | vecFcmp (op : Op)
  /-- Element per-lane selection by a predicate. (R253) -/
  | vecSel (op : Op)
  /-- Element writes the class mask of an FP32 value. (R254) -/
  | vecClass (op : Op)
  /-- Element same-width conversion. (R256) -/
  | vecCvt (op : Op)
  /-- Element stochastic FP32 narrowing with operand-supplied random bits. (R259) -/
  | vecCvtsr (op : Op)
  /-- Element narrows two operands into one result. (R257) -/
  | vecPack (op : Op)
  /-- Element widens half of the subwords. (R258) -/
  | vecUnpack (op : Op)
  /-- Element faithful 2^x. (R260) -/
  | vecExp2 (op : Op)
  /-- Element faithful log2. (R260) -/
  | vecLog2 (op : Op)
  /-- Element faithful reciprocal. (R260) -/
  | vecRcp (op : Op)
  /-- Element faithful reciprocal square root. (R260) -/
  | vecRsq (op : Op)
  /-- Element correctly rounded square root. (R260) -/
  | vecSqrt (op : Op)
  /-- Element sin(pi x) within 2 ulp. (R260) -/
  | vecSinpi (op : Op)
  /-- Element cos(pi x) within 2 ulp. (R260) -/
  | vecCospi (op : Op)
  /-- Element broadcasts one lane. (R262) -/
  | vecLbcast (op : Op)
  /-- Element rotates lanes. (R262) -/
  | vecLrot (op : Op)
  /-- Element fixed-shape reduction across lanes. (R263) -/
  | vecLred (op : Op)
  /-- Element inclusive scan across lanes. (R263) -/
  | vecLscan (op : Op)
  /-- Element writes lane, element, column or row index. (R264) -/
  | vecLidx (op : Op)
  /-- Element register or head move. (R265) -/
  | vecMov (op : Op)
  /-- Element reads AFLAGS. (R265) -/
  | vecMovRdflags (op : Op)
  /-- Element reads and clears AFLAGS. (R265) -/
  | vecMovRcflags (op : Op)
  /-- Element writes AFLAGS[7:0]. (R265) -/
  | vecMovWrflags (op : Op)
  /-- Element reads SRSTATE. (R265) -/
  | vecMovRdseed (op : Op)
  /-- Element writes SRSTATE. (R265) -/
  | vecMovWrseed (op : Op)
  /-- Element writes a sign-extended 13-bit immediate. (R266) -/
  | vecMovi (op : Op)
  /-- Element loads eight consecutive node constants into lanes. (R267) -/
  | vecLdc (op : Op)
  /-- Element scales an FP32 value by a power of two. (R268) -/
  | vecFscale (op : Op)
  /-- Element splits an FP32 value into mantissa or exponent. (R269) -/
  | vecFrexp (op : Op)
  /-- Brick multiply-accumulate per lane. (R298) -/
  | mac (op : Op)
  /-- Brick dot product over executing lanes into one lane. (R298) -/
  | dot (op : Op)
  /-- Brick integer dot product with saturating add into a register. (R299) -/
  | dots (op : Op)
  /-- Brick dot products against one chunk of b. (R298) -/
  | dotx (op : Op)
  /-- Brick weight-stationary step with optional forward and emission. (R301) -/
  | mma (op : Op)
  /-- Brick loads one weight-tile row. (R300) -/
  | wload (op : Op)
  /-- Brick wide product starting a fresh accumulator. (R298) -/
  | mulw (op : Op)
  /-- Brick scalar-by-element products into accumulators. (R298) -/
  | mula (op : Op)
  /-- Brick reads an accumulator by conversion or status. (R306) -/
  | accrd (op : Op)
  /-- Brick clears accumulators in a mask. (R303) -/
  | accclr (op : Op)
  /-- Brick replaces accumulator lanes. (R304) -/
  | accset (op : Op)
  /-- Brick adds a value or accumulator into an accumulator. (R305) -/
  | accadd (op : Op)
  /-- Brick sets mode and fraction length and clears accumulators. (R303) -/
  | accmode (op : Op)
  /-- Brick permutes units of a token by a matrix. (R308) -/
  | perm (op : Op)
  /-- Brick loads a permutation matrix. (R307) -/
  | permld (op : Op)
  /-- Brick advances a first-order linear recurrence. (R309) -/
  | recstep (op : Op)
  /-- Brick writes the gate mask. (R302) -/
  | bgate (op : Op)
  /-- Element firing with no effect. (R220) -/
  | nop (op : Op)
  /-- Element writes a predicate by value, column or row. (R221) -/
  | pset (op : Op)
  /-- Element predicate logic. (R222) -/
  | plog (op : Op)
  /-- Element sends an operand on an output. (R223) -/
  | send (op : Op)
  /-- Element removes named heads, optionally as a sink report. (R223) -/
  | deq (op : Op)
  /-- Element sends an operand with a tag. (R223) -/
  | tag (op : Op)
  /-- Element forwards a round or end mark, possibly counting it. (R224) -/
  | mfwd (op : Op)
  /-- Element creates a round or end mark. (R224) -/
  | mgen (op : Op)
  /-- Element sends a null token. (R223) -/
  | nullt (op : Op)
  /-- Element sets a loop counter. (R225) -/
  | loop (op : Op)
  /-- Element decrements a loop counter and writes a predicate. (R225) -/
  | ldec (op : Op)
  /-- Element sets repeat state for one slot. (R226) -/
  | rep (op : Op)
  /-- Element sends a load request through its edge port. (R228) -/
  | lde (op : Op)
  /-- Element sends a store request of two tokens through its edge port. (R228) -/
  | ste (op : Op)
  /-- Element reads a pond granule. (R227) -/
  | ldp (op : Op)
  /-- Element writes a pond granule. (R227) -/
  | stp (op : Op)
  /-- Element sends an operand unchanged as an engine-command packet. (R230) -/
  | cmde (op : Op)
  /-- Element produces the block's branch token. (R231) -/
  | brtok (op : Op)
  /-- Element delivers a write-back to the lead pilot. (R232) -/
  | wbk (op : Op)
  /-- Element sends or takes a one-bit control token. (R233) -/
  | movc (op : Op)
  /-- Element sets its context's yield flag. (R220) -/
  | yield (op : Op)
  /-- Element raises element fault 0x0018. (R234) -/
  | faulte (op : Op)
  /-- Element fires a class-11 slot and sends its command packet. (R85) -/
  | engineCommandSend (opc : BitVec 6) (op : Op)
  /-- The walker returns a translation for a requester. (R167) -/
  | walkCompletes (q : Requester)
  /-- A failed walk parks a stream and queues a report. (R170) -/
  | streamFault (q : Requester)
  /-- A tagged window store is applied as a masked write at the eddy unit. (R364) -/
  | windowStoreApply (q : Requester)
  /-- Write to HWATCH; enabling takes the four lines and writes accept words. (R135) -/
  | hwatchWrite (v : DWord)
  /-- Write to HINVCTL queues a translation invalidation. (R134) -/
  | hinvctl (v : DWord)
  /-- Write to a register without behaviour of its own, by its access types. (R6) -/
  | registerWrite (v : DWord)
  /-- A stack unit encrypts and MACs an HBM line write, advancing its counter. (R425) -/
  | dataLineWrite (data : BitVec 512) (mask : BitVec 64)
  /-- Host CXL.mem write of a VD's device memory. (R445) -/
  | hostMemWrite (data : BitVec 512) (mask : BitVec 64)
  /-- Receiving Harbour applies, answers or rejects a peer send flit. (R453) -/
  | peerSend (f : Flit)
  /-- A completion record reaches the sending Harbour and the send performs. (R453) -/
  | peerCompletion (f : Flit)
  /-- A retire flit removes a receiver's suppression entry. (R453) -/
  | peerRetire (f : Flit)
  /-- Home module applies a convoy record from another module. (R456) -/
  | convoyFlit (f : Flit)
  /-- A Burbex receiver drops a bad flit and requests a retry. (R449) -/
  | linkRetry (f : Flit)
  /-- Writing go starts the mailbox command or sets overflow if busy. (R463) -/
  | mbctlGo (v : DWord)
  /-- Host updates the consumed event sequence, freeing ring slots. (R485) -/
  | evconsWrite (v : DWord)
  /-- Every 10 us Voxkan reads sensors and applies thermal thresholds. (R479) -/
  | sensorRead (temps : List Nat)
  /-- Every 10 ms Voxkan sets valves and pump and reads coolant telemetry. (R482) -/
  | coolantCycle (zones : List Nat)
  /-- A member module takes a phase-release or completion convoy record from the home module, releasing CVWAITs and applying the new speed step. (R456) -/
  | phaseReleaseRecord (f : Flit)
  /-- Pilot returns from a trap handler. (R348) -/
  | eret
  /-- Pilot halts; the lead pilot's PARK completes the PILOT node. (R348) -/
  | park
  /-- Lead pilot takes an element-fault or stream-fault trap when its condition level holds. (R321) -/
  | asyncTrap
  /-- Background image transfer and checks end, leaving the shadow LOADED or FAILED. (R331) -/
  | blockLoadEnds
  /-- Leader's group adder applies one step when every member's deposit is present. (R288) -/
  | groupAdderStep
  /-- A multi-cycle brick or vector result completes into its destination. (R297) -/
  | brickResultCompletes
  /-- Yield flag clears after four firing cycles with no firing. (R220) -/
  | yieldClearTimeout
  /-- Edge unit takes a token from the outbound link and hands it to its claimant. (R272) -/
  | outboundTokenClaim
  /-- Edge unit sends one ready inbound source's token per cycle in round robin. (R273) -/
  | inboundTokenSend
  /-- Edge port performs an LDE or STE request and returns its result. (R229) -/
  | edgeRequest
  /-- Edge unit splits MX or affine blocks into mantissa and scale tokens. (R278) -/
  | xsplit
  /-- Edge unit opens a transform joining tokens into MX or affine blocks. (R279) -/
  | xjoin
  /-- Edge unit scales four values by block scales. (R281) -/
  | xscale
  /-- Edge unit arms a norm watch. (R282) -/
  | nwatch
  /-- Edge unit returns a norm watch's state. (R283) -/
  | nread
  /-- Edge unit disarms a watch and optionally clears EFLAGS. (R283) -/
  | nclr
  /-- Edge unit widens narrow or block formats to FP32 tokens. (R278) -/
  | cvtin
  /-- Edge unit opens a transform narrowing FP32 tokens into memory. (R279) -/
  | cvtout
  /-- An open outbound transform takes a tagged token and writes a block or granule when complete. (R279) -/
  | transformTokenTaken
  /-- A round mark ends a watched round and the watch may trip. (R282) -/
  | normWatchRound
  /-- Stream engine advances a target-0 binding's base from a level-3 iteration. (R173) -/
  | sadv
  /-- Stream engine hands a software-side buffer to the generator side. (R173) -/
  | sswap
  /-- Stream engine copies granules. (R173) -/
  | scopy
  /-- Stream engine appends granules to a FIFO or line-buffer ring. (R173) -/
  | spref
  /-- Stream engine drains a store binding's ring or buffer to memory. (R173) -/
  | sflush
  /-- Stream engine writes zero granules. (R173) -/
  | szero
  /-- Stream engine gathers granules by an index list. (R173) -/
  | sgath
  /-- Stream engine scatters granules by an index list. (R173) -/
  | sscat
  /-- Stream engine sends a response once a command has performed. (R175) -/
  | streamCommandResponse
  /-- A generator produces or takes one token for one loop-nest iteration. (R162) -/
  | bindingIteration
  /-- A multi-buffer passes between software and generator sides at an iteration end or hand-over. (R163) -/
  | bufferHandOver
  /-- Store binding reports its LSID end mark after its stores perform. (R165) -/
  | storeBindingEnd
  /-- Scrubber reads a granule, corrects or poisons it, and may mark a bank failed. (R180) -/
  | scrubPass
  /-- A tarn, quarter or pond is cleared before another VD's first access. (R159) -/
  | storageClear
  /-- Eddy unit integer add. (R353) -/
  | aadd
  /-- Eddy unit floating-point add. (R353) -/
  | afadd
  /-- Eddy unit minimum. (R353) -/
  | amin
  /-- Eddy unit maximum. (R353) -/
  | amax
  /-- Eddy unit bitwise AND. (R353) -/
  | aand
  /-- Eddy unit bitwise OR. (R353) -/
  | aor
  /-- Eddy unit bitwise XOR. (R353) -/
  | axor
  /-- Eddy unit swap. (R353) -/
  | aswap
  /-- Eddy unit compare-and-swap. (R353) -/
  | acas
  /-- Eddy unit bounded increment. (R353) -/
  | ainc
  /-- Eddy unit masked 16-byte update. (R353) -/
  | supd
  /-- Eddy unit reports once earlier commands of its port have performed. (R353) -/
  | eflush
  /-- A suppression entry retires on the issuer's acknowledgement. (R362) -/
  | suppressionRetire
  /-- Home unit completes a phase, opens the next and releases waiters. (R366) -/
  | convoyPhaseComplete
  /-- Spring decoder decodes blocks and writes them to memory. (R376) -/
  | sprg
  /-- Spring decoder decodes blocks and sends them as tokens. (R376) -/
  | sprgq
  /-- A block's decode and check end and its output is released. (R376) -/
  | springBlockDecoded
  /-- Spring decoder returns a response once the command has performed. (R380) -/
  | springResponse
  /-- A channel transfers a token when valid and ready are both high. (R31) -/
  | tokenTaken
  /-- A router offers a head token to its route destinations. (R187) -/
  | routeForward
  /-- A delay node offers a token d cycles after taking it. (R190) -/
  | delayNodeOffer
  /-- A Fynor FIFO delivers a token to the matching inbound channel node. (R194) -/
  | channelNodeDeliver
  /-- Eight successive Fynor retry failures freeze both sides. (R196) -/
  | dieLinkFailure
  /-- A hot router holds ready low for n cycles after each taken token. (R197) -/
  | readyDelayCount
  /-- A parity error in a slot or switch word blocks the element. (R205) -/
  | configurationParity
  /-- An element switches to its shadow slot as the swap mark passes. (R36) -/
  | elementSwap
  /-- A router changes switch-word set at its element's swap or after marks pass. (R200) -/
  | routerSetChange
  /-- A column end passes from predecessor to successor bindings. (R333) -/
  | columnEndPasses
  /-- Checked switch words of a rewrite apply in one cycle in every named router. (R202) -/
  | switchRewriteApply
  /-- Block commits when all four conditions first hold, releasing its completion word. (R34) -/
  | commit
  /-- A block fault freezes the region and writes the fault status. (R35) -/
  | blockFault
  /-- An element fault freezes the region and reports to the lead pilot. (R237) -/
  | elementFault
  /-- An element loading or being written an illegal word is blocked. (R236) -/
  | elementBlocked
  /-- Helm reads a launch word after a host write takes its watch line. (R136) -/
  | launchWord
  /-- Helm places a runnable launch first-fit and loads its block. (R149) -/
  | placeLaunch
  /-- An invalidation's drain ends and its sequence number is released. (R134) -/
  | invalidationComplete
  /-- Helm runs a BLOCK graph node. (R143) -/
  | nodeBlock
  /-- Helm places a region and starts its pilots for a PILOT node. (R144) -/
  | nodePilot
  /-- Helm copies a range on the stream engines. (R145) -/
  | nodeCopy
  /-- Helm branches on a masked memory word. (R146) -/
  | nodeCond
  /-- Helm pushes, repeats or pops a counted loop. (R147) -/
  | nodeLoop
  /-- Helm branches by a memory word index. (R146) -/
  | nodeSwitch
  /-- Helm waits for a memory word condition. (R146) -/
  | nodeWaitw
  /-- A WAITW node re-reads its word on a write to its line or after 10 us. (R146) -/
  | nodeWaitwRecheck
  /-- A WAITW node's timeout expires and it fails with 0x17. (R146) -/
  | nodeWaitwTimeout
  /-- Helm stores a value or performs an ordered atomic add. (R148) -/
  | nodeSignal
  /-- Helm stores a value at SYSTEM scope and raises an MSI-X vector. (R148) -/
  | nodeHostnote
  /-- PREEMPT node saves selected regions by tide. (R409) -/
  | nodePreemptTide
  /-- PREEMPT node freezes and saves selected regions. (R409) -/
  | nodePreemptFreeze
  /-- PREEMPT node restores regions named in its descriptor. (R409) -/
  | nodePreemptRestore
  /-- PREEMPT node discards regions named in its descriptor. (R409) -/
  | nodePreemptDiscard
  /-- Helm stores an optional value and ends the graph. (R148) -/
  | nodeEnd
  /-- Opens a window over the opener's range and converts its lines. (R436) -/
  | winopen
  /-- Changes a window's members and keys and converts its lines. (R436) -/
  | winrekey
  /-- Revokes a window and returns its frames to the opener. (R436) -/
  | winclose
  /-- Every 50 us the Helm updates each resident VD's deficit. (R152) -/
  | sharingPeriod
  /-- A VD's brick-cycle quota runs out and its regions are pre-empted. (R153) -/
  | quotaExhausted
  /-- Every 1 ms the Helm rotates VD residency by tide and spill. (R154) -/
  | residencyRotation
  /-- Anchor command returns a record or save-area size. (R403) -/
  | ctxsize
  /-- Anchor takes a tide snapshot and saves the region. (R407) -/
  | tide
  /-- Anchor freezes a region, optionally saving it. (R400) -/
  | freeze
  /-- Anchor saves a frozen region and releases its bands. (R407) -/
  | save
  /-- Anchor verifies, places, restores and replays a region. (R412) -/
  | restore
  /-- Anchor discards a save record and retires its tags. (R407) -/
  | discard
  /-- An element takes its snapshot when a tide mark enters a bound input. (R392) -/
  | tideMarkSnapshot
  /-- A token reaching a saved element's open input is diverted to the caught log. (R393) -/
  | caughtToken
  /-- Sixteen cycles after a freeze trigger the region's clocks gate and state is scanned. (R400) -/
  | freezeGateCloses
  /-- A tide mark still missing 10 us after S turns the snapshot into a freeze. (R393) -/
  | tideTimeout
  /-- A stack unit verifies and decrypts an HBM line read. (R427) -/
  | dataLineRead
  /-- A stack unit writes a metadata node back and advances its parent counter. (R426) -/
  | nodeWriteBack
  /-- Host CXL.mem read of a VD's device memory. (R445) -/
  | hostMemRead
  /-- Harbour serves a device CXL.cache request by deficit round robin. (R447) -/
  | cxlCacheRequest
  /-- A sender without acknowledgement for 2 us resends. (R449) -/
  | retryTimeout
  /-- After eight retries without progress a port goes down and retrains. (R449) -/
  | burbexPortDown
  /-- A port sender chooses its next flit by priority and deficit round robin. (R451) -/
  | flitSelect
  /-- Home updates a module's speed step at each completed phase. (R457) -/
  | slackUpdate
  /-- Boot ROM checks firmware and enters running or recovery state. (R465) -/
  | reset
  /-- Voxkan writes the resync summary. (R487) -/
  | resync
  /-- Voxkan writes a signed attestation report. (R467) -/
  | attest
  /-- Voxkan stages and checks a firmware image. (R466) -/
  | fwstage
  /-- Voxkan marks the staged image for the next reset. (R466) -/
  | fwactivate
  /-- Voxkan creates a virtual device. (R469) -/
  | vdcreate
  /-- Voxkan destroys a VD and releases its resources. (R463) -/
  | vddestroy
  /-- Voxkan sets new quotas from the next interval. (R471) -/
  | vdquota
  /-- Voxkan sets a VD's translation root after a full invalidation. (R463) -/
  | vdroot
  /-- Voxkan grants and initialises HBM frames to a VD. (R419) -/
  | framesGrant
  /-- Voxkan releases a VD's frames. (R419) -/
  | framesRelease
  /-- Voxkan sets a host-memory grant of a VD. (R446) -/
  | hostrange
  /-- Voxkan sets a peer route of a VD. (R444) -/
  | route
  /-- Voxkan sets a VD's receive range. (R444) -/
  | recvrange
  /-- Voxkan sets a peer convoy entry. (R456) -/
  | peerconvoy
  /-- Voxkan lifts a VD's quarantine. (R472) -/
  | vdresume
  /-- Voxkan builds a migration package and destroys the source VD. (R474) -/
  | vdexport
  /-- Voxkan verifies a package and recreates the VD. (R474) -/
  | vdimport
  /-- Voxkan records a VD's dump-wrapping key. (R489) -/
  | vddumpkey
  /-- Voxkan and Helm change strip partitions. (R155) -/
  | partition
  /-- Voxkan enables or disables slack control on a convoy. (R457) -/
  | slack
  /-- Voxkan writes whole usage-log batches and frees them. (R478) -/
  | logread
  /-- Voxkan places the event ring in host memory. (R485) -/
  | eventring
  /-- Voxkan sets the fatal dump area. (R489) -/
  | dumparea
  /-- Voxkan sets the region watchdog interval. (R486) -/
  | watchdog
  /-- Voxkan sets the power cap and quota interval. (R481) -/
  | power
  /-- Every 10 us Voxkan measures power and adjusts dividers. (R481) -/
  | powerSample
  /-- At each quota interval boundary charges reset and new quotas apply. (R471) -/
  | quotaInterval
  /-- A usage-log batch closes at 256 entries or 100 ms and is signed. (R477) -/
  | logBatchClose
  /-- Voxkan orders a held event and writes it to the ring. (R483) -/
  | eventDelivery
  /-- Watchdog interval passes with no activity and event 0x0030 is raised. (R486) -/
  | regionStall
  /-- A VD enters quarantine on an integrity, suppression or pilot-word fault. (R472) -/
  | quarantine
  /-- A 1.5 us gap in Voxkan's heartbeat is fatal. (R490) -/
  | heartbeatGap
  /-- Voxkan freezes everything, writes the dump and enters fatal state. (R488) -/
  | fatal
  /-- A waiting pilot WAITW reads its word again when its line is written or 10 us have passed. (R327) -/
  | pilotWaitwRecheck
  /-- The value of a pilot load, LDACQ or ATOM returns and is written to xd, or the load traps on poison. (R316) -/
  | pilotLoadReturn
  /-- A Burbex port finishes training, learns the far module's identifier and carries its waiting traffic. (R448) -/
  | burbexPortUp
  /-- The host answers a back-invalidate snoop, letting a device store to device memory perform at SYSTEM scope. (R126) -/
  | backInvalidateResponse
  /-- The host returns data or acknowledges a device CXL.cache access to host memory, which then performs. (R446) -/
  | cxlCacheCompletion
  /-- The host sends an SPDM or IDE_KM request over DOE, which presents the attestation chain or sets IDE keys. (R467) -/
  | doeRequest
  /-- Each nanosecond the device chronometer advances, and at most one of a VD's GUESTTIME and STOLENTIME advances. (R473) -/
  | chronometerTick
  deriving DecidableEq, Repr

end Sys2Proof
end

