-- ==== Sys2Proof/Decode.lean ====
section
/-!
DEFINITION. The decoder of pilot words and element slots, total on any word and rejecting by name, and the encoder
(R70 to R85, spec/03_encodings.md; the registers of R342 to R344 have rows of their own).
-/
namespace Sys2Proof

/-- Why a word is refused (R71). -/
inductive Reject where
  /-- A major opcode, opcode or function that R74, R75, R80, R82, R83 or R85 does not assign. -/
  | unassigned
  /-- A field that the instruction does not use, or that must be zero, is not zero (R71). -/
  | nonzeroField
  /-- An encoded field beyond its limit (R76, R77). -/
  | fieldOutOfRange
  /-- Fewer bytes than one word. -/
  | short
  deriving DecidableEq, Repr

/-- The ALU group, major opcode 0x00 (R75). -/
def decodeAlu (w : Nat) : Except Reject Instr :=
  match w % 2048 with
  | 0 => .ok (.add (BitVec.ofNat 5 (w / 2097152)) (BitVec.ofNat 5 (w / 65536)) (BitVec.ofNat 5 (w / 2048)))
  | 1 => .ok (.sub (BitVec.ofNat 5 (w / 2097152)) (BitVec.ofNat 5 (w / 65536)) (BitVec.ofNat 5 (w / 2048)))
  | 2 => .ok (.and (BitVec.ofNat 5 (w / 2097152)) (BitVec.ofNat 5 (w / 65536)) (BitVec.ofNat 5 (w / 2048)))
  | 3 => .ok (.or (BitVec.ofNat 5 (w / 2097152)) (BitVec.ofNat 5 (w / 65536)) (BitVec.ofNat 5 (w / 2048)))
  | 4 => .ok (.xor (BitVec.ofNat 5 (w / 2097152)) (BitVec.ofNat 5 (w / 65536)) (BitVec.ofNat 5 (w / 2048)))
  | 5 => .ok (.shl (BitVec.ofNat 5 (w / 2097152)) (BitVec.ofNat 5 (w / 65536)) (BitVec.ofNat 5 (w / 2048)))
  | 6 => .ok (.shr (BitVec.ofNat 5 (w / 2097152)) (BitVec.ofNat 5 (w / 65536)) (BitVec.ofNat 5 (w / 2048)))
  | 7 => .ok (.sra (BitVec.ofNat 5 (w / 2097152)) (BitVec.ofNat 5 (w / 65536)) (BitVec.ofNat 5 (w / 2048)))
  | 8 => .ok (.mul (BitVec.ofNat 5 (w / 2097152)) (BitVec.ofNat 5 (w / 65536)) (BitVec.ofNat 5 (w / 2048)))
  | 9 => .ok (.mulh (BitVec.ofNat 5 (w / 2097152)) (BitVec.ofNat 5 (w / 65536)) (BitVec.ofNat 5 (w / 2048)))
  | 10 => .ok (.divn (BitVec.ofNat 5 (w / 2097152)) (BitVec.ofNat 5 (w / 65536)) (BitVec.ofNat 5 (w / 2048)))
  | 11 => .ok (.rem (BitVec.ofNat 5 (w / 2097152)) (BitVec.ofNat 5 (w / 65536)) (BitVec.ofNat 5 (w / 2048)))
  | 12 => .ok (.remn (BitVec.ofNat 5 (w / 2097152)) (BitVec.ofNat 5 (w / 65536)) (BitVec.ofNat 5 (w / 2048)))
  | 13 => .ok (.slt (BitVec.ofNat 5 (w / 2097152)) (BitVec.ofNat 5 (w / 65536)) (BitVec.ofNat 5 (w / 2048)))
  | 14 => .ok (.div (BitVec.ofNat 5 (w / 2097152)) (BitVec.ofNat 5 (w / 65536)) (BitVec.ofNat 5 (w / 2048)))
  | 15 => .ok (.sltn (BitVec.ofNat 5 (w / 2097152)) (BitVec.ofNat 5 (w / 65536)) (BitVec.ofNat 5 (w / 2048)))
  | 16 => .ok (.min (BitVec.ofNat 5 (w / 2097152)) (BitVec.ofNat 5 (w / 65536)) (BitVec.ofNat 5 (w / 2048)))
  | 17 => .ok (.max (BitVec.ofNat 5 (w / 2097152)) (BitVec.ofNat 5 (w / 65536)) (BitVec.ofNat 5 (w / 2048)))
  | 18 => if w / 2048 % 32 != 0 then .error .nonzeroField else .ok (.clz (BitVec.ofNat 5 (w / 2097152)) (BitVec.ofNat 5 (w / 65536)))
  | 19 => if w / 2048 % 32 != 0 then .error .nonzeroField else .ok (.popc (BitVec.ofNat 5 (w / 2097152)) (BitVec.ofNat 5 (w / 65536)))
  | _ => .error .unassigned

/-- `CFGWR`: the configuration word kind stands in [7:0] (R77). -/
def decodeCfgwr (w : Nat) : Except Reject Instr :=
  if w / 2097152 % 32 != 0 then .error .nonzeroField
  else
    match w % 256 with
    | 0 => .ok (.cfgwrSw (BitVec.ofNat 5 (w / 65536)) (BitVec.ofNat 8 (w / 256)))
    | 1 => .ok (.cfgwrConst (BitVec.ofNat 5 (w / 65536)) (BitVec.ofNat 8 (w / 256)))
    | 2 => .ok (.cfgwrDiv (BitVec.ofNat 5 (w / 65536)) (BitVec.ofNat 8 (w / 256)))
    | 3 => .ok (.cfgwrLoop (BitVec.ofNat 5 (w / 65536)) (BitVec.ofNat 8 (w / 256)))
    | _ => .error .fieldOutOfRange

/-- `INJECT`: the kind stands in [1:0] (R77). -/
def decodeInject (w : Nat) : Except Reject Instr :=
  if w / 2097152 % 32 != 0 then .error .nonzeroField
  else
    match w % 4 with
    | 0 => .ok (.injectData (BitVec.ofNat 5 (w / 65536)) (BitVec.ofNat 8 (w / 256)) (BitVec.ofNat 4 (w / 16)) (BitVec.ofNat 2 (w / 4)))
    | 1 => .ok (.injectNull (BitVec.ofNat 5 (w / 65536)) (BitVec.ofNat 8 (w / 256)) (BitVec.ofNat 4 (w / 16)) (BitVec.ofNat 2 (w / 4)))
    | 2 => .ok (.injectMark (BitVec.ofNat 5 (w / 65536)) (BitVec.ofNat 8 (w / 256)) (BitVec.ofNat 4 (w / 16)) (BitVec.ofNat 2 (w / 4)))
    | _ => .error .fieldOutOfRange

/-- The system group, major opcode 0x3E (R76). -/
def decodeSystem (w : Nat) : Except Reject Instr :=
  match w % 2048 with
  | 0 => if w / 2048 % 32768 != 0 then .error .nonzeroField else .ok .eret
  | 1 => if w / 2048 % 1024 != 0 then .error .nonzeroField else .ok (.chron (BitVec.ofNat 5 (w / 2097152)))
  | 2 => if w / 2048 % 32768 != 0 then .error .nonzeroField else .ok .park
  | _ => .error .unassigned

/-- `CTLWR`: three control registers have steps of their own (R342 to R344). -/
def decodeCtlwr (w : Nat) : Except Reject Instr :=
  if w / 2097152 % 32 != 0 || w / 4096 % 16 != 0 then .error .nonzeroField
  else if w % 4096 = 34 then .ok (.rgnctlEnd (BitVec.ofNat 5 (w / 65536)))
  else if w % 4096 = 44 then .ok (.sfctlPop (BitVec.ofNat 5 (w / 65536)))
  else if w % 4096 = 45 then .ok (.sfresume (BitVec.ofNat 5 (w / 65536)))
  else .ok (.ctlwr (BitVec.ofNat 5 (w / 65536)) (BitVec.ofNat 12 w))

/-- The instruction of a 32-bit pilot word (R72 to R77). -/
def decodePilot (w : Nat) : Except Reject Instr :=
  match w / 67108864 % 64 with
  | 0 => decodeAlu w
  | 1 => .ok (.addi (BitVec.ofNat 5 (w / 2097152)) (BitVec.ofNat 5 (w / 65536)) (BitVec.ofNat 16 w))
  | 2 => .ok (.andi (BitVec.ofNat 5 (w / 2097152)) (BitVec.ofNat 5 (w / 65536)) (BitVec.ofNat 16 w))
  | 3 => .ok (.ori (BitVec.ofNat 5 (w / 2097152)) (BitVec.ofNat 5 (w / 65536)) (BitVec.ofNat 16 w))
  | 4 => .ok (.xori (BitVec.ofNat 5 (w / 2097152)) (BitVec.ofNat 5 (w / 65536)) (BitVec.ofNat 16 w))
  | 5 => if w / 64 % 1024 != 0 then .error .nonzeroField else .ok (.shli (BitVec.ofNat 5 (w / 2097152)) (BitVec.ofNat 5 (w / 65536)) (BitVec.ofNat 6 w))
  | 6 => if w / 64 % 1024 != 0 then .error .nonzeroField else .ok (.shri (BitVec.ofNat 5 (w / 2097152)) (BitVec.ofNat 5 (w / 65536)) (BitVec.ofNat 6 w))
  | 7 => if w / 64 % 1024 != 0 then .error .nonzeroField else .ok (.srai (BitVec.ofNat 5 (w / 2097152)) (BitVec.ofNat 5 (w / 65536)) (BitVec.ofNat 6 w))
  | 8 => .ok (.slti (BitVec.ofNat 5 (w / 2097152)) (BitVec.ofNat 5 (w / 65536)) (BitVec.ofNat 16 w))
  | 9 => if w / 65536 % 32 != 0 then .error .nonzeroField else .ok (.lui (BitVec.ofNat 5 (w / 2097152)) (BitVec.ofNat 16 w))
  | 16 => .ok (.ldN8 (BitVec.ofNat 5 (w / 2097152)) (BitVec.ofNat 5 (w / 65536)) (BitVec.ofNat 16 w))
  | 17 => .ok (.ldN16 (BitVec.ofNat 5 (w / 2097152)) (BitVec.ofNat 5 (w / 65536)) (BitVec.ofNat 16 w))
  | 18 => .ok (.ldN32 (BitVec.ofNat 5 (w / 2097152)) (BitVec.ofNat 5 (w / 65536)) (BitVec.ofNat 16 w))
  | 19 => .ok (.ld (BitVec.ofNat 5 (w / 2097152)) (BitVec.ofNat 5 (w / 65536)) (BitVec.ofNat 16 w))
  | 20 => .ok (.ldS8 (BitVec.ofNat 5 (w / 2097152)) (BitVec.ofNat 5 (w / 65536)) (BitVec.ofNat 16 w))
  | 21 => .ok (.ldS16 (BitVec.ofNat 5 (w / 2097152)) (BitVec.ofNat 5 (w / 65536)) (BitVec.ofNat 16 w))
  | 22 => .ok (.ldS32 (BitVec.ofNat 5 (w / 2097152)) (BitVec.ofNat 5 (w / 65536)) (BitVec.ofNat 16 w))
  | 23 => .ok (.ldacq (BitVec.ofNat 5 (w / 2097152)) (BitVec.ofNat 5 (w / 65536)) (BitVec.ofNat 16 w))
  | 24 => .ok (.stN8 (BitVec.ofNat 5 (w / 2097152)) (BitVec.ofNat 5 (w / 65536)) (BitVec.ofNat 16 w))
  | 25 => .ok (.stN16 (BitVec.ofNat 5 (w / 2097152)) (BitVec.ofNat 5 (w / 65536)) (BitVec.ofNat 16 w))
  | 26 => .ok (.stN32 (BitVec.ofNat 5 (w / 2097152)) (BitVec.ofNat 5 (w / 65536)) (BitVec.ofNat 16 w))
  | 27 => .ok (.st (BitVec.ofNat 5 (w / 2097152)) (BitVec.ofNat 5 (w / 65536)) (BitVec.ofNat 16 w))
  | 28 => .ok (.strel (BitVec.ofNat 5 (w / 2097152)) (BitVec.ofNat 5 (w / 65536)) (BitVec.ofNat 16 w))
  | 32 => .ok (.beq (BitVec.ofNat 5 (w / 2097152)) (BitVec.ofNat 5 (w / 65536)) (BitVec.ofNat 16 w))
  | 33 => .ok (.bne (BitVec.ofNat 5 (w / 2097152)) (BitVec.ofNat 5 (w / 65536)) (BitVec.ofNat 16 w))
  | 34 => .ok (.blt (BitVec.ofNat 5 (w / 2097152)) (BitVec.ofNat 5 (w / 65536)) (BitVec.ofNat 16 w))
  | 35 => .ok (.bge (BitVec.ofNat 5 (w / 2097152)) (BitVec.ofNat 5 (w / 65536)) (BitVec.ofNat 16 w))
  | 36 => .ok (.bltn (BitVec.ofNat 5 (w / 2097152)) (BitVec.ofNat 5 (w / 65536)) (BitVec.ofNat 16 w))
  | 37 => .ok (.bgen (BitVec.ofNat 5 (w / 2097152)) (BitVec.ofNat 5 (w / 65536)) (BitVec.ofNat 16 w))
  | 38 => .ok (.jal (BitVec.ofNat 26 w))
  | 39 => .ok (.jalr (BitVec.ofNat 5 (w / 2097152)) (BitVec.ofNat 5 (w / 65536)) (BitVec.ofNat 16 w))
  | 40 => if w % 256 != 0 || w / 2097152 % 32 != 0 then .error .nonzeroField else .ok (.blkld (BitVec.ofNat 5 (w / 65536)) (BitVec.ofNat 8 (w / 256)))
  | 41 => if w % 256 != 0 || w / 65536 % 1024 != 0 then .error .nonzeroField else .ok (.blkgo (BitVec.ofNat 8 (w / 256)))
  | 42 => if w % 256 != 0 || w / 65536 % 1024 != 0 then .error .nonzeroField else .ok (.blkarm (BitVec.ofNat 8 (w / 256)))
  | 43 => if w % 256 != 0 || w / 65536 % 32 != 0 then .error .nonzeroField else .ok (.blkwait (BitVec.ofNat 5 (w / 2097152)) (BitVec.ofNat 8 (w / 256)))
  | 44 => if w % 256 != 0 then .error .nonzeroField else .ok (.resteer (BitVec.ofNat 5 (w / 2097152)) (BitVec.ofNat 5 (w / 65536)) (BitVec.ofNat 8 (w / 256)))
  | 45 => decodeCfgwr w
  | 46 => if w / 16 % 16 != 0 || w / 65536 % 32 != 0 then .error .nonzeroField else .ok (.wbrd (BitVec.ofNat 5 (w / 2097152)) (BitVec.ofNat 8 (w / 256)) (BitVec.ofNat 4 w))
  | 47 => decodeInject w
  | 48 => if w / 8 % 8388608 != 0 then .error .nonzeroField else if w % 8 > 4 then .error .fieldOutOfRange else .ok (.fence (BitVec.ofNat 3 w))
  | 49 => if w / 8 % 256 != 0 then .error .nonzeroField else if w % 8 > 5 then .error .fieldOutOfRange else .ok (.waitw (BitVec.ofNat 5 (w / 2097152)) (BitVec.ofNat 5 (w / 65536)) (BitVec.ofNat 5 (w / 2048)) (BitVec.ofNat 3 w))
  | 50 => if w / 32 % 64 != 0 then .error .nonzeroField else if w % 16 > 9 then .error .fieldOutOfRange else .ok (.atom (BitVec.ofNat 5 (w / 2097152)) (BitVec.ofNat 5 (w / 65536)) (BitVec.ofNat 5 (w / 2048)) (BitVec.ofNat 1 (w / 16)) (BitVec.ofNat 4 w))
  | 52 => if w % 65536 != 0 || w / 2097152 % 32 != 0 then .error .nonzeroField else .ok (.cvjoin (BitVec.ofNat 5 (w / 65536)))
  | 53 => if w % 65536 != 0 || w / 2097152 % 32 != 0 then .error .nonzeroField else .ok (.cvleave (BitVec.ofNat 5 (w / 65536)))
  | 54 => if w % 65536 != 0 || w / 2097152 % 32 != 0 then .error .nonzeroField else .ok (.cvarrive (BitVec.ofNat 5 (w / 65536)))
  | 55 => if w % 65536 != 0 then .error .nonzeroField else .ok (.cvwait (BitVec.ofNat 5 (w / 2097152)) (BitVec.ofNat 5 (w / 65536)))
  | 56 => if w % 65536 != 0 || w / 2097152 % 32 != 0 then .error .nonzeroField else .ok (.winacq (BitVec.ofNat 5 (w / 65536)))
  | 57 => if w % 65536 != 0 || w / 2097152 % 32 != 0 then .error .nonzeroField else .ok (.winrel (BitVec.ofNat 5 (w / 65536)))
  | 58 => if w % 2048 != 0 then .error .nonzeroField else .ok (.cpy (BitVec.ofNat 5 (w / 2097152)) (BitVec.ofNat 5 (w / 65536)) (BitVec.ofNat 5 (w / 2048)))
  | 59 => if w / 65536 % 1024 != 0 then .error .nonzeroField else .ok (.trap (BitVec.ofNat 16 w))
  | 60 => if w / 4096 % 512 != 0 then .error .nonzeroField else .ok (.ctlrd (BitVec.ofNat 5 (w / 2097152)) (BitVec.ofNat 12 w))
  | 61 => decodeCtlwr w
  | 62 => decodeSystem w
  | _ => .error .unassigned

/-- The operand record of an operation word (R79). -/
def decodeOp (w : Nat) : Op :=
  { dst := BitVec.ofNat 4 (w / 1048576), a := BitVec.ofNat 5 (w / 32768), b := BitVec.ofNat 5 (w / 1024),
    ty := BitVec.ofNat 3 (w / 128), md := BitVec.ofNat 5 (w / 4), dqa := w / 2 % 2 == 1, dqb := w % 2 == 1 }

/-- The vector class (R80); the variants of `MOV` stand in the modifier (R265). -/
def decodeVector (opc : Nat) (o : Op) : Except Reject Instr :=
  match opc with
  | 0 => .ok (.vecAdd o)
  | 1 => .ok (.vecSub o)
  | 2 => .ok (.vecMul o)
  | 3 => .ok (.vecMulh o)
  | 4 => .ok (.vecMad o)
  | 5 => .ok (.vecAbs o)
  | 6 => .ok (.vecNeg o)
  | 7 => .ok (.vecMin o)
  | 8 => .ok (.vecMax o)
  | 9 => .ok (.vecAnd o)
  | 10 => .ok (.vecOr o)
  | 11 => .ok (.vecXor o)
  | 12 => .ok (.vecNot o)
  | 13 => .ok (.vecShl o)
  | 14 => .ok (.vecShr o)
  | 15 => .ok (.vecSra o)
  | 16 => .ok (.vecRot o)
  | 17 => .ok (.vecClz o)
  | 18 => .ok (.vecPopc o)
  | 19 => .ok (.vecAdds o)
  | 20 => .ok (.vecSubs o)
  | 21 => .ok (.vecAvg o)
  | 24 => .ok (.vecFadd o)
  | 25 => .ok (.vecFsub o)
  | 26 => .ok (.vecFmul o)
  | 27 => .ok (.vecFma o)
  | 28 => .ok (.vecFmin o)
  | 29 => .ok (.vecFmax o)
  | 30 => .ok (.vecFabs o)
  | 31 => .ok (.vecFneg o)
  | 32 => .ok (.vecFcps o)
  | 33 => .ok (.vecCmp o)
  | 34 => .ok (.vecFcmp o)
  | 35 => .ok (.vecSel o)
  | 36 => .ok (.vecClass o)
  | 40 => .ok (.vecCvt o)
  | 41 => .ok (.vecCvtsr o)
  | 42 => .ok (.vecPack o)
  | 43 => .ok (.vecUnpack o)
  | 44 => .ok (.vecExp2 o)
  | 45 => .ok (.vecLog2 o)
  | 46 => .ok (.vecRcp o)
  | 47 => .ok (.vecRsq o)
  | 48 => .ok (.vecSqrt o)
  | 49 => .ok (.vecSinpi o)
  | 50 => .ok (.vecCospi o)
  | 51 => .ok (.vecLbcast o)
  | 52 => .ok (.vecLrot o)
  | 53 => .ok (.vecLred o)
  | 54 => .ok (.vecLscan o)
  | 55 => .ok (.vecLidx o)
  | 57 => .ok (.vecMovi o)
  | 58 => .ok (.vecLdc o)
  | 59 => .ok (.vecFscale o)
  | 60 => .ok (.vecFrexp o)
  | 56 =>
    match o.md.toNat with
    | 0 => .ok (.vecMov o)
    | 1 => .ok (.vecMovRdflags o)
    | 2 => .ok (.vecMovRcflags o)
    | 3 => .ok (.vecMovWrflags o)
    | 4 => .ok (.vecMovRdseed o)
    | 5 => .ok (.vecMovWrseed o)
    | _ => .error .unassigned
  | _ => .error .unassigned

/-- The brick class (R82). -/
def decodeBrick (opc : Nat) (o : Op) : Except Reject Instr :=
  match opc with
  | 0 => .ok (.mac o)
  | 1 => .ok (.dot o)
  | 2 => .ok (.dots o)
  | 3 => .ok (.dotx o)
  | 4 => .ok (.mma o)
  | 5 => .ok (.wload o)
  | 6 => .ok (.mulw o)
  | 7 => .ok (.mula o)
  | 8 => .ok (.accrd o)
  | 9 => .ok (.accclr o)
  | 10 => .ok (.accset o)
  | 11 => .ok (.accadd o)
  | 12 => .ok (.accmode o)
  | 13 => .ok (.perm o)
  | 14 => .ok (.permld o)
  | 15 => .ok (.recstep o)
  | 16 => .ok (.bgate o)
  | _ => .error .unassigned

/-- The trigger class (R83). -/
def decodeTrigger (opc : Nat) (o : Op) : Except Reject Instr :=
  match opc with
  | 0 => .ok (.nop o)
  | 1 => .ok (.pset o)
  | 2 => .ok (.plog o)
  | 3 => .ok (.send o)
  | 4 => .ok (.deq o)
  | 5 => .ok (.tag o)
  | 6 => .ok (.mfwd o)
  | 7 => .ok (.mgen o)
  | 8 => .ok (.nullt o)
  | 9 => .ok (.loop o)
  | 10 => .ok (.ldec o)
  | 11 => .ok (.rep o)
  | 12 => .ok (.lde o)
  | 13 => .ok (.ste o)
  | 14 => .ok (.ldp o)
  | 15 => .ok (.stp o)
  | 16 => .ok (.cmde o)
  | 17 => .ok (.brtok o)
  | 18 => .ok (.wbk o)
  | 19 => .ok (.movc o)
  | 20 => .ok (.yield o)
  | 21 => .ok (.faulte o)
  | _ => .error .unassigned

/-- The instruction of a 32-bit operation word (R79 to R85). -/
def decodeOpWord (w : Nat) : Except Reject Instr :=
  match w / 1073741824 % 4 with
  | 0 => decodeVector (w / 16777216 % 64) (decodeOp w)
  | 1 => decodeBrick (w / 16777216 % 64) (decodeOp w)
  | 2 => decodeTrigger (w / 16777216 % 64) (decodeOp w)
  | _ => if w / 16777216 % 64 < 30 then .ok (.engineCommandSend (BitVec.ofNat 6 (w / 16777216)) (decodeOp w))
    else .error .unassigned

/-- A little-endian number from bytes (R3). -/
def leNat : List Byte → Nat
  | [] => 0
  | b :: r => b.toNat + 256 * leNat r

/-- The first `n` bytes of a number, least significant first (R3). -/
def leBytes : Nat → Nat → List Byte
  | 0, _ => []
  | n + 1, w => BitVec.ofNat 8 w :: leBytes n (w / 256)

/-- One pilot word from bytes, with the bytes left (R72). -/
def decodePilotBytes (l : List Byte) : Except Reject (Instr × List Byte) :=
  if l.length < 4 then .error .short
  else
    match decodePilot (leNat (l.take 4)) with
    | .ok i => .ok (i, l.drop 4)
    | .error r => .error r

/-- One element slot from bytes: guard word, instruction, bytes left (R78). -/
def decodeSlotBytes (l : List Byte) : Except Reject (Nat × Instr × List Byte) :=
  if l.length < 6 then .error .short
  else
    match decodeOpWord (leNat ((l.drop 2).take 4)) with
    | .ok i => .ok (leNat (l.take 2), i, l.drop 6)
    | .error r => .error r

/-- What the decoder reads from an instruction whose bits are `w`, numbered as spec/opcode_table.json numbers them:
32 bits are a pilot word, 48 bits an element slot with its guard word in [15:0]. -/
def decodeTableWord (nbits w : Nat) : Option Instr :=
  if nbits ≤ 32 then
    match decodePilotBytes (leBytes 4 w) with
    | .ok r => some r.1
    | .error _ => none
  else
    match decodeSlotBytes (leBytes 6 w) with
    | .ok r => some r.2.1
    | .error _ => none

/-! ### The encoder -/

/-- The pilot word of an instruction (R72 to R77); `none` for what is no pilot word. -/
def encodePilot (i : Instr) : Option Nat :=
  match i with
  | .add d a b => some (0 + d.toNat * 2097152 + a.toNat * 65536 + b.toNat * 2048)
  | .sub d a b => some (1 + d.toNat * 2097152 + a.toNat * 65536 + b.toNat * 2048)
  | .and d a b => some (2 + d.toNat * 2097152 + a.toNat * 65536 + b.toNat * 2048)
  | .or d a b => some (3 + d.toNat * 2097152 + a.toNat * 65536 + b.toNat * 2048)
  | .xor d a b => some (4 + d.toNat * 2097152 + a.toNat * 65536 + b.toNat * 2048)
  | .shl d a b => some (5 + d.toNat * 2097152 + a.toNat * 65536 + b.toNat * 2048)
  | .shr d a b => some (6 + d.toNat * 2097152 + a.toNat * 65536 + b.toNat * 2048)
  | .sra d a b => some (7 + d.toNat * 2097152 + a.toNat * 65536 + b.toNat * 2048)
  | .mul d a b => some (8 + d.toNat * 2097152 + a.toNat * 65536 + b.toNat * 2048)
  | .mulh d a b => some (9 + d.toNat * 2097152 + a.toNat * 65536 + b.toNat * 2048)
  | .divn d a b => some (10 + d.toNat * 2097152 + a.toNat * 65536 + b.toNat * 2048)
  | .rem d a b => some (11 + d.toNat * 2097152 + a.toNat * 65536 + b.toNat * 2048)
  | .remn d a b => some (12 + d.toNat * 2097152 + a.toNat * 65536 + b.toNat * 2048)
  | .slt d a b => some (13 + d.toNat * 2097152 + a.toNat * 65536 + b.toNat * 2048)
  | .div d a b => some (14 + d.toNat * 2097152 + a.toNat * 65536 + b.toNat * 2048)
  | .sltn d a b => some (15 + d.toNat * 2097152 + a.toNat * 65536 + b.toNat * 2048)
  | .min d a b => some (16 + d.toNat * 2097152 + a.toNat * 65536 + b.toNat * 2048)
  | .max d a b => some (17 + d.toNat * 2097152 + a.toNat * 65536 + b.toNat * 2048)
  | .clz d a => some (18 + d.toNat * 2097152 + a.toNat * 65536)
  | .popc d a => some (19 + d.toNat * 2097152 + a.toNat * 65536)
  | .addi d a imm => some (67108864 + d.toNat * 2097152 + a.toNat * 65536 + imm.toNat)
  | .andi d a imm => some (134217728 + d.toNat * 2097152 + a.toNat * 65536 + imm.toNat)
  | .ori d a imm => some (201326592 + d.toNat * 2097152 + a.toNat * 65536 + imm.toNat)
  | .xori d a imm => some (268435456 + d.toNat * 2097152 + a.toNat * 65536 + imm.toNat)
  | .shli d a c => some (335544320 + d.toNat * 2097152 + a.toNat * 65536 + c.toNat)
  | .shri d a c => some (402653184 + d.toNat * 2097152 + a.toNat * 65536 + c.toNat)
  | .srai d a c => some (469762048 + d.toNat * 2097152 + a.toNat * 65536 + c.toNat)
  | .slti d a imm => some (536870912 + d.toNat * 2097152 + a.toNat * 65536 + imm.toNat)
  | .lui d imm => some (603979776 + d.toNat * 2097152 + imm.toNat)
  | .ldN8 d a imm => some (1073741824 + d.toNat * 2097152 + a.toNat * 65536 + imm.toNat)
  | .ldN16 d a imm => some (1140850688 + d.toNat * 2097152 + a.toNat * 65536 + imm.toNat)
  | .ldN32 d a imm => some (1207959552 + d.toNat * 2097152 + a.toNat * 65536 + imm.toNat)
  | .ld d a imm => some (1275068416 + d.toNat * 2097152 + a.toNat * 65536 + imm.toNat)
  | .ldS8 d a imm => some (1342177280 + d.toNat * 2097152 + a.toNat * 65536 + imm.toNat)
  | .ldS16 d a imm => some (1409286144 + d.toNat * 2097152 + a.toNat * 65536 + imm.toNat)
  | .ldS32 d a imm => some (1476395008 + d.toNat * 2097152 + a.toNat * 65536 + imm.toNat)
  | .ldacq d a imm => some (1543503872 + d.toNat * 2097152 + a.toNat * 65536 + imm.toNat)
  | .stN8 s b imm => some (1610612736 + s.toNat * 2097152 + b.toNat * 65536 + imm.toNat)
  | .stN16 s b imm => some (1677721600 + s.toNat * 2097152 + b.toNat * 65536 + imm.toNat)
  | .stN32 s b imm => some (1744830464 + s.toNat * 2097152 + b.toNat * 65536 + imm.toNat)
  | .st s b imm => some (1811939328 + s.toNat * 2097152 + b.toNat * 65536 + imm.toNat)
  | .strel s b imm => some (1879048192 + s.toNat * 2097152 + b.toNat * 65536 + imm.toNat)
  | .beq a b off => some (2147483648 + a.toNat * 2097152 + b.toNat * 65536 + off.toNat)
  | .bne a b off => some (2214592512 + a.toNat * 2097152 + b.toNat * 65536 + off.toNat)
  | .blt a b off => some (2281701376 + a.toNat * 2097152 + b.toNat * 65536 + off.toNat)
  | .bge a b off => some (2348810240 + a.toNat * 2097152 + b.toNat * 65536 + off.toNat)
  | .bltn a b off => some (2415919104 + a.toNat * 2097152 + b.toNat * 65536 + off.toNat)
  | .bgen a b off => some (2483027968 + a.toNat * 2097152 + b.toNat * 65536 + off.toNat)
  | .jal off => some (2550136832 + off.toNat)
  | .jalr d a imm => some (2617245696 + d.toNat * 2097152 + a.toNat * 65536 + imm.toNat)
  | .blkld a mask => some (2684354560 + a.toNat * 65536 + mask.toNat * 256)
  | .blkgo mask => some (2751463424 + mask.toNat * 256)
  | .blkarm mask => some (2818572288 + mask.toNat * 256)
  | .blkwait d mask => some (2885681152 + d.toNat * 2097152 + mask.toNat * 256)
  | .resteer d a mask => some (2952790016 + d.toNat * 2097152 + a.toNat * 65536 + mask.toNat * 256)
  | .cfgwrSw a mask => some (3019898880 + a.toNat * 65536 + mask.toNat * 256)
  | .cfgwrConst a mask => some (3019898881 + a.toNat * 65536 + mask.toNat * 256)
  | .cfgwrDiv a mask => some (3019898882 + a.toNat * 65536 + mask.toNat * 256)
  | .cfgwrLoop a mask => some (3019898883 + a.toNat * 65536 + mask.toNat * 256)
  | .wbrd d mask n => some (3087007744 + d.toNat * 2097152 + mask.toNat * 256 + n.toNat)
  | .injectData a mask port tag => some (3154116608 + a.toNat * 65536 + mask.toNat * 256 + port.toNat * 16 + tag.toNat * 4)
  | .injectNull a mask port tag => some (3154116609 + a.toNat * 65536 + mask.toNat * 256 + port.toNat * 16 + tag.toNat * 4)
  | .injectMark a mask port tag => some (3154116610 + a.toNat * 65536 + mask.toNat * 256 + port.toNat * 16 + tag.toNat * 4)
  | .fence s => some (3221225472 + s.toNat)
  | .waitw d a b c => some (3288334336 + d.toNat * 2097152 + a.toNat * 65536 + b.toNat * 2048 + c.toNat)
  | .atom d a b ord f => some (3355443200 + d.toNat * 2097152 + a.toNat * 65536 + b.toNat * 2048 + ord.toNat * 16 + f.toNat)
  | .cvjoin a => some (3489660928 + a.toNat * 65536)
  | .cvleave a => some (3556769792 + a.toNat * 65536)
  | .cvarrive a => some (3623878656 + a.toNat * 65536)
  | .cvwait d a => some (3690987520 + d.toNat * 2097152 + a.toNat * 65536)
  | .winacq a => some (3758096384 + a.toNat * 65536)
  | .winrel a => some (3825205248 + a.toNat * 65536)
  | .cpy d a b => some (3892314112 + d.toNat * 2097152 + a.toNat * 65536 + b.toNat * 2048)
  | .trap imm => some (3959422976 + imm.toNat)
  | .ctlrd d r => some (4026531840 + d.toNat * 2097152 + r.toNat)
  | .ctlwr a r => some (4093640704 + a.toNat * 65536 + r.toNat)
  | .eret => some (4160749568)
  | .chron d => some (4160749569 + d.toNat * 2097152)
  | .park => some (4160749570)
  | .rgnctlEnd a => some (4093640738 + a.toNat * 65536)
  | .sfctlPop a => some (4093640748 + a.toNat * 65536)
  | .sfresume a => some (4093640749 + a.toNat * 65536)
  | .vecAdd .. => none
  | .vecSub .. => none
  | .vecMul .. => none
  | .vecMulh .. => none
  | .vecMad .. => none
  | .vecAbs .. => none
  | .vecNeg .. => none
  | .vecMin .. => none
  | .vecMax .. => none
  | .vecAnd .. => none
  | .vecOr .. => none
  | .vecXor .. => none
  | .vecNot .. => none
  | .vecShl .. => none
  | .vecShr .. => none
  | .vecSra .. => none
  | .vecRot .. => none
  | .vecClz .. => none
  | .vecPopc .. => none
  | .vecAdds .. => none
  | .vecSubs .. => none
  | .vecAvg .. => none
  | .vecFadd .. => none
  | .vecFsub .. => none
  | .vecFmul .. => none
  | .vecFma .. => none
  | .vecFmin .. => none
  | .vecFmax .. => none
  | .vecFabs .. => none
  | .vecFneg .. => none
  | .vecFcps .. => none
  | .vecCmp .. => none
  | .vecFcmp .. => none
  | .vecSel .. => none
  | .vecClass .. => none
  | .vecCvt .. => none
  | .vecCvtsr .. => none
  | .vecPack .. => none
  | .vecUnpack .. => none
  | .vecExp2 .. => none
  | .vecLog2 .. => none
  | .vecRcp .. => none
  | .vecRsq .. => none
  | .vecSqrt .. => none
  | .vecSinpi .. => none
  | .vecCospi .. => none
  | .vecLbcast .. => none
  | .vecLrot .. => none
  | .vecLred .. => none
  | .vecLscan .. => none
  | .vecLidx .. => none
  | .vecMov .. => none
  | .vecMovRdflags .. => none
  | .vecMovRcflags .. => none
  | .vecMovWrflags .. => none
  | .vecMovRdseed .. => none
  | .vecMovWrseed .. => none
  | .vecMovi .. => none
  | .vecLdc .. => none
  | .vecFscale .. => none
  | .vecFrexp .. => none
  | .mac .. => none
  | .dot .. => none
  | .dots .. => none
  | .dotx .. => none
  | .mma .. => none
  | .wload .. => none
  | .mulw .. => none
  | .mula .. => none
  | .accrd .. => none
  | .accclr .. => none
  | .accset .. => none
  | .accadd .. => none
  | .accmode .. => none
  | .perm .. => none
  | .permld .. => none
  | .recstep .. => none
  | .bgate .. => none
  | .nop .. => none
  | .pset .. => none
  | .plog .. => none
  | .send .. => none
  | .deq .. => none
  | .tag .. => none
  | .mfwd .. => none
  | .mgen .. => none
  | .nullt .. => none
  | .loop .. => none
  | .ldec .. => none
  | .rep .. => none
  | .lde .. => none
  | .ste .. => none
  | .ldp .. => none
  | .stp .. => none
  | .cmde .. => none
  | .brtok .. => none
  | .wbk .. => none
  | .movc .. => none
  | .yield .. => none
  | .faulte .. => none
  | .engineCommandSend .. => none
  | .walkCompletes .. => none
  | .streamFault .. => none
  | .windowStoreApply .. => none
  | .hwatchWrite .. => none
  | .hinvctl .. => none
  | .registerWrite .. => none
  | .dataLineWrite .. => none
  | .hostMemWrite .. => none
  | .peerSend .. => none
  | .peerCompletion .. => none
  | .peerRetire .. => none
  | .convoyFlit .. => none
  | .linkRetry .. => none
  | .mbctlGo .. => none
  | .evconsWrite .. => none
  | .sensorRead .. => none
  | .coolantCycle .. => none
  | .phaseReleaseRecord .. => none
  | .asyncTrap => none
  | .blockLoadEnds => none
  | .groupAdderStep => none
  | .brickResultCompletes => none
  | .yieldClearTimeout => none
  | .outboundTokenClaim => none
  | .inboundTokenSend => none
  | .edgeRequest => none
  | .xsplit => none
  | .xjoin => none
  | .xscale => none
  | .nwatch => none
  | .nread => none
  | .nclr => none
  | .cvtin => none
  | .cvtout => none
  | .transformTokenTaken => none
  | .normWatchRound => none
  | .sadv => none
  | .sswap => none
  | .scopy => none
  | .spref => none
  | .sflush => none
  | .szero => none
  | .sgath => none
  | .sscat => none
  | .streamCommandResponse => none
  | .bindingIteration => none
  | .bufferHandOver => none
  | .storeBindingEnd => none
  | .scrubPass => none
  | .storageClear => none
  | .aadd => none
  | .afadd => none
  | .amin => none
  | .amax => none
  | .aand => none
  | .aor => none
  | .axor => none
  | .aswap => none
  | .acas => none
  | .ainc => none
  | .supd => none
  | .eflush => none
  | .suppressionRetire => none
  | .convoyPhaseComplete => none
  | .sprg => none
  | .sprgq => none
  | .springBlockDecoded => none
  | .springResponse => none
  | .tokenTaken => none
  | .routeForward => none
  | .delayNodeOffer => none
  | .channelNodeDeliver => none
  | .dieLinkFailure => none
  | .readyDelayCount => none
  | .configurationParity => none
  | .elementSwap => none
  | .routerSetChange => none
  | .columnEndPasses => none
  | .switchRewriteApply => none
  | .commit => none
  | .blockFault => none
  | .elementFault => none
  | .elementBlocked => none
  | .launchWord => none
  | .placeLaunch => none
  | .invalidationComplete => none
  | .nodeBlock => none
  | .nodePilot => none
  | .nodeCopy => none
  | .nodeCond => none
  | .nodeLoop => none
  | .nodeSwitch => none
  | .nodeWaitw => none
  | .nodeWaitwRecheck => none
  | .nodeWaitwTimeout => none
  | .nodeSignal => none
  | .nodeHostnote => none
  | .nodePreemptTide => none
  | .nodePreemptFreeze => none
  | .nodePreemptRestore => none
  | .nodePreemptDiscard => none
  | .nodeEnd => none
  | .winopen => none
  | .winrekey => none
  | .winclose => none
  | .sharingPeriod => none
  | .quotaExhausted => none
  | .residencyRotation => none
  | .ctxsize => none
  | .tide => none
  | .freeze => none
  | .save => none
  | .restore => none
  | .discard => none
  | .tideMarkSnapshot => none
  | .caughtToken => none
  | .freezeGateCloses => none
  | .tideTimeout => none
  | .dataLineRead => none
  | .nodeWriteBack => none
  | .hostMemRead => none
  | .cxlCacheRequest => none
  | .retryTimeout => none
  | .burbexPortDown => none
  | .flitSelect => none
  | .slackUpdate => none
  | .reset => none
  | .resync => none
  | .attest => none
  | .fwstage => none
  | .fwactivate => none
  | .vdcreate => none
  | .vddestroy => none
  | .vdquota => none
  | .vdroot => none
  | .framesGrant => none
  | .framesRelease => none
  | .hostrange => none
  | .route => none
  | .recvrange => none
  | .peerconvoy => none
  | .vdresume => none
  | .vdexport => none
  | .vdimport => none
  | .vddumpkey => none
  | .partition => none
  | .slack => none
  | .logread => none
  | .eventring => none
  | .dumparea => none
  | .watchdog => none
  | .power => none
  | .powerSample => none
  | .quotaInterval => none
  | .logBatchClose => none
  | .eventDelivery => none
  | .regionStall => none
  | .quarantine => none
  | .heartbeatGap => none
  | .fatal => none
  | .pilotWaitwRecheck => none
  | .pilotLoadReturn => none
  | .burbexPortUp => none
  | .backInvalidateResponse => none
  | .cxlCacheCompletion => none
  | .doeRequest => none
  | .chronometerTick => none

/-- Class, opcode and operand record of an element instruction (R79 to R85); `none` for the others. -/
def Instr.elementCode (i : Instr) : Option (Nat × Nat × Op) :=
  match i with
  | .add .. => none
  | .sub .. => none
  | .and .. => none
  | .or .. => none
  | .xor .. => none
  | .shl .. => none
  | .shr .. => none
  | .sra .. => none
  | .mul .. => none
  | .mulh .. => none
  | .divn .. => none
  | .rem .. => none
  | .remn .. => none
  | .slt .. => none
  | .div .. => none
  | .sltn .. => none
  | .min .. => none
  | .max .. => none
  | .clz .. => none
  | .popc .. => none
  | .addi .. => none
  | .andi .. => none
  | .ori .. => none
  | .xori .. => none
  | .shli .. => none
  | .shri .. => none
  | .srai .. => none
  | .slti .. => none
  | .lui .. => none
  | .ldN8 .. => none
  | .ldN16 .. => none
  | .ldN32 .. => none
  | .ld .. => none
  | .ldS8 .. => none
  | .ldS16 .. => none
  | .ldS32 .. => none
  | .ldacq .. => none
  | .stN8 .. => none
  | .stN16 .. => none
  | .stN32 .. => none
  | .st .. => none
  | .strel .. => none
  | .beq .. => none
  | .bne .. => none
  | .blt .. => none
  | .bge .. => none
  | .bltn .. => none
  | .bgen .. => none
  | .jal .. => none
  | .jalr .. => none
  | .blkld .. => none
  | .blkgo .. => none
  | .blkarm .. => none
  | .blkwait .. => none
  | .resteer .. => none
  | .cfgwrSw .. => none
  | .cfgwrConst .. => none
  | .cfgwrDiv .. => none
  | .cfgwrLoop .. => none
  | .wbrd .. => none
  | .injectData .. => none
  | .injectNull .. => none
  | .injectMark .. => none
  | .fence .. => none
  | .waitw .. => none
  | .atom .. => none
  | .cvjoin .. => none
  | .cvleave .. => none
  | .cvarrive .. => none
  | .cvwait .. => none
  | .winacq .. => none
  | .winrel .. => none
  | .cpy .. => none
  | .trap .. => none
  | .ctlrd .. => none
  | .ctlwr .. => none
  | .chron .. => none
  | .rgnctlEnd .. => none
  | .sfctlPop .. => none
  | .sfresume .. => none
  | .vecAdd o => some (0, 0, o)
  | .vecSub o => some (0, 1, o)
  | .vecMul o => some (0, 2, o)
  | .vecMulh o => some (0, 3, o)
  | .vecMad o => some (0, 4, o)
  | .vecAbs o => some (0, 5, o)
  | .vecNeg o => some (0, 6, o)
  | .vecMin o => some (0, 7, o)
  | .vecMax o => some (0, 8, o)
  | .vecAnd o => some (0, 9, o)
  | .vecOr o => some (0, 10, o)
  | .vecXor o => some (0, 11, o)
  | .vecNot o => some (0, 12, o)
  | .vecShl o => some (0, 13, o)
  | .vecShr o => some (0, 14, o)
  | .vecSra o => some (0, 15, o)
  | .vecRot o => some (0, 16, o)
  | .vecClz o => some (0, 17, o)
  | .vecPopc o => some (0, 18, o)
  | .vecAdds o => some (0, 19, o)
  | .vecSubs o => some (0, 20, o)
  | .vecAvg o => some (0, 21, o)
  | .vecFadd o => some (0, 24, o)
  | .vecFsub o => some (0, 25, o)
  | .vecFmul o => some (0, 26, o)
  | .vecFma o => some (0, 27, o)
  | .vecFmin o => some (0, 28, o)
  | .vecFmax o => some (0, 29, o)
  | .vecFabs o => some (0, 30, o)
  | .vecFneg o => some (0, 31, o)
  | .vecFcps o => some (0, 32, o)
  | .vecCmp o => some (0, 33, o)
  | .vecFcmp o => some (0, 34, o)
  | .vecSel o => some (0, 35, o)
  | .vecClass o => some (0, 36, o)
  | .vecCvt o => some (0, 40, o)
  | .vecCvtsr o => some (0, 41, o)
  | .vecPack o => some (0, 42, o)
  | .vecUnpack o => some (0, 43, o)
  | .vecExp2 o => some (0, 44, o)
  | .vecLog2 o => some (0, 45, o)
  | .vecRcp o => some (0, 46, o)
  | .vecRsq o => some (0, 47, o)
  | .vecSqrt o => some (0, 48, o)
  | .vecSinpi o => some (0, 49, o)
  | .vecCospi o => some (0, 50, o)
  | .vecLbcast o => some (0, 51, o)
  | .vecLrot o => some (0, 52, o)
  | .vecLred o => some (0, 53, o)
  | .vecLscan o => some (0, 54, o)
  | .vecLidx o => some (0, 55, o)
  | .vecMov o => some (0, 56, o)
  | .vecMovRdflags o => some (0, 56, o)
  | .vecMovRcflags o => some (0, 56, o)
  | .vecMovWrflags o => some (0, 56, o)
  | .vecMovRdseed o => some (0, 56, o)
  | .vecMovWrseed o => some (0, 56, o)
  | .vecMovi o => some (0, 57, o)
  | .vecLdc o => some (0, 58, o)
  | .vecFscale o => some (0, 59, o)
  | .vecFrexp o => some (0, 60, o)
  | .mac o => some (1, 0, o)
  | .dot o => some (1, 1, o)
  | .dots o => some (1, 2, o)
  | .dotx o => some (1, 3, o)
  | .mma o => some (1, 4, o)
  | .wload o => some (1, 5, o)
  | .mulw o => some (1, 6, o)
  | .mula o => some (1, 7, o)
  | .accrd o => some (1, 8, o)
  | .accclr o => some (1, 9, o)
  | .accset o => some (1, 10, o)
  | .accadd o => some (1, 11, o)
  | .accmode o => some (1, 12, o)
  | .perm o => some (1, 13, o)
  | .permld o => some (1, 14, o)
  | .recstep o => some (1, 15, o)
  | .bgate o => some (1, 16, o)
  | .nop o => some (2, 0, o)
  | .pset o => some (2, 1, o)
  | .plog o => some (2, 2, o)
  | .send o => some (2, 3, o)
  | .deq o => some (2, 4, o)
  | .tag o => some (2, 5, o)
  | .mfwd o => some (2, 6, o)
  | .mgen o => some (2, 7, o)
  | .nullt o => some (2, 8, o)
  | .loop o => some (2, 9, o)
  | .ldec o => some (2, 10, o)
  | .rep o => some (2, 11, o)
  | .lde o => some (2, 12, o)
  | .ste o => some (2, 13, o)
  | .ldp o => some (2, 14, o)
  | .stp o => some (2, 15, o)
  | .cmde o => some (2, 16, o)
  | .brtok o => some (2, 17, o)
  | .wbk o => some (2, 18, o)
  | .movc o => some (2, 19, o)
  | .yield o => some (2, 20, o)
  | .faulte o => some (2, 21, o)
  | .engineCommandSend opc o => some (3, opc.toNat, o)
  | .walkCompletes .. => none
  | .streamFault .. => none
  | .windowStoreApply .. => none
  | .hwatchWrite .. => none
  | .hinvctl .. => none
  | .registerWrite .. => none
  | .dataLineWrite .. => none
  | .hostMemWrite .. => none
  | .peerSend .. => none
  | .peerCompletion .. => none
  | .peerRetire .. => none
  | .convoyFlit .. => none
  | .linkRetry .. => none
  | .mbctlGo .. => none
  | .evconsWrite .. => none
  | .sensorRead .. => none
  | .coolantCycle .. => none
  | .phaseReleaseRecord .. => none
  | .eret => none
  | .park => none
  | .asyncTrap => none
  | .blockLoadEnds => none
  | .groupAdderStep => none
  | .brickResultCompletes => none
  | .yieldClearTimeout => none
  | .outboundTokenClaim => none
  | .inboundTokenSend => none
  | .edgeRequest => none
  | .xsplit => none
  | .xjoin => none
  | .xscale => none
  | .nwatch => none
  | .nread => none
  | .nclr => none
  | .cvtin => none
  | .cvtout => none
  | .transformTokenTaken => none
  | .normWatchRound => none
  | .sadv => none
  | .sswap => none
  | .scopy => none
  | .spref => none
  | .sflush => none
  | .szero => none
  | .sgath => none
  | .sscat => none
  | .streamCommandResponse => none
  | .bindingIteration => none
  | .bufferHandOver => none
  | .storeBindingEnd => none
  | .scrubPass => none
  | .storageClear => none
  | .aadd => none
  | .afadd => none
  | .amin => none
  | .amax => none
  | .aand => none
  | .aor => none
  | .axor => none
  | .aswap => none
  | .acas => none
  | .ainc => none
  | .supd => none
  | .eflush => none
  | .suppressionRetire => none
  | .convoyPhaseComplete => none
  | .sprg => none
  | .sprgq => none
  | .springBlockDecoded => none
  | .springResponse => none
  | .tokenTaken => none
  | .routeForward => none
  | .delayNodeOffer => none
  | .channelNodeDeliver => none
  | .dieLinkFailure => none
  | .readyDelayCount => none
  | .configurationParity => none
  | .elementSwap => none
  | .routerSetChange => none
  | .columnEndPasses => none
  | .switchRewriteApply => none
  | .commit => none
  | .blockFault => none
  | .elementFault => none
  | .elementBlocked => none
  | .launchWord => none
  | .placeLaunch => none
  | .invalidationComplete => none
  | .nodeBlock => none
  | .nodePilot => none
  | .nodeCopy => none
  | .nodeCond => none
  | .nodeLoop => none
  | .nodeSwitch => none
  | .nodeWaitw => none
  | .nodeWaitwRecheck => none
  | .nodeWaitwTimeout => none
  | .nodeSignal => none
  | .nodeHostnote => none
  | .nodePreemptTide => none
  | .nodePreemptFreeze => none
  | .nodePreemptRestore => none
  | .nodePreemptDiscard => none
  | .nodeEnd => none
  | .winopen => none
  | .winrekey => none
  | .winclose => none
  | .sharingPeriod => none
  | .quotaExhausted => none
  | .residencyRotation => none
  | .ctxsize => none
  | .tide => none
  | .freeze => none
  | .save => none
  | .restore => none
  | .discard => none
  | .tideMarkSnapshot => none
  | .caughtToken => none
  | .freezeGateCloses => none
  | .tideTimeout => none
  | .dataLineRead => none
  | .nodeWriteBack => none
  | .hostMemRead => none
  | .cxlCacheRequest => none
  | .retryTimeout => none
  | .burbexPortDown => none
  | .flitSelect => none
  | .slackUpdate => none
  | .reset => none
  | .resync => none
  | .attest => none
  | .fwstage => none
  | .fwactivate => none
  | .vdcreate => none
  | .vddestroy => none
  | .vdquota => none
  | .vdroot => none
  | .framesGrant => none
  | .framesRelease => none
  | .hostrange => none
  | .route => none
  | .recvrange => none
  | .peerconvoy => none
  | .vdresume => none
  | .vdexport => none
  | .vdimport => none
  | .vddumpkey => none
  | .partition => none
  | .slack => none
  | .logread => none
  | .eventring => none
  | .dumparea => none
  | .watchdog => none
  | .power => none
  | .powerSample => none
  | .quotaInterval => none
  | .logBatchClose => none
  | .eventDelivery => none
  | .regionStall => none
  | .quarantine => none
  | .heartbeatGap => none
  | .fatal => none
  | .pilotWaitwRecheck => none
  | .pilotLoadReturn => none
  | .burbexPortUp => none
  | .backInvalidateResponse => none
  | .cxlCacheCompletion => none
  | .doeRequest => none
  | .chronometerTick => none

/-- The operation word of a class, an opcode and an operand record (R79). -/
def encodeOp (cls opc : Nat) (o : Op) : Nat :=
  cls * 1073741824 + opc * 16777216 + o.dst.toNat * 1048576 + o.a.toNat * 32768 + o.b.toNat * 1024
    + o.ty.toNat * 128 + o.md.toNat * 4 + b2n o.dqa * 2 + b2n o.dqb

/-- The operation word of an element instruction. -/
def encodeOpWord (i : Instr) : Option Nat :=
  match i.elementCode with
  | some (cls, opc, o) => some (encodeOp cls opc o)
  | none => none

/-- The bytes of an instruction: a pilot word, or an element slot under the guard word (R72, R78). -/
def encode (guard : BitVec 16) (i : Instr) : Option (List Byte) :=
  match encodePilot i, encodeOpWord i with
  | some w, _ => some (leBytes 4 w)
  | none, some w => some (leBytes 2 guard.toNat ++ leBytes 4 w)
  | none, none => none

end Sys2Proof
end

