-- ==== Sys2Proof/Config.lean ====
section
/-!
DEFINITION. What one device fixes and what the spec leaves open: constants without a body, so that nothing
can be proved of the value of one. Sources: R67 (spec/02_numbers.md), R418, R428, R432 (spec/16_cipher.md),
R466, R489 (spec/18_voxkan.md). Log entries 2, 7, 8, 9 and 10.
-/
namespace Sys2Proof.Config

/-- The special functions whose bound admits more than one result (R67). -/
inductive SpecialFn where
  | exp2 | log2 | rcp | rsq | sinpi | cospi
  deriving DecidableEq, Repr

/-- Which of the results that R67 permits the device returns, for one function, input and rounding mode:
the model reduces the number modulo the count of permitted results. One fixed result for each input and mode
(R67); which one is not specified (log 7). -/
opaque specialPick : SpecialFn → Word → Nat → Nat

/-- The word of the step's turn when the agenda is empty (log 1). -/
opaque freeNat : Nat → Nat

/-- The key by which a slack step chooses among the 30 cycles of its pattern (R458: which pattern is not given, log 2). -/
opaque slackKey : Nat → Nat → Nat

/-- A free word for the `k`-th value the spec leaves open (log 2). -/
opaque freeWord : Nat → DWord

/-- A free 256-bit value for the `k`-th draw: random keys (R418), undefined data (log 2). -/
opaque freeKey : Nat → BitVec 256

/-- One AES-256 block under a 256-bit key (R427; the standard's own function, log 10). -/
opaque aes256 : BitVec 256 → BitVec 128 → BitVec 128

/-- GHASH of a list of 128-bit blocks under a hash subkey (R427, log 10). -/
opaque ghash : BitVec 128 → List (BitVec 128) → BitVec 128

/-- SHA-512 of a byte string (R476, R489; log 10). -/
opaque sha512 : List Byte → BitVec 512

/-- An RSA-4096 signature of a digest by the device's key number (R467, R476; log 10). -/
opaque rsaSign : Nat → BitVec 512 → List Byte

/-- Whether an RSA-4096 signature verifies under the maker's key (R466; log 10). -/
opaque rsaVerify : List Byte → BitVec 512 → Bool

end Sys2Proof.Config
end

