-- ==== Sys2Proof/Machine/Num.lean ====
section
/-!
DEFINITION. Number formats and arithmetic rules: exact values, decoding, rounding, encoding, the flags
(R41 to R69, spec/02_numbers.md).
-/
namespace Sys2Proof.Machine
open Sys2Proof

/-- A floating-point format of R44. -/
inductive Fmt where
  | f32 | bf16 | f16 | e5m2 | e4m3 | e3m2 | e2m3 | e2m1
  deriving DecidableEq, Repr

/-- Exponent bits of a format (R44). -/
def Fmt.ebits : Fmt → Nat
  | .f32 => 8 | .bf16 => 8 | .f16 => 5 | .e5m2 => 5 | .e4m3 => 4 | .e3m2 => 3 | .e2m3 => 2 | .e2m1 => 2

/-- Mantissa bits of a format (R44). -/
def Fmt.mbits : Fmt → Nat
  | .f32 => 23 | .bf16 => 7 | .f16 => 10 | .e5m2 => 2 | .e4m3 => 3 | .e3m2 => 2 | .e2m3 => 3 | .e2m1 => 1

/-- The bias of a format (R44). -/
def Fmt.bias : Fmt → Int
  | .f32 => 127 | .bf16 => 127 | .f16 => 15 | .e5m2 => 15 | .e4m3 => 7 | .e3m2 => 3 | .e2m3 => 1 | .e2m1 => 1

/-- The width of a format in bits. -/
def Fmt.width (f : Fmt) : Nat := 1 + f.ebits + f.mbits

/-- Whether a format has infinity and the special exponent of IEEE 754 (R44). -/
def Fmt.hasInf : Fmt → Bool
  | .f32 | .bf16 | .f16 | .e5m2 => true
  | _ => false

/-- Whether a format has a NaN (R44). -/
def Fmt.hasNaN : Fmt → Bool
  | .f32 | .bf16 | .f16 | .e5m2 | .e4m3 => true
  | _ => false

/-- The canonical NaN of a format that has one (R44); `+0` in the others (R56). -/
def Fmt.canonicalNaN : Fmt → Nat
  | .f32 => 0x7FC00000 | .bf16 => 0x7FC0 | .f16 => 0x7E00 | .e5m2 => 0x7E | .e4m3 => 0x7F
  | _ => 0

/-- The bits of the largest finite value of a format (R44). -/
def Fmt.maxFinite : Fmt → Nat
  | .f32 => 0x7F7FFFFF | .bf16 => 0x7F7F | .f16 => 0x7BFF | .e5m2 => 0x7B | .e4m3 => 0x7E
  | .e3m2 => 0x1F | .e2m3 => 0x1F | .e2m1 => 0x7

/-- The exact values of `decode` (R69): `(-1)^neg · m · 2^e`, an infinity, or NaN with its signalling state. -/
inductive Val where
  | fin (neg : Bool) (m : Nat) (e : Int)
  | inf (neg : Bool)
  | nan (sig : Bool)
  deriving DecidableEq, Repr

/-- The sign of a value; NaN has none. -/
def Val.neg : Val → Bool
  | .fin n _ _ => n
  | .inf n => n
  | .nan _ => false

/-- Whether a value is a NaN. -/
def Val.isNaN : Val → Bool
  | .nan _ => true
  | _ => false

/-- Whether a value is a signalling NaN. -/
def Val.isSNaN : Val → Bool
  | .nan s => s
  | _ => false

/-- Whether a value is an infinity. -/
def Val.isInf : Val → Bool
  | .inf _ => true
  | _ => false

/-- Whether a value is a zero of either sign. -/
def Val.isZero : Val → Bool
  | .fin _ m _ => m == 0
  | _ => false

/-- The value with its sign turned. -/
def Val.negate : Val → Val
  | .fin n m e => .fin (!n) m e
  | .inf n => .inf (!n)
  | v => v

/-- `m · 2^e` scaled so that the exponent is `d` (for `d ≤ e`). -/
def alignTo (m : Nat) (e d : Int) : Nat := m * 2 ^ (e - d).toNat

/-- The signed mantissa of a finite value at exponent `d`; 0 for the others. -/
def Val.at (v : Val) (d : Int) : Int :=
  match v with
  | .fin n m e => if n then - (alignTo m e d : Int) else (alignTo m e d : Int)
  | _ => 0

/-- The exponent of a finite value. -/
def Val.exp : Val → Int
  | .fin _ _ e => e
  | _ => 0

/-- The exact integer `n` scaled by `2^e`; zero is positive. -/
def Val.ofInt (n : Int) (e : Int) : Val := .fin (n < 0) n.natAbs e

/-- Exact comparison of two values that are not NaN: `-1`, `0` or `1`. -/
def Val.cmp (a b : Val) : Int :=
  let rank : Val → Int := fun v => match v with | .inf true => -1 | .inf false => 1 | _ => 0
  if a.isInf || b.isInf then
    if rank a < rank b then -1 else if rank a = rank b then 0 else 1
  else
    let d := min a.exp b.exp
    if a.at d < b.at d then -1 else if a.at d = b.at d then 0 else 1

/-- `decode(bits, fmt)` of R69 for the formats of R44 and the NaN rule of R45. -/
def decodeF (f : Fmt) (w : Nat) : Val :=
  let n := bit w (f.ebits + f.mbits)
  let e := bits w f.mbits f.ebits
  let m := bits w 0 f.mbits
  if f.hasInf && e == 2 ^ f.ebits - 1 then
    if m == 0 then .inf n else .nan (! bit m (f.mbits - 1))
  else if f == .e4m3 && e == 15 && m == 7 then .nan false
  else if e == 0 then .fin n m (1 - f.bias - f.mbits)
  else .fin n (m + 2 ^ f.mbits) ((e : Int) - f.bias - f.mbits)

/-- Rounding modes (R52); `given u` is the stochastic mode with its 24 bits supplied (R259). -/
inductive RMode where
  | rne | rz | ru | rd | sr
  | given (u : Nat)
  deriving DecidableEq, Repr

/-- The rounding mode of a three-bit field (R52); 5 to 7 are illegal and never reach a firing. -/
def RMode.ofCode (c : Nat) : RMode :=
  match c with
  | 0 => .rne | 1 => .rz | 2 => .ru | 3 => .rd | _ => .sr

/-- The overflow rule of `encode` (R69). -/
inductive Ov where
  | sat | ovf | ieee
  deriving DecidableEq, Repr

/-- The flags register and the stochastic generator of a context, which the helpers of R69 change. -/
structure FEnv where
  aflags : BitVec 32
  srstate : BitVec 32
  deriving DecidableEq, Repr

/-- Flag positions of AFLAGS (R58). -/
def flagINV : Nat := 0
/-- Division by zero (R58). -/
def flagDBZ : Nat := 1
/-- Overflow (R58). -/
def flagOFL : Nat := 2
/-- Underflow (R58, R59). -/
def flagUFL : Nat := 3
/-- Inexact (R58). -/
def flagINX : Nat := 4
/-- Accumulator overflow (R58). -/
def flagAOVF : Nat := 5
/-- Integer saturation (R58). -/
def flagISAT : Nat := 6
/-- Poisoned operand consumed (R58). -/
def flagPSN : Nat := 7

/-- Setting a sticky flag. -/
def FEnv.raise (v : FEnv) (k : Nat) : FEnv := { v with aflags := v.aflags ||| BitVec.ofNat 32 (2 ^ k) }

/-- Setting a sticky flag under a condition. -/
def FEnv.raiseIf (v : FEnv) (c : Bool) (k : Nat) : FEnv := if c then v.raise k else v

/-- `srnext` of R53: the next generator state. -/
def srStep (s : BitVec 32) : BitVec 32 :=
  let s := s ^^^ (s <<< 13)
  let s := s ^^^ (s >>> 17)
  s ^^^ (s <<< 5)

/-- The seed of a context's generator (R53). -/
def srSeed (seed : BitVec 32) (e c : Nat) : BitVec 32 :=
  let s := seed ^^^ BitVec.ofNat 32 (0x9E3779B9 * (4 * e + c))
  if s = 0 then 0x9E3779B9 else s

/-- Number of bits of `n`: 0 for 0, otherwise the place of the highest set bit plus one. -/
def bitLen (n : Nat) : Nat := if n = 0 then 0 else Nat.log2 n + 1

/-- The quantum exponent of a format at a magnitude `m · 2^e` (R54: in the subnormal range the smallest
subnormal). -/
def quantum (f : Fmt) (m : Nat) (e : Int) : Int :=
  max (e + bitLen m - 1 - f.mbits) (1 - f.bias - f.mbits)

/-- The rounded magnitude of `m · 2^e` in units of `2^q`: the truncation, whether it moved one step away from
zero, and whether the value was inexact (R52, R54). `u` is the 24-bit word of stochastic rounding. -/
def roundMag (neg : Bool) (m : Nat) (e q : Int) (mode : RMode) (u : Nat) : Nat × Bool × Bool :=
  if q ≤ e then (alignTo m e q, false, false)
  else
    let d := 2 ^ (q - e).toNat
    let t := m / d
    let r := m % d
    let up : Bool := match mode with
      | .rne => 2 * r > d || (2 * r == d && t % 2 == 1)
      | .rz => false
      | .ru => r != 0 && !neg
      | .rd => r != 0 && neg
      | .sr | .given _ => r * 2 ^ 24 / d + u ≥ 2 ^ 24
    (if up then t + 1 else t, up, r != 0)

/-- The 24-bit word of the mode, and the environment after the generator's step (R54, R259). -/
def roundWord (mode : RMode) (v : FEnv) : Nat × FEnv :=
  match mode with
  | .sr => let s := srStep v.srstate; (s.toNat / 256, { v with srstate := s })
  | .given u => (u, v)
  | _ => (0, v)

/-- The bits of a magnitude `n · 2^q` that is representable and in range, where `q` is the quantum of the
magnitude or the magnitude is at most one step above it. -/
def packMag (f : Fmt) (neg : Bool) (n : Nat) (q : Int) : Nat :=
  let q0 := 1 - f.bias - f.mbits
  let s := if neg then 2 ^ (f.ebits + f.mbits) else 0
  s + n + (q - q0).toNat * 2 ^ f.mbits

/-- The magnitude bits of infinity in a format that has it. -/
def Fmt.infBits (f : Fmt) : Nat := (2 ^ f.ebits - 1) * 2 ^ f.mbits

/-- The sign bit of a format, as a number. -/
def Fmt.signBit (f : Fmt) (neg : Bool) : Nat := if neg then 2 ^ (f.ebits + f.mbits) else 0

/-- `encode(x, fmt, mode, ov, ctx)` of R69: the bits, and the environment after the flags and the generator's
step. -/
def encodeF (f : Fmt) (x : Val) (mode : RMode) (ov : Ov) (env : FEnv) : Nat × FEnv :=
  let (u, env) := roundWord mode env
  let ov := if f = .f32 then .ieee else ov
  match x with
  | .nan s =>
    (f.canonicalNaN, (env.raiseIf s flagINV).raiseIf (!f.hasNaN) flagINV)
  | .inf n =>
    let sgn := f.signBit n
    if ov = .ieee then (sgn + f.infBits, env)
    else if ov = .ovf && f.hasInf then (sgn + f.infBits, env)
    else
      let env := env.raise flagOFL
      if ov = .ovf && f.hasNaN then (f.canonicalNaN, env) else (sgn + f.maxFinite, env)
  | .fin n m e =>
    let sgn := f.signBit n
    if m = 0 then (sgn, env) else
    let q := quantum f m e
    let (k, up, inx) := roundMag n m e q mode u
    let env := env.raiseIf inx flagINX
    let w := packMag f false k q
    if w > f.maxFinite then
      let env := (env.raise flagOFL).raise flagINX
      match ov with
      | .ieee =>
        let toInf : Bool := match mode with
          | .rne => true
          | .rz => false
          | .ru => !n
          | .rd => n
          | .sr | .given _ => up
        (sgn + (if toInf then f.infBits else f.maxFinite), env)
      | .ovf =>
        if f.hasInf then (sgn + f.infBits, env)
        else if f.hasNaN then (f.canonicalNaN, env)
        else (sgn + f.maxFinite, env)
      | .sat => (sgn + f.maxFinite, env)
    else
      (sgn + w, env.raiseIf (k != 0 && w < 2 ^ f.mbits && inx) flagUFL)

/-- An integer saturated to a width (R43), with the flag of R58. -/
def satI (n : Int) (w : Nat) (sgn : Bool) (env : FEnv) : Nat × FEnv :=
  let lo : Int := if sgn then - (2 ^ (w - 1) : Nat) else 0
  let hi : Int := if sgn then (2 ^ (w - 1) : Nat) - 1 else (2 ^ w : Nat) - 1
  if n < lo then (wrap lo w, env.raise flagISAT)
  else if n > hi then (wrap hi w, env.raise flagISAT)
  else (wrap n w, env)

/-- An exact value rounded to an integer in a mode, with whether it changed (R57). -/
def roundInt (neg : Bool) (m : Nat) (e : Int) (mode : RMode) (u : Nat) : Int × Bool :=
  let (k, _, inx) := roundMag neg m e 0 mode u
  (if neg then - (k : Int) else (k : Int), inx)

/-- Conversion of a floating-point value to an integer format (R57). -/
def toInteger (x : Val) (w : Nat) (sgn : Bool) (mode : RMode) (env : FEnv) : Nat × FEnv :=
  let (u, env) := roundWord mode env
  match x with
  | .nan _ => (0, env.raise flagINV)
  | .inf n =>
    let lim : Int := if n then (if sgn then - (2 ^ (w - 1) : Nat) else 0)
      else if sgn then (2 ^ (w - 1) : Nat) - 1 else (2 ^ w : Nat) - 1
    (wrap lim w, env.raise flagINV)
  | .fin n m e =>
    let (k, inx) := roundInt n m e mode u
    satI k w sgn (env.raiseIf inx flagINX)

/-- Exact product of two values, with the IEEE 754 special cases; the flag says an invalid operation. -/
def mulVal (a b : Val) : Val × Bool :=
  match a, b with
  | .nan s, .nan t => (.nan false, s || t)
  | .nan s, _ => (.nan false, s)
  | _, .nan t => (.nan false, t)
  | .inf n, .inf k => (.inf (n != k), false)
  | .inf n, .fin k m _ => if m = 0 then (.nan false, true) else (.inf (n != k), false)
  | .fin k m _, .inf n => if m = 0 then (.nan false, true) else (.inf (n != k), false)
  | .fin n m e, .fin k l d => (.fin (n != k) (m * l) (e + d), false)

/-- Exact sum of two values with the zero-sign rule of IEEE 754 for the mode: an exact zero sum of operands of
opposite sign is `+0`, and `-0` toward `-∞`. -/
def addVal (a b : Val) (mode : RMode) : Val × Bool :=
  match a, b with
  | .nan s, .nan t => (.nan false, s || t)
  | .nan s, _ => (.nan false, s)
  | _, .nan t => (.nan false, t)
  | .inf n, .inf k => if n = k then (.inf n, false) else (.nan false, true)
  | .inf n, _ => (.inf n, false)
  | _, .inf k => (.inf k, false)
  | .fin n m e, .fin k l d =>
    let x := min e d
    let r := Val.at (.fin n m e) x + Val.at (.fin k l d) x
    if r = 0 then
      if m = 0 && l = 0 && n = k then (.fin n 0 0, false)
      else (.fin (mode == .rd) 0 0, false)
    else (Val.ofInt r x, false)

/-- The exact sum of terms, each with its invalid mark (R60, R61): one sum, whatever the order of the terms. It is invalid where
a term is, and where infinities of both signs meet (log 34); an exact total of zero is `+0` (R298). -/
def treeSum (l : List (Val × Bool)) : Val × Bool :=
  let up := l.any (fun t => t.1 == .inf false)
  let down := l.any (fun t => t.1 == .inf true)
  let inv := l.any (fun t => t.2) || (up && down)
  if l.any (fun t => t.1.isNaN) || (up && down) then (.nan false, inv)
  else if up then (.inf false, inv)
  else if down then (.inf true, inv)
  else
    let v := l.foldl (fun v (t : Val × Bool) => (addVal v t.1 .rne).1) (.fin false 0 0)
    (if v.isZero then .fin false 0 0 else v, inv)

/-- An arithmetic result encoded with its invalid flag (R45, R47). -/
def arith (f : Fmt) (r : Val × Bool) (mode : RMode) (env : FEnv) : Nat × FEnv :=
  encodeF f r.1 mode .ieee (env.raiseIf r.2 flagINV)

/-- Correctly rounded addition (R67). -/
def faddF (f : Fmt) (a b : Nat) (mode : RMode) (env : FEnv) : Nat × FEnv :=
  arith f (addVal (decodeF f a) (decodeF f b) mode) mode env

/-- Correctly rounded multiplication (R67). -/
def fmulF (f : Fmt) (a b : Nat) (mode : RMode) (env : FEnv) : Nat × FEnv :=
  arith f (mulVal (decodeF f a) (decodeF f b)) mode env

/-- Fused multiply-add of three values: the exact `a × b + c` rounded once (R67). -/
def fmaVal (a b c : Val) (mode : RMode) : Val × Bool :=
  let p := mulVal a b
  let s := addVal p.1 c mode
  (s.1, p.2 || s.2)

/-- Integer square root by bits: the largest `r` with `r * r ≤ n`, searched below `2^k`. -/
def isqrtGo (n : Nat) : Nat → Nat → Nat
  | 0, r => r
  | k + 1, r => if (r + 2 ^ k) * (r + 2 ^ k) ≤ n then isqrtGo n k (r + 2 ^ k) else isqrtGo n k r

/-- Integer square root. -/
def isqrt (n : Nat) : Nat := isqrtGo n (bitLen n / 2 + 1) 0

/-- The square root of a finite positive value to more than 70 bits, with a last bit that is set when bits were
lost: enough for every correct rounding and for the 24 fraction bits of R54. -/
def sqrtSticky (m : Nat) (e : Int) : Nat × Int :=
  let s : Nat := 160 + (if e % 2 = 0 then 0 else 1)
  let n := m * 2 ^ s
  let r := isqrt n
  (2 * r + b2n (r * r != n), (e - s) / 2 - 1)

/-- `SQRT` of an FP32 value: correctly rounded (R67). -/
def sqrtF (x : Val) (mode : RMode) (env : FEnv) : Nat × FEnv :=
  match x with
  | .nan s => arith .f32 (.nan false, s) mode env
  | .inf n => if n then arith .f32 (.nan false, true) mode env else arith .f32 (.inf false, false) mode env
  | .fin n m e =>
    if m = 0 then arith .f32 (x, false) mode env
    else if n then arith .f32 (.nan false, true) mode env
    else
      let r := sqrtSticky m e
      arith .f32 (.fin false r.1 r.2, false) mode env

/-! ### Special functions: the permitted results of R67 -/

/-- The fixed-point precision of the comparisons below, in bits. -/
def fxBits : Nat := 320

/-- The product of two fixed-point numbers. -/
def fxMul (a b : Nat) : Nat := a * b / 2 ^ fxBits

/-- The square root of a fixed-point number. -/
def fxSqrt (a : Nat) : Nat := isqrt (a * 2 ^ fxBits)

/-- `2^f` for the fixed-point fraction whose bits below place `k` are those of `f`: the root `r` is `2^(2^-j)`
for the bit in hand. -/
def pow2Frac (f : Nat) : Nat → Nat → Nat → Nat
  | 0, _, acc => acc
  | k + 1, r, acc =>
    let r := fxSqrt r
    pow2Frac f k r (if bit f k then fxMul acc r else acc)

/-- The order of `2^y` and the positive magnitude `m · 2^e`: `2^y ≥ m · 2^e`. For an integer `y` the test is
exact; for other values `2^y` is irrational and the fixed-point value decides. -/
def pow2Ge (y : Val) (m : Nat) (e : Int) : Bool :=
  let d := y.exp
  let n := y.at d
  let den : Int := (2 ^ (-d).toNat : Nat)
  let num : Int := if d ≥ 0 then n * (2 ^ d.toNat : Nat) else n
  let i := num / den
  let fr := (num % den).toNat
  -- 2^i · 2^(fr/den) against m · 2^e
  let f := fr * 2 ^ fxBits / den.toNat
  let p := if fr = 0 then 2 ^ fxBits else pow2Frac f fxBits (2 * 2 ^ fxBits) (2 ^ fxBits)
  let x : Int := i - fxBits - e
  if x ≥ 0 then p * 2 ^ x.toNat ≥ m else p ≥ m * 2 ^ (-x).toNat

/-- Cosine and sine of `π · 2^-(k)` stepped by halving, and the product of the rotations of the bits of `f`. -/
def rotFrac (f : Nat) : Nat → Nat × Nat → Nat × Nat → Nat × Nat
  | 0, _, acc => acc
  | k + 1, (c, s), (ca, sa) =>
    let c' := fxSqrt ((2 ^ fxBits + c) / 2)
    let s' := s * 2 ^ fxBits / (2 * c')
    let acc := if bit f k then (fxMul ca c' - fxMul sa s', fxMul sa c' + fxMul ca s') else (ca, sa)
    rotFrac f k (c', s') acc

/-- Cosine and sine of `π · t` in fixed point, for a fixed-point `t` below one half. -/
def cosSinPi (t : Nat) : Nat × Nat :=
  -- the first rotation in hand is by π/2 = π · 2^-1; the bits of t below place fxBits - 1 are turned one by one
  rotFrac t (fxBits - 1) (0, 2 ^ fxBits) (2 ^ fxBits, 0)

/-- `sin(π x)` of a finite value: sign, and magnitude in fixed point; zero is exact. -/
def sinPiVal (x : Val) (quarter : Int) : Bool × Nat :=
  -- turn x into a fixed-point angle modulo 2, with `quarter` half-turns of a half added
  let d := x.exp
  let n := x.at d
  let a : Int := if d + fxBits ≥ 0 then n * (2 ^ (d + fxBits).toNat : Nat) else n / (2 ^ (-(d + fxBits)).toNat : Nat)
  let a := (a + quarter * (2 ^ (fxBits - 1) : Nat)) % (2 ^ (fxBits + 1) : Nat)
  let a := a.toNat
  let neg := a ≥ 2 ^ fxBits
  let b := a % 2 ^ fxBits
  -- b in [0, 1): reflect into [0, 1/2]
  let b := if b > 2 ^ (fxBits - 1) then 2 ^ fxBits - b else b
  if b = 2 ^ (fxBits - 1) then (neg, 2 ^ fxBits) else (neg, (cosSinPi b).2)

/-- FP32 words ordered by value: the position of a word on the number line, `-∞` lowest (zeros share 0). -/
def ord32 (w : Nat) : Int := if bit w 31 then - (bits w 0 31 : Int) else (w : Int)

/-- The FP32 word at a position; position 0 is `+0`. -/
def ofOrd32 (i : Int) : Nat := if i < 0 then 2 ^ 31 + i.natAbs else i.toNat

/-- The greatest position, from `lo` up over `k` bits, at which the test still holds (the test is monotone). -/
def searchUp (test : Int → Bool) : Nat → Int → Int
  | 0, lo => lo
  | k + 1, lo => if test (lo + (2 ^ k : Nat)) then searchUp test k (lo + (2 ^ k : Nat)) else searchUp test k lo

/-- The lower bracket: the greatest FP32 position whose value is at most the exact result, where `below v` says
that the value `v` is at most the exact result. -/
def lowerBracket (below : Val → Bool) : Int :=
  searchUp (fun i => if i > 0x7F7FFFFF then false else if i < -0x7F7FFFFF then true
    else below (decodeF .f32 (ofOrd32 i))) 32 (- 0x80000000)

/-- One of `n` permitted positions from `lo` up, as the device fixes it (R67, log 7). -/
def pick (fn : Config.SpecialFn) (x : Word) (mode : Nat) (lo : Int) (n : Nat) : Int :=
  lo + (Config.specialPick fn x mode % n : Nat)

/-- A value's magnitude test `v ≤ exact`, where `mag` answers for positive `v` and the exact result is
positive. -/
def belowPos (mag : Nat → Int → Bool) (v : Val) : Bool :=
  match v with
  | .fin n m e => n || m == 0 || mag m e
  | _ => v.neg

/-- The faithful result of a function whose exact result is finite and positive: the lower bracket when it is
exact, otherwise one of the two brackets. `ge m e` says that the exact result is at least `m · 2^e`, `eq` that it
equals it. -/
def faithfulPos (fn : Config.SpecialFn) (x : Word) (mode : Nat) (ge eq : Nat → Int → Bool) : Nat × Bool :=
  let lo := lowerBracket (belowPos ge)
  let exact : Bool := match decodeF .f32 (ofOrd32 lo) with
    | .fin _ m e => m != 0 && eq m e
    | _ => false
  if exact then (ofOrd32 lo, false) else (ofOrd32 (pick fn x mode lo 2), true)

/-- Flags and bits of a special-function result that was picked: INX when inexact, UFL below the smallest
normal, OFL when infinite (R58, R59, R67). -/
def specialFlags (w : Nat) (inx : Bool) (env : FEnv) : Nat × FEnv :=
  let mag := bits w 0 31
  (w, ((env.raiseIf inx flagINX).raiseIf (inx && mag != 0 && mag < 2 ^ 23) flagUFL).raiseIf
    (inx && mag == 0x7F800000) flagOFL)

/-- Whether the magnitude `m · 2^e` is a power of two, and its exponent. -/
def pow2Exp (m : Nat) (e : Int) : Option Int :=
  if m ≠ 0 ∧ 2 ^ Nat.log2 m = m then some (e + Nat.log2 m) else none

/-- `EXP2` of a decoded FP32 operand (R67, R260). -/
def exp2F (x : Word) (mode : Nat) (env : FEnv) : Nat × FEnv :=
  match decodeF .f32 x.toNat with
  | .nan s => (Fmt.f32.canonicalNaN, env.raiseIf s flagINV)
  | .inf n => (if n then 0 else 0x7F800000, env)
  | v =>
    if Val.cmp v (.fin false 128 0) ≥ 0 then (0x7F800000, (env.raise flagOFL).raise flagINX)
    else if Val.cmp v (.fin true 150 0) < 0 then (0, (env.raise flagINX).raise flagUFL)
    else
      let r := faithfulPos .exp2 x mode (pow2Ge v) (fun m e => match pow2Exp m e with
        | some k => Val.cmp v (Val.ofInt k 0) == 0
        | none => false)
      specialFlags r.1 r.2 env

/-- `LOG2` of a decoded FP32 operand (R67, R260). -/
def log2F (x : Word) (mode : Nat) (env : FEnv) : Nat × FEnv :=
  match decodeF .f32 x.toNat with
  | .nan s => (Fmt.f32.canonicalNaN, env.raiseIf s flagINV)
  | .inf n => if n then (Fmt.f32.canonicalNaN, env.raise flagINV) else (0x7F800000, env)
  | .fin n m e =>
    if m = 0 then (0xFF800000, env.raise flagDBZ)
    else if n then (Fmt.f32.canonicalNaN, env.raise flagINV)
    else match pow2Exp m e with
      | some k => (encodeF .f32 (Val.ofInt k 0) .rne .ieee env)
      | none =>
        -- v ≤ log2(x) exactly when not (2^v ≥ x), and 2^v = x never holds here
        let lo := lowerBracket (fun v =>
          if Val.cmp v (.fin true 150 0) < 0 then true else if Val.cmp v (.fin false 128 0) > 0 then false else ! pow2Ge v m e)
        specialFlags (ofOrd32 (pick .log2 x mode lo 2)) true env

/-- `m · 2^e ≤ 1` for a magnitude. -/
def leOne (m : Nat) (e : Int) : Bool := if e ≥ 0 then m * 2 ^ e.toNat ≤ 1 else m ≤ 2 ^ (-e).toNat

/-- `RCP` of a decoded FP32 operand (R67, R260). -/
def rcpF (x : Word) (mode : Nat) (env : FEnv) : Nat × FEnv :=
  match decodeF .f32 x.toNat with
  | .nan s => (Fmt.f32.canonicalNaN, env.raiseIf s flagINV)
  | .inf n => (Fmt.f32.signBit n, env)
  | .fin n m e =>
    if m = 0 then (Fmt.f32.signBit n + 0x7F800000, env.raise flagDBZ)
    else if Val.cmp (.fin false m e) (.fin false 1 (-128)) ≤ 0 then
      (Fmt.f32.signBit n + 0x7F800000, (env.raise flagOFL).raise flagINX)
    else
      let r := faithfulPos .rcp x mode (fun a d => leOne (a * m) (d + e))
        (fun a d => leOne (a * m) (d + e) && pow2Exp (a * m) (d + e) == some 0)
      let q := specialFlags r.1 r.2 env
      (Fmt.f32.signBit n + q.1, q.2)

/-- `RSQ` of a decoded FP32 operand (R67, R260). -/
def rsqF (x : Word) (mode : Nat) (env : FEnv) : Nat × FEnv :=
  match decodeF .f32 x.toNat with
  | .nan s => (Fmt.f32.canonicalNaN, env.raiseIf s flagINV)
  | .inf n => if n then (Fmt.f32.canonicalNaN, env.raise flagINV) else (0, env)
  | .fin n m e =>
    if m = 0 then (Fmt.f32.signBit n + 0x7F800000, env.raise flagDBZ)
    else if n then (Fmt.f32.canonicalNaN, env.raise flagINV)
    else
      let r := faithfulPos .rsq x mode (fun a d => leOne (a * a * m) (d + d + e))
        (fun a d => pow2Exp (a * a * m) (d + d + e) == some 0)
      specialFlags r.1 r.2 env

/-- The positions that lie within 2 ulp of an inexact result whose lower bracket is `lo`, an ulp being the spacing at the
position itself (R67): the two brackets and one on either side, the lower of which is too far off below a power of two where
the result lies in the upper half of its gap. The first of them, and how many. -/
def nearby (lo : Int) (belowMid : Bool) : Int × Nat :=
  if lo ≥ 2 ^ 24 && lo % 2 ^ 23 = 0 && !belowMid then (lo, 3) else (lo - 1, 4)

/-- `SINPI` (`quarter` 0) and `COSPI` (`quarter` 1): exactly 0 and ±1 at integer and half-integer arguments,
otherwise one of the FP32 values within 2 ulp (R67, R261). -/
def sinCosF (fn : Config.SpecialFn) (x : Word) (mode : Nat) (env : FEnv) : Nat × FEnv :=
  match decodeF .f32 x.toNat with
  | .nan s => (Fmt.f32.canonicalNaN, env.raiseIf s flagINV)
  | .inf _ => (Fmt.f32.canonicalNaN, env.raise flagINV)
  | v =>
    let quarter : Int := if fn = .cospi then 1 else 0
    let r := sinPiVal v quarter
    if r.2 = 0 then (Fmt.f32.signBit (fn = .sinpi && v.neg), env)
    else if r.2 = 2 ^ fxBits then (Fmt.f32.signBit r.1 + 0x3F800000, env)
    else
      let atMost : Nat → Int → Bool := fun m e =>
        let d := e + fxBits
        if d ≥ 0 then m * 2 ^ d.toNat ≤ r.2 else m ≤ r.2 * 2 ^ (-d).toNat
      let lo := lowerBracket (belowPos atMost)
      let mid := match decodeF .f32 (ofOrd32 lo) with
        | .fin _ m e => atMost (2 * m + 1) (e - 1)
        | _ => false
      let c := nearby lo (!mid)
      let w := ofOrd32 (pick fn x mode c.1 c.2)
      let q := specialFlags w true env
      (Nat.xor (Fmt.f32.signBit r.1) q.1, q.2)

/-! ### Integer helpers of the format table -/

/-- An exponent clamped to a range (R268, R305). -/
def clampExp (x : Int) (lo hi : Int) : Int := max lo (min hi x)

/-- A value times a power of two. -/
def Val.scale (v : Val) (q : Int) : Val :=
  match v with
  | .fin n m e => .fin n m (e + q)
  | v => v

/-- The exact value of an E8M0 scale (R48). -/
def decodeE8M0 (x : Nat) : Val := if x = 255 then .nan false else .fin false 1 ((x : Int) - 127)

/-- `floor(log2 |v|)` of a non-zero finite magnitude. -/
def floorLog2 (m : Nat) (e : Int) : Int := e + bitLen m - 1

end Sys2Proof.Machine
end

