-- ==== Sys2Proof/Machine/Tables.lean ====
section
/-!
DEFINITION. Sparse tables and total access to fixed arrays: the containers of the state.
-/
namespace Sys2Proof.Machine
open Sys2Proof

/-- A sparse table: a list of number and record pairs. An absent key reads as the default given at the read. -/
abbrev Tbl (α : Type) := List (Nat × α)

/-- The entry at a key, or the default. -/
def tget {α : Type} (t : Tbl α) (k : Nat) (d : α) : α :=
  match t with
  | [] => d
  | (j, a) :: r => if j = k then a else tget r k d

/-- The entry at a key, if present. -/
def tfind {α : Type} (t : Tbl α) (k : Nat) : Option α :=
  match t with
  | [] => none
  | (j, a) :: r => if j = k then some a else tfind r k

/-- Setting the entry at a key in its place, or at the end. -/
def tset {α : Type} (t : Tbl α) (k : Nat) (a : α) : Tbl α :=
  match t with
  | [] => [(k, a)]
  | (j, b) :: r => if j = k then (k, a) :: r else (j, b) :: tset r k a

/-- Removing every entry at a key. -/
def tdel {α : Type} (t : Tbl α) (k : Nat) : Tbl α := t.filter (fun e => e.1 != k)

/-- Entry `i` of a fixed array; the default outside it. -/
def vg {α : Type} {n : Nat} (v : Vector α n) (i : Nat) (d : α) : α := v[i]?.getD d

/-- The fixed array with entry `i` replaced; unchanged outside it. -/
def vs {α : Type} {n : Nat} (v : Vector α n) (i : Nat) (a : α) : Vector α n := v.setIfInBounds i a

/-- Entry `i` of a list; the default outside it. -/
def lget {α : Type} (l : List α) (i : Nat) (d : α) : α := l[i]?.getD d

/-- A list with entry `i` changed by a function. -/
def lmod {α : Type} (l : List α) (i : Nat) (f : α → α) : List α := l.modify i f

/-- A list without its entry `i`. -/
def ldel {α : Type} (l : List α) (i : Nat) : List α := l.eraseIdx i

end Sys2Proof.Machine
end

