-- ==== Sys2Proof/Machine/TypesElem.lean ====
section
/-!
DEFINITION. State of tokens, elements and routers (spec/01_organisation.md, spec/07_switch.md, spec/08_trigger.md,
spec/11_bricks.md).
-/
namespace Sys2Proof.Machine
open Sys2Proof

/-- A data token: payload and 13-bit sideband (R26). `kind` is the raw field: 0 data, 1 null, 2 mark, 3 reserved.
`src` is the model's own: the path that sent it (0 none, else 1 + ((element · 2 + bank) · 4 + context) · 4 + output, plus
2^24 times the number of the request that it carries), by which a refusal names its sender (R237) and R217 knows a
context's outstanding requests. -/
structure Token where
  payload : Payload
  kind : BitVec 2
  round : BitVec 8
  tag : BitVec 2
  poison : Bool
  src : Nat
  deriving DecidableEq, Repr

/-- A vector register: payload, null bit, poison bit (R206, R207). -/
structure VReg where
  val : Payload
  null : Bool
  poison : Bool
  deriving DecidableEq, Repr

/-- One lane of an accumulator: `A` and its four sticky bits (R62, R289). -/
structure LaneAcc where
  a : BitVec 64
  ai : Bool
  ao : Bool
  av : Bool
  ap : Bool
  deriving DecidableEq, Repr

/-- An accumulator: mode (F32 or W64), fraction length, eight lanes (R289). -/
structure Acc where
  f32 : Bool
  frac : BitVec 6
  lanes : Vector LaneAcc 8
  deriving DecidableEq, Repr

/-- A weight tile: eight rows, a valid bit and a poison bit per row, row pointer (R289, R300). -/
structure Tile where
  rows : Vector Payload 8
  valid : BitVec 8
  poison : BitVec 8
  ptr : BitVec 3
  deriving DecidableEq, Repr

/-- A permutation matrix: 32 entries of 8 bits and a poison bit (R289). -/
structure Perm where
  ent : Vector (BitVec 8) 32
  poison : Bool
  deriving DecidableEq, Repr

/-- Repeat state: slot, remaining count, lane mask (R206, R226). -/
structure Repeat where
  slot : BitVec 5
  count : BitVec 8
  lanes : BitVec 8
  deriving DecidableEq, Repr

/-- What an outstanding result will complete into (R210, R245, R297). -/
inductive Dest where
  | vreg (n : Nat)
  | pred (n : Nat)
  | acc (n : Nat)
  | out (n : Nat)
  | tile (n : Nat)
  | perm (n : Nat)
  | gate
  | none
  deriving DecidableEq, Repr

/-- What a brick firing does to the accumulators of its context, as data (R294, R295): a step of lanes by their totals, the
emission of an `MMA` into the reserved output entry `key`, `ACCMODE` and `ACCCLR` by their fields, `ACCSET`, `ACCADD` and
`RECSTEP` with the operands read at the firing. A firing behind a group step that has not been applied waits in this form. -/
inductive AccEff where
  | step (d : Nat) (lanes bad : BitVec 8) (fresh : Bool) (totals : List (Val × Bool))
  | emission (d cv out key : Nat) (lanes : BitVec 8)
  | mode (imm : Nat)
  | clear (mask : Nat)
  | put (d kind : Nat) (lanes : BitVec 8) (val : Payload) (poison : Bool)
  | add (d kind : Nat) (lanes : BitVec 8) (a b : Payload) (src : Acc) (poison : Bool)
  | recur (d : Nat) (lanes : BitVec 8) (pairs : List (Val × Val)) (poison : Bool)
  deriving DecidableEq, Repr

/-- An outstanding result: its destinations, the element cycles it still takes, for a step of a group that has not been
applied the slot it belongs to, the flags that it raises when it completes, the effects that wait for an earlier group step, and
the key of its emission entry (R245, R246, R288, R295, R297). -/
structure Outst where
  dests : List Dest
  left : Nat
  group : Option Nat
  flags : BitVec 32 := 0
  effs : List AccEff := []
  key : Nat := 0
  deriving DecidableEq, Repr

/-- One trigger context of one slot (R206, R289). -/
structure Ctx where
  v : Vector VReg 8
  p : Vector (BitVec 8) 8
  acc : Vector Acc 4
  l : Vector (BitVec 16) 2
  cround : BitVec 8
  rep : Repeat
  sr : BitVec 32
  aflags : BitVec 32
  yielded : Bool
  tiles : Vector Tile 2
  perms : Vector Perm 2
  gate : BitVec 32
  gatePoison : Bool
  outst : List Outst
  deriving DecidableEq, Repr

/-- One deposit in a group adder (R288): the member, the lanes in which it executed, the exact total of each lane
with its invalid mark, the null mark, the lanes that it poisons, and the element cycles that a step which it completes still takes,
counted from its firing (R297). -/
structure Deposit where
  member : Nat
  lanes : BitVec 8
  totals : List (Val × Bool)
  null : Bool
  poison : BitVec 8
  left : Nat
  deriving DecidableEq, Repr

/-- The configuration an element holds in one slot (R206, R90, R87): slot pool, constants, bindings, seed, its place
in the node's rectangle, the block's fusing table, its switch-word set, and the incarnation of the block. -/
structure ElemCfg where
  loaded : Bool
  slots : List (BitVec 48)
  consts : Vector Word 16
  dbind : BitVec 32
  cbind : BitVec 16
  rfree : BitVec 16
  seed : BitVec 32
  ox : Nat
  oy : Nat
  width : Nat
  fuse : Vector (BitVec 16) 16
  systolic : Bool
  chainSwap : Bool
  sw : Vector (BitVec 16) 16
  inc : Nat
  deriving DecidableEq, Repr

/-- A token in an output buffer: reserved at its firing, ready once its result has completed (R245); a counted end
mark carries its LSID and the requests that it waits for (R217). `key` names the entry of an emission, 0 for none. -/
structure OutTok where
  tok : Token
  ready : Bool
  counts : Option (Nat × List Nat)
  key : Nat := 0
  deriving DecidableEq, Repr

/-- What one element holds and a snapshot saves (R206, R289, R392). Contexts are numbered bank · 4 + context. A count that
waits with no mark to carry it names context, LSID and the requests it waits for (R217). `endSent` holds the pairs
context · 4 + output on which an end mark has left (R36). `parity` lists the configuration words whose parity bit is wrong:
bank · 64 + slot, or bank · 64 + 32 + switch register (R205, R236); `spoilt` the registers and lanes in which a parity error was found:
context · 128 + place (R413, R490). -/
structure ElemCore where
  cfg : Vector ElemCfg 2
  ctx : Vector Ctx 8
  active : Nat
  inp : Vector (List Token) 4
  out : Vector (List OutTok) 4
  qin : Vector (List Bool) 2
  qout : Vector (List Bool) 2
  ptr : Nat
  blocked : Bool
  idle : Nat
  array : Nat
  group : Tbl (List Deposit)
  pendCounts : List (Nat × Nat × List Nat)
  reqs : List Nat
  nextReq : Nat
  endSent : List Nat
  parity : List Nat
  spoilt : List Nat := []
  deriving DecidableEq, Repr

/-- The router of an element (R183, R185, R187, R190, R197, R200, R394). Sources 0 to 3 are the inbound links north,
east, south and west, sources 4 to 7 the element's outputs. `taken` names destinations by the port that they feed (R203).
`hold` and `chold` hold one more than the cycle in which an inbound data link or element input, and an inbound control link or
`q` input, last took a token (R31, R183). -/
structure Router where
  rset : Nat
  rin : Vector (List Token) 4
  rcin : Vector (List Bool) 4
  offers : Vector (List Nat) 8
  taken : Vector (List Nat) 8
  ctaken : Vector (List Nat) 8
  delay : Tbl (List (Token × Nat))
  lowUntil : Vector Nat 4
  hold : Vector Nat 8
  chold : Vector Nat 6
  swapPassed : BitVec 8
  tidePassed : BitVec 8
  deriving DecidableEq, Repr

/-- One element with its router, its snapshot in a tide (R392), its closed inputs and its caught log (R393), the
swap marks taken at its inputs (R36), and one more than the cycle of its last firing cycle (R25). `marksFrom` holds the elements whose
swap marks have been taken since the last swap, `upFrom` those whose marks switched the element (R121). -/
structure Elem where
  core : ElemCore
  router : Router
  swapIn : BitVec 4
  tideClosed : BitVec 4
  snap : Option ElemCore
  snapRouter : Option Router
  caught : List (Nat × Token)
  last : Nat
  marksFrom : List Nat := []
  upFrom : List Nat := []
  deriving DecidableEq, Repr

/-! ### Activation values (R206, R289) -/

/-- A register at activation. -/
def VReg.zero : VReg := { val := 0, null := false, poison := false }
/-- A lane at activation. -/
def LaneAcc.zero : LaneAcc := { a := 0, ai := false, ao := false, av := false, ap := false }
/-- An accumulator at activation: W64, `F` = 0, `A` = 0. -/
def Acc.zero : Acc := { f32 := false, frac := 0, lanes := Vector.replicate 8 LaneAcc.zero }
/-- A weight tile at activation. -/
def Tile.zero : Tile := { rows := Vector.replicate 8 0, valid := 0, poison := 0, ptr := 0 }
/-- The identity permutation. -/
def Perm.identity : Perm := { ent := Vector.ofFn (fun i => BitVec.ofNat 8 i.val), poison := false }

/-- A context at activation, with the generator's state given (R53, R206, R289). -/
def Ctx.activated (sr : BitVec 32) : Ctx :=
  { v := Vector.replicate 8 VReg.zero, p := Vector.replicate 8 0, acc := Vector.replicate 4 Acc.zero,
    l := Vector.replicate 2 0, cround := 0, rep := { slot := 0, count := 0, lanes := 0 }, sr := sr, aflags := 0,
    yielded := false, tiles := Vector.replicate 2 Tile.zero, perms := Vector.replicate 2 Perm.identity,
    gate := BitVec.allOnes 32, gatePoison := false, outst := [] }

/-- A slot that nothing has been loaded into. -/
def ElemCfg.empty : ElemCfg :=
  { loaded := false, slots := [], consts := Vector.replicate 16 0, dbind := 0, cbind := 0, rfree := 0, seed := 0,
    ox := 0, oy := 0, width := 1, fuse := Vector.replicate 16 0, systolic := false, chainSwap := false,
    sw := Vector.replicate 16 0, inc := 0 }

/-- The part of an element that a snapshot saves, at reset (the arbiter pointer is 3, R206). -/
def ElemCore.reset : ElemCore :=
  { cfg := Vector.replicate 2 ElemCfg.empty, ctx := Vector.replicate 8 (Ctx.activated 0), active := 0,
    inp := Vector.replicate 4 [], out := Vector.replicate 4 [], qin := Vector.replicate 2 [],
    qout := Vector.replicate 2 [], ptr := 3, blocked := false, idle := 0, array := 0, group := [], pendCounts := [], reqs := [], nextReq := 1,
    endSent := [], parity := [] }

/-- A router with empty buffers. -/
def Router.reset : Router :=
  { rset := 0, rin := Vector.replicate 4 [], rcin := Vector.replicate 4 [], offers := Vector.replicate 8 [],
    taken := Vector.replicate 8 [], ctaken := Vector.replicate 8 [], delay := [], lowUntil := Vector.replicate 4 0,
    hold := Vector.replicate 8 0, chold := Vector.replicate 6 0, swapPassed := 0, tidePassed := 0 }

/-- An element at reset. -/
def Elem.reset : Elem :=
  { core := ElemCore.reset, router := Router.reset, swapIn := 0, tideClosed := 0,
    snap := none, snapRouter := none, caught := [], last := 0 }

end Sys2Proof.Machine
end

