-- ==== Sys2Proof/Machine/TypesRegion.lean ====
section
/-!
DEFINITION. State of blocks, regions, stream bindings, edge units and pilots (spec/03_encodings.md,
spec/06_tarns.md, spec/10_edge.md, spec/12_pilot.md).
-/
namespace Sys2Proof.Machine
open Sys2Proof

/-- A translation entry: page base, size as a power of two, physical base, stores permitted (R166). -/
structure TEntry where
  va : Nat
  size : Nat
  pa : Nat
  w : Bool
  deriving DecidableEq, Repr

/-- A stream fault of a binding, a command or an edge path: cause of R171, address, whether its report has been
queued (R170, R343). -/
structure Park where
  cause : Nat
  va : Nat
  reported : Bool
  deriving DecidableEq, Repr

/-! ### The block image (R87 to R90) -/

/-- A stream binding record (R89). -/
structure BindRec where
  base : Nat
  target : Nat
  dir : Nat
  lsid : Nat
  mode : Nat
  bufs : Nat
  col : Nat
  side : Nat
  gen : Nat
  depth : Nat
  fmt : Nat
  strides : Vector Int 4
  deriving DecidableEq, Repr

/-- A node record (R90). -/
structure NodeRec where
  col0 : Nat
  row0 : Nat
  w : Nat
  h : Nat
  count : Nat
  dbind : Nat
  cbind : Nat
  rfree : Nat
  seed : Nat
  consts : Vector Word 16
  slots : List (BitVec 48)
  deriving DecidableEq, Repr

/-- A switch-section record (R87). -/
structure SwRec where
  word : Nat
  reg : Nat
  col0 : Nat
  row0 : Nat
  w : Nat
  h : Nat
  deriving DecidableEq, Repr

/-- A channel-node record (R87). -/
structure ChanRec where
  port : Nat
  dir : Nat
  edge : Nat
  key : Nat
  deriving DecidableEq, Repr

/-- A parsed block image (R87). -/
structure Image where
  addr : Nat
  check : Nat
  flags : Nat
  bands : Nat
  targets : Nat
  wbMask : Nat
  storeMask : Nat
  loadMask : Nat
  loops : Vector Nat 4
  fuse : Vector (BitVec 16) 16
  streams : List BindRec
  nodes : List NodeRec
  sws : List SwRec
  chans : List ChanRec
  div : Vector Nat 16
  deriving DecidableEq, Repr

/-! ### A running block -/

/-- What a stream binding holds while its block runs (R162 to R170, R333). `it` is the position: for a load binding the
tokens and marks produced so far, for a store binding the iterations taken. `adv` holds the base advances of `SADV`;
`gens` and `softs` the buffers of the generator and software sides, oldest first; `filled` and `removed` count granules of
a ring, `rho` is the retired count in bytes; `sendq` holds staged tokens; `takeq` a token taken and not yet stored;
`unperformed` the tag of a window store that has not been applied, 0 for none; `counted` whether the end mark has been
reported, `swapped` whether a swap mark has been sent or taken. -/
structure BindSt where
  br : BindRec
  it : Nat
  adv : List (Nat × Int)
  te : Option TEntry
  park : Option Park
  gens : List Nat
  softs : List Nat
  filled : Nat
  removed : Nat
  rho : Int
  sendq : List Token
  takeq : List Token
  unperformed : Nat
  endTaken : Bool
  counted : Bool
  swapped : Bool
  deriving DecidableEq, Repr

/-- A write-back on its way to the lead pilot, with the element that fired it (R218, R232, R240). -/
structure WbArrival where
  elem : Nat
  reg : Nat
  val : DWord
  poison : Bool
  deriving DecidableEq, Repr

/-- A running block (R34, R216 to R218): incarnation, image, end marks counted as emitter and LSID pairs, emitters and
sinks fixed at load, sinks that have reported, write-backs, those fired in this cycle, branch index, bindings, accesses issued
under each LSID. -/
structure Block where
  inc : Nat
  img : Image
  emitters : List (Nat × Nat)
  counted : List (Nat × Nat)
  sinks : List Nat
  sunk : List Nat
  wbs : Tbl DWord
  wbIn : List WbArrival
  branch : Option Nat
  binds : List BindSt
  accesses : Tbl Nat
  deriving DecidableEq, Repr

/-- The shadow state of a region (R330). -/
inductive Shadow where
  | empty | loading | loaded | failed | armed | swapping
  deriving DecidableEq, Repr

/-- The running state of a region (R330). -/
inductive Running where
  | none | running | frozen
  deriving DecidableEq, Repr

/-- A completion-queue entry (R335, R336): the block's incarnation, its status once completed, and its write-backs. -/
structure Comp where
  inc : Nat
  status : Option (BitVec 34)
  wbs : Tbl DWord
  deriving DecidableEq, Repr

/-- A stream-fault report, the four words of R343. -/
structure SfRep where
  w0 : DWord
  w1 : DWord
  w2 : DWord
  w3 : DWord
  deriving DecidableEq, Repr

/-- An element-fault report, the two words of R237. -/
structure EfRep where
  w0 : DWord
  w1 : DWord
  deriving DecidableEq, Repr

/-- A fault detected and not yet acted on: cause of R238, element (global number), context, slot, bank, detail, and the
block it is charged to. -/
structure FaultEv where
  cause : Nat
  elem : Option Nat
  ctx : Nat
  slot : Nat
  bank : Nat
  detail : DWord
  deriving DecidableEq, Repr

/-- A rewrite of switch words in flight (R201, R202): the records, the slot active in each named router at issue, and the
cycle of issue. -/
structure Rewrite where
  pilot : Nat
  recs : List SwRec
  banks : List (Nat × Nat)
  issued : Nat
  deriving DecidableEq, Repr

/-- A request or command that an edge unit has taken and that has not performed (R172, R174, R228, R229, R275, R351,
R374). `id` counts the packets in the order in which the package takes them; `op` is the class-11 opcode, or 64 for
`LDE` and 65 for `STE`; `te` and `te2` are its source and destination entries (R169); `pos` counts what is complete
(granules, tokens, blocks); `off` is a spring command's byte offset in its source; `failed` its failed block: index, fault
code, header offset (R380); `part` what is complete of the block at `pos`, in granules, pieces or tokens (R379, R382); `starts` where the latest blocks began,
newest first; `ended` the status of a
stream command whose accesses have performed; `seen` the granules that the command has written, by cell, with what they held before,
whose reuse within the command is open (R178, log 9); `tag` its suppression tag, 0 for class I0 (R384); `unit` the place of an eddy
command that has arrived at its unit: the order of arrival and the cell (R350, R357); `stamp` its port stamp (R386); `list` the index
list of an `SGATH` or `SSCAT` as it was checked: entries, and whether each was poisoned (R176); `block` the decoded output of a spring
command's block that a walk or a park has stopped: bytes, whether it is poisoned, the next offset (R376, R379). -/
structure Cmd where
  id : Nat
  op : Nat
  tok : Token
  data : Option Token
  begun : Bool
  te : Option TEntry
  te2 : Option TEntry
  park : Option Park
  pos : Nat
  written : Nat
  poisoned : Nat
  firstPoison : Option Nat
  off : Nat
  failed : Option (Nat × Nat × Nat)
  part : Nat := 0
  starts : List Nat := []
  ended : Option Nat
  seen : Tbl (Payload × Bool)
  region : Nat
  inc : Nat
  tag : Nat
  unit : Option (Nat × Nat) := none
  stamp : Nat := 0
  list : Option (List (Int × Bool)) := none
  block : Option (List Byte × Bool × Nat) := none
  deriving DecidableEq, Repr

/-- A place in the response order of a column end (R175, R229): the command it answers (0 for a forwarded mark), the token
once it is ready, and the suppression tag that retires when the token is taken, 0 for none (R362). `orig` holds a request whose result has not been taken, which a restore re-issues
(R385, R389). -/
structure Rsp where
  id : Nat
  tok : Option Token
  tag : Nat
  orig : Option Cmd
  deriving DecidableEq, Repr

/-- An open outbound transform (R279): its command, its data tag, the tokens it has taken, and those of the group in
hand. -/
structure XOut where
  id : Nat
  tag : Nat
  taken : Nat
  group : List Token
  deriving DecidableEq, Repr

/-- A norm watch (R282, R283). FP32 values are kept as words. `skipped` counts poisoned tokens; `seen` holds the two bits of lane 5 as
they stood at the last round mark (R284). -/
structure Watch where
  armed : Bool
  tag : Nat
  outward : Bool
  k : Nat
  ratio : Word
  s : Word
  a : Word
  last : Word
  rounds : Word
  trips : Word
  lasttrip : BitVec 8
  sawNonFinite : Bool
  skipped : Nat
  seen : BitVec 2
  deriving DecidableEq, Repr

/-- An edge unit and the stream engine of its stack. `cmds` holds the packets taken and not performed; `rsps` the responses
in order; `xouts` the tokens of inbound transforms, the last of a command with the command that it ends (R385), `springs` those of the spring decoder; `xhand` a token on its way to
an open transform; `halfSte` the first token of an `STE` request; `entries` the translation entry of each edge path;
`crossings` round marks that the watches have yet to see (direction, round); `marks` tide marks to send; `endInc` the
incarnation whose bindings the column end serves; `swapCrossed` whether a swap mark has crossed it (R333); `hold` the cycle from
which the link from the end router takes its next token (R183); `stamp` the next port stamp (R386)
(spec/06_tarns.md, spec/10_edge.md). -/
structure Edge where
  cmds : List Cmd
  rsps : List Rsp
  xouts : List (Token × Option Cmd)
  xhand : List Token
  opens : List XOut
  springs : List Token
  watches : Vector Watch 4
  eflags : BitVec 32
  rr : Nat
  halfSte : Option Token
  entries : Tbl TEntry
  crossings : List (Nat × BitVec 8)
  marks : List Token
  inClosed : Bool
  outClosed : Bool
  endInc : Nat
  swapCrossed : Bool
  hold : Nat
  stamp : Nat
  deriving DecidableEq, Repr

/-! ### Pilots (R313, R315) -/

/-- Whether a pilot runs (R313, R319, R348). -/
inductive PRun where
  | idle | running | stopped | parked
  deriving DecidableEq, Repr

/-- What an access of a pilot that has issued and not yet performed is (R114, R316). -/
inductive PKind where
  | load (size : Nat) (sgn : Bool) (acq : Bool)
  | store (size : Nat) (rel : Bool)
  | atom
  | convoy (op : Nat)
  deriving DecidableEq, Repr

/-- An access of a pilot in flight: kind, virtual and cell address, the register it writes, its data, whether it lies in
a window (and which), the suppression tag, the entry that translated it and whether an invalidation has dropped that entry since
(R123, R134), the operands of an `ATOM` and the port stamp of its record entry (R386), the program state to return to when it
traps (R317), and the cause that parks it where its page was missing at a restore (R388, R415). -/
structure PAcc where
  kind : PKind
  va : Nat
  cell : Nat
  reg : Reg
  data : DWord
  fault : Bool
  window : Option Nat
  tag : Nat
  te : Option TEntry
  stale : Bool
  args : DWord × DWord
  stamp : Nat
  pc : DWord
  snap : Vector DWord 32
  parked : Option Nat := none
  deriving DecidableEq, Repr

/-- An image kept in the shadow slots of released bands (R150): the VD that loaded it, the bands, the image. -/
structure Kept where
  vd : Nat
  bands : Nat
  img : Image
  deriving DecidableEq, Repr

/-- A pilot (R313, R315). Control registers that are views of other state (CHRON, GUESTTIME, STOLENTIME, PILOTID,
INCARN, FABSTAT, EFREP, SFREP) have no storage here. `redo` holds the `ATOM`s that have applied and whose instructions a trap of a
restored access has taken back: each is answered again when its instruction comes again (R131, R389); `past` holds those that have been
delivered while an access before them has still to perform; `stamp` is the next port
stamp (R386); `bad` says that a word of the pilot could not be corrected (R413, R490). -/
structure Pilot where
  x : Vector DWord 32
  pc : DWord
  pstatus : DWord
  trapcause : DWord
  trapaddr : DWord
  trapval : DWord
  tvec : DWord
  pscratch : DWord
  run : PRun
  waitSince : Option Nat
  pend : List PAcc
  redo : List PAcc
  past : List PAcc := []
  bad : Bool := false
  stamp : Nat
  tlb : List TEntry
  inj : Vector (BitVec 8) 16
  injq : Vector (List Token) 16
  deriving DecidableEq, Repr

/-- A pilot that runs no program (R313, R315). -/
def Pilot.reset : Pilot :=
  { x := Vector.replicate 32 0, pc := 0xFFF0000000000000, pstatus := 0, trapcause := 0, trapaddr := 0, trapval := 0,
    tvec := 0, pscratch := 0, run := .idle, waitSince := none, pend := [], redo := [], stamp := 0, tlb := [], inj := Vector.replicate 16 0,
    injq := Vector.replicate 16 [] }

/-- A norm watch that is not armed. -/
def Watch.zero : Watch :=
  { armed := false, tag := 0, outward := false, k := 0, ratio := 0, s := 0, a := 0, last := 0, rounds := 0, trips := 0,
    lasttrip := 0, sawNonFinite := false, skipped := 0, seen := 0 }

/-- An edge unit with empty queues. -/
def Edge.reset : Edge :=
  { cmds := [], rsps := [], xouts := [], xhand := [], crossings := [], opens := [], springs := [], watches := Vector.replicate 4 Watch.zero,
    eflags := 0, rr := 0, halfSte := none, entries := [], marks := [], inClosed := false,
    outClosed := false, endInc := 0, swapCrossed := false, hold := 0, stamp := 0 }

/-- An image of nothing. -/
def Image.empty : Image :=
  { addr := 0, check := 0, flags := 0, bands := 1, targets := 1, wbMask := 0, storeMask := 0, loadMask := 0,
    loops := Vector.replicate 4 0, fuse := Vector.replicate 16 0, streams := [], nodes := [], sws := [], chans := [],
    div := Vector.replicate 16 1 }

/-- The graph node a region was placed for (R141, R143, R144). -/
inductive Placed where
  | block | pilot
  deriving DecidableEq, Repr

/-- A region (R21 to R23, R330). It is named by its lead pilot, its lowest band. `ending` holds from the end of the cycle in which
the conditions of R34 first held until the completion store; `faultAt` is one more than the cycle of the latest fault found,
`armedAt` the cycle of the latest arming (R36); `orig` numbers the regions in the order in which they were launched (R155); `joined` names the convoys of other modules of which it is
a member: route · 65536 + home identifier (R456). -/
structure Region where
  lead : Nat
  bands : Nat
  vd : Nat
  kind : Placed
  graph : Nat
  inc : Nat
  shadow : Shadow
  running : Running
  cur : Option Block
  succ : Option Block
  prev : Option Block
  shImg : Option Image
  actImg : Option Image
  loadAddr : Nat
  failInfo : DWord
  failSub : Nat
  compQ : List Comp
  lastWbs : Tbl DWord
  sfq : List SfRep
  efrep : Option EfRep
  faults : List FaultEv
  rewrites : List Rewrite
  lastRewrite : Nat
  div : Vector Nat 16
  seqs : Tbl Nat
  joined : List Nat
  stopped : Bool
  ending : Bool
  faultAt : Nat
  armedAt : Nat
  orig : Nat
  seen : Nat
  deriving DecidableEq, Repr

end Sys2Proof.Machine
end

