-- ==== Sys2Proof/Machine/TypesSys.lean ====
section
/-!
DEFINITION. State of virtual devices, graphs, convoys, save records, the cipher units, the Harbour and Voxkan
(spec/05_helm.md, spec/13_eddy.md, spec/15_anchor.md to spec/18_voxkan.md).
-/
namespace Sys2Proof.Machine
open Sys2Proof

/-- A token in a channel-node FIFO: the cycle from which it may be offered, the VD and pairing key of the node that sent
it (R194, R195). -/
structure FifoTok where
  tok : Token
  due : Nat
  vd : Nat
  key : Nat
  deriving DecidableEq, Repr

/-- A channel-node FIFO (R194), oldest token first, and the cycle from which it takes the next. -/
structure Fifo where
  toks : List FifoTok
  next : Nat
  deriving DecidableEq, Repr

/-- What a graph does (R138, R139): it is about to begin its node; its launch waits for bands; its region is placed; its node
waits for a word or for a command; it copies, from a byte on, with a poisoned source met or not, and host memory met or not; the write-backs of its record are
stored and the record's status word waits for them; or its node has had its effect and its final status, a `SYSTEM` release, waits
for the stores before it: a failure code (0 complete), a detail and the next address, and whether the graph ends. -/
inductive GState where
  | begin | placing | placed | waiting
  | copying (pos : Nat) (bad host : Bool)
  | recording
  | ending (code detail next : Nat) (last : Bool)
  deriving DecidableEq, Repr

/-- A loop on the stack of a graph (R147): the node's address, the pass index, the count, and the body, next and iteration
word addresses as they were read. -/
structure LoopSt where
  addr : Nat
  pass : Nat
  count : Nat
  body : Nat
  next : Nat
  iter : Nat
  deriving DecidableEq, Repr

/-- An accepted graph (R138, R139, R147, R152, R409): queue, current node address, whether it has started, what it waits for,
loop stack, the bytes of its node as read when it began, the chronometer at which it began, that of the
last read of its word, its runnable wait, whether its launch has been tried (R149), its acceptance serial and tag sequence (R360);
and for
a `PREEMPT` node what it has still to act on, what it has acted on (incarnation, record offset), and the status of a command
that has ended. -/
structure Graph where
  id : Nat
  queue : Nat
  node : Nat
  started : Bool
  state : GState
  stack : List LoopSt
  line : List Byte
  since : Nat
  lastRead : Nat
  waited : Nat
  tried : Bool
  serial : Nat
  seq : Nat
  todo : List (Nat × Nat)
  acted : List (Nat × Nat)
  answer : Option (Nat × Nat)
  deriving DecidableEq, Repr

/-- Quotas of a VD (R469). -/
structure Quotas where
  bricks : Nat
  frames : Nat
  share : Nat
  weight : Nat
  peer : Nat
  slot : Nat
  tarns : Nat
  quarters : Nat
  deriving DecidableEq, Repr

/-- A suppression-table entry (R361): tag, location, operation, result, its status and flags, and whether the original
has applied. -/
structure Supp where
  tag : Nat
  loc : Nat
  op : Nat
  result : DWord
  status : Nat
  flags : Nat
  deriving DecidableEq, Repr

/-- One module's slack record in a convoy (R457, R458). -/
structure Slack where
  high : Nat
  low : Nat
  step : Nat
  latest : Nat
  deriving DecidableEq, Repr

/-- A convoy at its home unit (R365, R366, R457). Members are graph numbers, or for another
module the number of R456's tag (RegionOps). `done` gives each member's latest arrival that no `CVWAIT` has returned;
`here` the members of this module that wait in `CVWAIT`; `waits` the waiting `CVWAIT`s of other modules: member, tag, port; `held`
their arrivals that wait for a phase, with the
port. A convoy that no member holds is not live and is not held. -/
structure Convoy where
  phase : BitVec 32
  members : List Nat
  later : List Nat
  arrived : List Nat
  done : List (Nat × BitVec 32)
  here : List Nat
  waits : List (Nat × Nat × Nat)
  held : List (Nat × Flit)
  slackOn : Bool
  seeded : Bool
  lastDone : Nat
  period : Nat
  slacks : Tbl Slack
  deriving DecidableEq, Repr

/-- A route of a VD (R444, R450). -/
structure Route where
  port : Nat
  vc : Nat
  remote : Nat
  deriving DecidableEq, Repr

/-- A peer convoy entry (R456). -/
structure PeerConvoy where
  route : Nat
  locId : Nat
  homeId : Nat
  deriving DecidableEq, Repr

/-- An entry of a usage log (R475). -/
structure LogEntry where
  seq : Nat
  chron : DWord
  guest : DWord
  kind : Nat
  vals : List DWord
  deriving DecidableEq, Repr

/-- A closed batch of a usage log (R477). -/
structure Batch where
  entries : List LogEntry
  chron : DWord
  hash : BitVec 512
  deriving DecidableEq, Repr

/-- The usage log of a VD (R475 to R478). -/
structure UsageLog where
  openEntries : List LogEntry
  openedAt : Nat
  hash : BitVec 512
  next : Nat
  held : Option (List DWord)
  lost : Nat
  batches : List Batch
  deriving DecidableEq, Repr

/-- What an entry of a reckoning record stands for (R387). -/
inductive OpKind where
  | loadBinding | storeBinding | lde | ste | stream | edgeUnit | eddy | spring | pilotLoad | pilotStore | atom | cpy | convoy
  | winrel | peerSend
  deriving DecidableEq, Repr

/-- An entry of a reckoning record (R386): what it stands for; its state, 1 issued, 2 performed with its result not taken, 3 parked,
4 the position of a binding; LSID, whether its class is I1, source, port stamp, sequence, the cause that parked it, incarnation, address,
round, progress and operands. -/
structure RecEntry where
  kind : OpKind
  state : Nat
  lsid : Nat
  i1 : Bool
  source : Nat
  stamp : Nat
  seq : Nat
  cause : Nat
  inc : Nat
  addr : Nat
  round : Nat
  progress : Nat
  operands : Nat
  deriving DecidableEq, Repr

/-- A region save record (R404, R405), held as structured data: the region as it stood, its elements (by place within
the region), pilots, edge units, the entries of its reckoning record (R386), pond and chart bytes and the poison among them; `node` is
the address of its graph's node, `cycle` the cycle in which its clocks stopped (R400). -/
structure SaveRec where
  off : Nat
  inc : Nat
  bands : Nat
  lead : Nat
  kind : Nat
  unrestartable : Bool
  faultFrozen : Bool
  snapNo : Nat
  graph : Nat
  time : DWord
  damaged : Bool
  byHelm : Bool
  region : Region
  elems : Tbl Elem
  pilots : Tbl Pilot
  edges : Tbl Edge
  entries : List RecEntry
  bytes : List (Nat × Byte)
  bad : List Nat
  node : Nat := 0
  cycle : Nat := 0
  deriving DecidableEq, Repr

/-- The Helm page of a VD (R133). `owed` holds accept words that wait for `SYSTEM` scope, by queue (R135, R136); `drainFrom` is the
count of packets at the broadcast of the invalidation that drains (R134). -/
structure HelmPage where
  hwatch : DWord
  hevent : DWord
  hinva : DWord
  hinvdst : DWord
  overflow : Bool
  accepts : Vector (BitVec 12) 4
  taken : Vector Bool 4
  invq : List (Nat × Nat × Nat × Nat)
  draining : Bool
  drainFrom : Nat
  owed : Tbl Nat
  deriving DecidableEq, Repr

/-- A device store to host memory that waits in the Harbour (R447): its bytes, none where it writes none (R100), whether it has been sent,
and its number in the order in which the package's stores to host memory performed at `DEVICE` scope (R104). -/
structure CxlReq where
  addr : Nat
  data : List (Option Byte)
  poison : Bool
  sent : Bool
  stamp : Nat
  deriving DecidableEq, Repr

/-- A virtual device (R469, R471 to R473, R493). `cause` is why it was quarantined last (R472, R476); `injected` says that the Helm has begun to
save its regions for a switch (R473). `spilledSupp` holds its suppression entries while it is not resident (R363), `spillTarns` the tarn quota by which its spill is laid
out (R403);
`ended` holds the arrivals in
convoys that have stopped being live which no `CVWAIT` has returned: convoy, member, phase (R345); `steps` the slack step in force for a
convoy and one more than the phase whose release brought it, convoys of other modules numbered 65536 · (1 + route) + home identifier
(R457, R458); `failReport` its latest launch failure, code and element (R40); `shorts` holds, for each stack in a shortfall of R480, its start and the bytes
so far. -/
structure Vd where
  present : Bool
  quarantined : Bool
  cause : Nat
  injected : Bool
  migrating : Bool
  part : Nat
  hdm : Nat
  saveBase : Nat
  saveSize : Nat
  spill : Bool
  override : Bool
  q : Quotas
  nextQ : Option Quotas
  resident : Bool
  waitSince : Nat
  layers : List Nat
  quarters : List Nat
  root : Option Nat
  guest : DWord
  stolen : DWord
  restoring : Nat
  switching : Bool
  charge : Nat
  periodCharge : Nat
  deficit : Int
  exhausted : Bool
  serial : Nat
  grant : DWord
  create : List DWord
  hostRanges : Tbl (Nat × Nat)
  routes : Tbl Route
  recvBase : Nat
  recvPages : Nat
  peers : Tbl PeerConvoy
  hpsent : DWord
  hpnak : DWord
  hprecv : DWord
  hprej : DWord
  supp : List Supp
  convoys : Tbl Convoy
  ended : List (Nat × Nat × BitVec 32)
  steps : Tbl (Nat × Nat)
  saves : List SaveRec
  spilled : List (Nat × Byte)
  spilledBad : List Nat
  spilledEdges : Tbl Edge
  spilledFifos : Tbl Fifo
  spilledSupp : List Supp
  spillTarns : Nat
  failReport : Option (Nat × Nat)
  log : UsageLog
  dumpKey : Option Nat
  helm : HelmPage
  graphs : List Graph
  nextGraph : Nat
  cxlq : List CxlReq
  cxlDeficit : Int
  peerBytes : Nat
  stolenBw : Nat
  shorts : Tbl (Nat × Nat)
  deriving DecidableEq, Repr

/-- What a migration package holds (R474): the `VDCREATE` record and the quotas, the two counters, the log chain value and the next
sequence number, the contents of the save area with its size, and the lines of the VD's frames: number, bytes, poison. -/
structure Package where
  create : List DWord
  q : Quotas
  guest : DWord
  stolen : DWord
  hash : BitVec 512
  next : Nat
  area : Nat
  saves : List SaveRec
  spilled : List (Nat × Byte)
  spilledBad : List Nat
  spilledEdges : Tbl Edge
  spilledFifos : Tbl Fifo
  spilledSupp : List Supp
  spillTarns : Nat
  lines : List (Nat × List Byte × Bool)
  deriving DecidableEq, Repr

/-! ### Cipher units (spec/16_cipher.md) -/

/-- An owner entry of a frame (R419): kind 0 unowned, 1 VD, 2 window; owner; the frame's number within its owner. -/
structure Frame where
  kind : Nat
  owner : Nat
  num : Nat
  deriving DecidableEq, Repr

/-- A counter line or tree node (R424): major counter and minor counters. -/
structure Counter where
  major : Nat
  minors : Tbl Nat
  deriving DecidableEq, Repr

/-- An open window (R432): identifier, opener, members, length, and the physical frame and opener's number of each
window frame. -/
structure Window where
  ident : Nat
  opener : Nat
  members : List Nat
  length : Nat
  frames : List (Nat × Nat)
  deriving DecidableEq, Repr

/-- What a window operation does once every check has passed (R436, R437): for `WINOPEN` slot, frames, members and the cell of the
handle; for the others the slot and the window. -/
inductive WinPlan where
  | open (slot : Nat) (frames : List (Nat × Nat)) (members : List Nat) (cell : Nat)
  | rekey (slot : Nat) (w : Window) (members : List Nat)
  | close (slot : Nat) (w : Window)
  deriving DecidableEq, Repr

/-- State of the cipher units and the key store (R418, R419, R423 to R428, R432). Owners are numbered 0 to 95 for
VDs and 128 + slot for windows; nodes are numbered (owner · 8 + level) · 2^30 + index, and in `cached`, plus 2^44 times the stack. `raw`
holds the ciphertext and MAC of a line that was changed behind the unit's back; those of every other line, and the MACs of the nodes, are
what R422 gives for what the unit wrote (Crypt). `badCounters` holds the frames whose counter line
fails verification, `levels` the level of the node that fails for it where that is not 1 (R427, R428). `winq` holds the window operations
that have begun, in their order, with what each has been checked to do (R436, R437). -/
structure Cipher where
  frames : Tbl Frame
  counters : Tbl Counter
  nodes : Tbl Counter
  cached : List Nat
  keys : Tbl (BitVec 256 × BitVec 256)
  windows : Tbl Window
  nextIdent : Nat
  raw : Tbl (List (BitVec 128) × BitVec 64)
  badCounters : List Nat
  levels : Tbl Nat := []
  winq : List (Nat × Nat × Option WinPlan) := []
  deriving DecidableEq, Repr

/-! ### Harbour (spec/17_harbour.md) -/

/-- A Burbex port (R448 to R451): `sent` holds the channels of the last flits, newest first; `owed` the credits to return. -/
structure Port where
  up : Bool
  far : Nat
  sendSeq : Nat
  acked : Nat
  expect : Nat
  replay : List Flit
  resend : List Flit
  queues : Tbl (List Flit)
  credits : Tbl Nat
  deficits : Tbl Nat
  last : Nat
  sent : List Nat
  owed : Tbl Nat
  retries : Nat
  lastAck : Nat
  askRetry : Bool
  deriving DecidableEq, Repr

/-- A receiver's suppression entry of a peer send or a convoy operation (R453, R456): `what` is the operation and convoy of the latter,
by which a mismatch is known (R361). -/
structure PeerSupp where
  module : Nat
  vc : Nat
  tag : Nat
  status : Nat
  what : Nat := 0
  deriving DecidableEq, Repr

/-- A sender's record of an operation sent to another module (R453, R456): status 255 until its completion, and the flit, which
is sent again where a rebind finds no completion (R449); `stamp` is the port stamp of a pilot's send, `va` its address as issued (R386), or
for a convoy operation 65536 · route + home identifier, `port` the port that it waits at or was sent on (R454). -/
structure PeerOut where
  module : Nat
  vc : Nat
  tag : Nat
  status : Nat
  flit : Flit
  stamp : Nat := 0
  va : Nat := 0
  port : Nat := 0
  deriving DecidableEq, Repr

/-- What the host has got for a read of device memory (R445): VD, HDM offset of the line, its data, and whether its completion is marked
poisoned. -/
structure HostRead where
  vd : Nat
  off : Nat
  data : BitVec 512
  poison : Bool
  deriving DecidableEq, Repr

/-- State of the Harbour: lines that the host may hold, snoops outstanding, the latest completion of a host read, the translation entries
of host accesses by VD (R445), the attestation chain that SPDM has presented (R467), the host link's trained lanes and rate in GT/s (R442), and the Burbex ports. -/
structure Harbour where
  lanes : Nat
  rate : Nat
  hostRead : Option HostRead
  entries : List (Nat × TEntry)
  hostLines : List Nat
  snoops : List Nat
  lastCxl : Nat
  ports : Tbl Port
  received : List PeerSupp
  unretired : List PeerOut
  spdm : Option (List Byte)
  ide : Bool
  deriving DecidableEq, Repr

/-! ### Voxkan (spec/18_voxkan.md) -/

/-- An event record (R483). -/
structure Event where
  chron : DWord
  src : Nat
  code : Nat
  vd : Nat
  detail : List DWord
  deriving DecidableEq, Repr

/-- Firmware and its fuses (R465, R466): digest, versions, the fused floor, the staged image. -/
structure Firmware where
  digest : BitVec 512
  version : Nat
  sec : Nat
  floor : Nat
  good : Bool
  staged : Option (BitVec 512 × Nat × Nat)
  activate : Bool
  deriving DecidableEq, Repr

/-- State of Voxkan (R462, R463, R470, R479 to R489). `heat`, `powDiv` and `zones` are what R479, R481 and R482 ask of the
dividers; `State.therm` is the largest. `zones` is 0 normal, 2 coolant lost; `hotSince` the last raise of a domain at 100 °C or
more, `coolSince` the start of its time below 92 °C. `i3c` holds the transfers of the last coolant cycle, address, code and payload, and
`zoneTemps` the inlet and outlet of each zone in quarters of a degree (R482). `exported` holds the packages that this module has sealed,
with the module they are for (R474): they are encrypted, and what they hold is known to no one but their recipient. -/
structure Voxkan where
  status : Nat
  detail : Nat
  busy : Bool
  done : Bool
  overflow : Bool
  mbie : Bool
  evcons : Nat
  devstate : Nat
  buf : Tbl DWord
  latched : Option Nat
  record : Tbl DWord
  atReset : Nat
  fw : Firmware
  moduleId : Nat
  events : List Event
  written : List Event
  evSeq : Nat
  ring : Option (Nat × Nat × Bool)
  lost : Nat
  msix : List (Nat × Nat)
  watchdog : Nat
  cap : Nat
  interval : Nat
  intervalAt : Nat
  watts : List Nat
  capSince : Nat
  lowSince : Nat
  heat : Tbl Nat
  powDiv : Tbl Nat
  dump : Option (Nat × Nat)
  dumped : Bool
  temps : List Nat
  coolSince : Tbl Nat
  hotSince : Tbl Nat
  refresh : List Nat
  actCap : List Nat
  zones : Vector Nat 6
  zoneFails : Vector Nat 6
  zoneLow : Vector Nat 6
  zoneBack : Vector Nat 6
  valves : List Nat
  pump : Nat
  attestKey : Nat
  i3c : List (Nat × Nat × List Byte)
  zoneTemps : Vector (Nat × Nat) 6
  exported : List (List Byte × Nat × Package)
  deriving DecidableEq, Repr

/-! ### Records of absent things -/

/-- Quotas of nothing. -/
def Quotas.zero : Quotas :=
  { bricks := 0, frames := 0, share := 0, weight := 1, peer := 1, slot := 0, tarns := 0, quarters := 0 }

/-- An empty usage log (R477: the chain starts from 64 zero bytes). -/
def UsageLog.empty : UsageLog :=
  { openEntries := [], openedAt := 0, hash := 0, next := 0, held := none, lost := 0, batches := [] }

/-- The Helm page at reset (R133). -/
def HelmPage.reset : HelmPage :=
  { hwatch := 0, hevent := 0, hinva := 0, hinvdst := 0, overflow := false, accepts := Vector.replicate 4 0,
    taken := Vector.replicate 4 false, invq := [], draining := false, drainFrom := 0, owed := [] }

/-- A VD that does not exist (R465). -/
def Vd.absent : Vd :=
  { present := false, quarantined := false, cause := 0, injected := false, migrating := false, part := 0, hdm := 0, saveBase := 0, saveSize := 0,
    spill := false, override := false, q := Quotas.zero, nextQ := none, resident := false, waitSince := 0,
    layers := [], quarters := [], root := none, guest := 0, stolen := 0, restoring := 0, switching := false,
    charge := 0, periodCharge := 0, deficit := 0, exhausted := false, serial := 1, grant := 1, create := [],
    hostRanges := [], routes := [], recvBase := 0, recvPages := 0, peers := [], hpsent := 0, hpnak := 0, hprecv := 0,
    hprej := 0, supp := [], convoys := [], ended := [], steps := [], saves := [], spilled := [], spilledBad := [], spilledEdges := [], spilledFifos := [], spilledSupp := [], spillTarns := 0, failReport := none,
    log := UsageLog.empty, dumpKey := none, helm := HelmPage.reset, graphs := [], nextGraph := 1, cxlq := [],
    cxlDeficit := 0, peerBytes := 0, stolenBw := 0, shorts := [] }

/-- A port before training (R448). -/
def Port.down : Port :=
  { up := false, far := 0, sendSeq := 0, acked := 0, expect := 0, replay := [], resend := [], queues := [],
    credits := [], deficits := [], last := 0, sent := [], owed := [], retries := 0, lastAck := 0, askRetry := false }

/-- An unowned frame (R419). -/
def Frame.unowned : Frame := { kind := 0, owner := 0, num := 0 }

/-- A counter line whose counters are zero. -/
def Counter.zero : Counter := { major := 0, minors := [] }

end Sys2Proof.Machine
end

