-- ==== Sys2Proof/Machine/State.lean ====
section
/-!
DEFINITION. The state of the machine, its faults and refusals, and the state right after reset (INVENTORY.md,
'## State').
-/
namespace Sys2Proof.Machine
open Sys2Proof

/-- Why the machine stops. No meaning of this model stops it: the spec gives every event an outcome. -/
inductive Fault where
  /-- Raised by nothing: kept so that the type is not empty. Safe. -/
  | unreachable
  deriving DecidableEq, Repr

/-- Why an instruction has no meaning. -/
inductive Refusal where
  /-- Raised by Dispatch for an instruction that has no meaning yet. Safe: nothing is claimed of it. -/
  | notModelled (mnemonic : String)
  deriving DecidableEq, Repr

/-- One turn of the machine: who moves next, or what arrives from outside (log 1). -/
inductive Turn where
  /-- The pilot fetches and runs one instruction. -/
  | pilot (p : Nat)
  /-- A store that a pilot has issued performs (R114). -/
  | performs (p k : Nat)
  /-- One firing cycle of an element (R211). -/
  | element (e : Nat)
  /-- A step of the table that has no word of its own, at the place that the numbers name (log 1). -/
  | event (i : Instr) (x y z : Nat)
  /-- One switch-domain cycle of 0.5 ns (R5). -/
  | clock
  /-- The host link has trained at a number of lanes and a rate in GT/s (R442). -/
  | hostLink (lanes rate : Nat)
  /-- The host stores bytes to its own memory, at a physical address of R98. -/
  | hostStore (a : Nat) (l : List Byte)
  /-- An attacker or a fault puts ciphertext and a MAC in the place of a stored HBM line (R427, R441). -/
  | damageLine (a : Nat) (c : List (BitVec 128)) (m : BitVec 64)
  /-- A counter line of a frame and its MAC are changed in the metadata array (R427). -/
  | damageCounter (f : Nat) (c : Counter) (m : BitVec 64)
  /-- A tree node of an owner and its MAC are changed in a metadata array (R427). -/
  | damageNode (owner level index : Nat) (c : Counter) (m : BitVec 64)
  /-- A token at an inbound link of a router has an error that its check code cannot correct (R205). -/
  | linkError (e port : Nat)
  /-- A word that its code cannot correct: the unit reads as poisoned (R179, R427). -/
  | damageUnit (a : Nat)
  /-- An error in one bank, 0 to 7 of data and 8 to 10 of check symbols, of an SRAM granule (R179). -/
  | upset (a k : Nat)
  /-- A word of a pilot's registers or chart memory that its code cannot correct (R490). -/
  | pilotWord (p : Nat)
  /-- The parity bit of a configuration word of an element is wrong: bank · 64 + slot, or bank · 64 + 32 + switch register (R205,
  R236). -/
  | damageConfig (e k : Nat)
  /-- A parity error in a vector register (`k` below 8) or an accumulator lane (8 + 8 · accumulator + lane) of a context (R490). -/
  | damageReg (e c k : Nat)
  deriving DecidableEq, Repr

/-- A store of the step in progress: bytes at a cell address, or a run of zero bytes (log 4). -/
inductive Store where
  | bytes (a : Nat) (l : List Byte)
  | zero (a n : Nat)
  deriving DecidableEq, Repr

/-- Whose firing or instruction is in progress: pilot, element, bank · 4 + context, slot, executing lanes (R208);
and the numbers that name the place of an event (log 1). -/
structure Cur where
  pilot : Nat
  elem : Nat
  ctx : Nat
  slot : Nat
  lanes : BitVec 8
  x : Nat
  y : Nat
  z : Nat
  deriving DecidableEq, Repr

/-- A walk outstanding at a walker (R167). -/
structure Walk where
  who : Requester
  second : Bool
  va : Nat
  write : Bool
  deriving DecidableEq, Repr

/-- Who issued an anchor command (R384): management, a `PREEMPT` node of a graph, or the Helm itself (R154, R155). -/
inductive Issuer where
  | mailbox
  | node (vd g : Nat)
  | helm
  deriving DecidableEq, Repr

/-- A snapshot, freeze or restore of a region in progress, or a freeze that holds (R391, R400, R407, R412): who waits for it,
the region and its VD, whether it is a freeze, whether it saves, whether it is a restore that replays, whether its clocks are
gated, whether a fault froze it, the record's offset, the snapshot number, the cycle of S or of the trigger, and the entries that a
restore has still to re-issue, by source and port stamp (R389), and the cycle in which the clocks of the region stopped (R400). -/
structure SnapOp where
  who : Issuer
  region : Nat
  vd : Nat
  freeze : Bool
  save : Bool
  restore : Bool
  gated : Bool
  faulted : Bool
  off : Nat
  snapNo : Nat
  at0 : Nat
  todo : List (Nat × Nat) := []
  gateAt : Nat := 0
  deriving DecidableEq, Repr

/-- The machine. -/
structure State where
  agenda : List Turn
  draws : Nat
  cur : Cur
  stores : List Store
  half : Bool
  chron : DWord
  mem : List Host.Cell
  poison : List Nat
  upsets : Tbl Nat
  banks : Tbl (List Nat)
  failed : List Nat
  harvest : BitVec 48
  strips : Vector Nat 24
  hot : BitVec 96
  hotNext : BitVec 96
  therm : Tbl Nat
  walks : List Walk
  pilots : Tbl Pilot
  elems : Tbl Elem
  edges : Tbl Edge
  fifos : Tbl Fifo
  regions : List Region
  kept : Tbl Kept
  vds : Tbl Vd
  lastVd : Tbl Nat
  incs : Nat
  cmdNo : Nat
  change : Option (List Nat × List Nat × List (Nat × Nat × Nat))
  snaps : List SnapOp
  snapNo : Nat
  dirty : Tbl Nat
  cipher : Cipher
  hb : Harbour
  vox : Voxkan
  deriving DecidableEq, Repr

/-- Cipher units at reset: no owners, no keys, no windows (R466). -/
def Cipher.reset : Cipher :=
  { frames := [], counters := [], nodes := [], cached := [], keys := [], windows := [], nextIdent := 1, raw := [],
    badCounters := [], levels := [], winq := [] }

/-- The Harbour at reset: every Burbex port down until it trains (R448). The width and rate that the host link has before it trains are not
given: the full ones stand (DESIGN CHOICE, log 3). -/
def Harbour.reset : Harbour :=
  { lanes := 16, rate := 128, hostRead := none, entries := [], hostLines := [], snoops := [], lastCxl := 0, ports := [], received := [], unretired := [], spdm := none,
    ide := false }

/-- The firmware in flash (log 6). -/
def Firmware.initial : Firmware :=
  { digest := 0, version := 0, sec := 0, floor := 0, good := true, staged := none, activate := false }

/-- Voxkan at reset: `DEVSTATE` 1 until the boot step has checked the firmware (R462, R465). -/
def Voxkan.reset : Voxkan :=
  { status := 0, detail := 0, busy := false, done := false, overflow := false, mbie := false, evcons := 0,
    devstate := 1, buf := [], latched := none, record := [], atReset := 0, fw := Firmware.initial, moduleId := 0,
    events := [], written := [], evSeq := 1, ring := none, lost := 0, msix := [], watchdog := 100000, cap := 3200,
    interval := 10000, intervalAt := 0, watts := [], capSince := 0, lowSince := 0, heat := [], powDiv := [], dump := none, dumped := false, temps := [],
    coolSince := [], hotSince := [], refresh := [], actCap := [], zones := Vector.replicate 6 0,
    zoneFails := Vector.replicate 6 0, zoneLow := Vector.replicate 6 0, zoneBack := Vector.replicate 6 0, valves := [],
    pump := 0, attestKey := 0, i3c := [], zoneTemps := Vector.replicate 6 (0, 0), exported := [] }

/-- The machine right after reset (R465): nothing created, every strip unassigned, and the boot step to come. -/
def State.reset : State :=
  { agenda := [.event .reset 0 0 0], draws := 0, cur := { pilot := 0, elem := 0, ctx := 0, slot := 0, lanes := 0, x := 0, y := 0, z := 0 },
    stores := [], half := false, chron := 0, mem := [], poison := [], upsets := [], banks := [], failed := [], harvest := 0,
    strips := Vector.replicate 24 255, hot := 0, hotNext := 0, therm := [], walks := [], pilots := [], elems := [], edges := [],
    fifos := [], regions := [], kept := [], vds := [], lastVd := [], incs := 1, cmdNo := 1, change := none, snaps := [], snapNo := 1,
    dirty := [], cipher := Cipher.reset, hb := Harbour.reset, vox := Voxkan.reset }

end Sys2Proof.Machine
end

