-- ==== Sys2Proof/Machine/Mem.lean ====
section
/-!
DEFINITION. Memory: the canonical list of bytes, the store port, the cell addresses of storage that has no physical
address, and reading through the store port (R98 to R100; log 4, log 5).
-/
namespace Sys2Proof.Machine
open Sys2Proof

/-- Memory as a list of bytes (log 5). -/
abbrev Memory := List Host.Cell

/-- The byte at an address: an unlisted byte reads zero (log 5). -/
def memGet (m : Memory) (a : Nat) : Byte :=
  match m with
  | [] => 0
  | (j, b) :: r => if j = a then b else memGet r a

/-- Putting a byte at its place in the order. -/
def memPut (m : Memory) (a : Nat) (b : Byte) : Memory :=
  match m with
  | [] => [(a, b)]
  | (j, c) :: r => if a < j then (a, b) :: (j, c) :: r else if a = j then (a, b) :: r else (j, c) :: memPut r a b

/-- Writing a byte: writing zero removes the entry. -/
def memSet (m : Memory) (a : Nat) (b : Byte) : Memory :=
  if b = 0 then m.filter (fun c => c.1 != a) else memPut m a b

/-- Writing consecutive bytes. -/
def memWrite (m : Memory) (a : Nat) (l : List Byte) : Memory :=
  match l with
  | [] => m
  | b :: r => memWrite (memSet m a b) (a + 1) r

/-- The canonical form: addresses strictly rising, and no zero byte listed. -/
def Memory.wf (m : Memory) : Bool :=
  match m with
  | [] => true
  | [(_, b)] => b != 0
  | (j, b) :: (k, c) :: r => b != 0 && j < k && Memory.wf ((k, c) :: r)

/-- One store of the store port applied to memory. -/
def Store.apply (m : Memory) : Store → Memory
  | .bytes a l => memWrite m a l
  | .zero a n => m.filter (fun c => c.1 < a || a + n ≤ c.1)

/-- The stores of a step applied to memory, oldest first (the list holds the newest first). -/
def drain (m : Memory) (st : List Store) : Memory :=
  match st with
  | [] => m
  | x :: r => Store.apply (drain m r) x

/-- The byte a store writes at an address, if it writes there. -/
def Store.at (x : Store) (a : Nat) : Option Byte :=
  match x with
  | .bytes b l => if b ≤ a then l[a - b]? else none
  | .zero b n => if b ≤ a && a < b + n then some 0 else none

/-- The newest byte of the store port at an address. -/
def portGet (st : List Store) (a : Nat) : Option Byte :=
  match st with
  | [] => none
  | x :: r => match x.at a with
    | some b => some b
    | none => portGet r a

/-- The byte at a cell address, with the stores of the step in progress over memory. -/
def State.byte (s : State) (a : Nat) : Byte :=
  match portGet s.stores a with
  | some b => b
  | none => memGet s.mem a

/-- `n` bytes from a cell address. -/
def State.bytes (s : State) (a n : Nat) : List Byte := (List.range n).map (fun i => s.byte (a + i))

/-- A little-endian number of `n` bytes (R3). -/
def State.readLe (s : State) (a : Nat) : Nat → Nat
  | 0 => 0
  | n + 1 => (s.byte a).toNat + 256 * State.readLe s (a + 1) n

/-- The first `n` bytes of a number, least significant first (R3). -/
def toLe : Nat → Nat → List Byte
  | 0, _ => []
  | n + 1, w => BitVec.ofNat 8 w :: toLe n (w / 256)

/-- A little-endian number from a list of bytes (R3). -/
def fromLe : List Byte → Nat
  | [] => 0
  | b :: r => b.toNat + 256 * fromLe r

/-- Putting bytes on the store port. -/
def State.put (s : State) (a : Nat) (l : List Byte) : State := { s with stores := .bytes a l :: s.stores }

/-- Putting a run of zero bytes on the store port. -/
def State.putZero (s : State) (a n : Nat) : State := { s with stores := .zero a n :: s.stores }

/-! ### Cell addresses -/

/-- The end of HBM in the physical map (R98). -/
def hbmEnd : Nat := 0x9000000000
/-- The reservoirs in the physical map (R98). -/
def resBase : Nat := 0x010000000000
/-- The end of the reservoirs (R98). -/
def resEnd : Nat := 0x010030000000
/-- Host memory in the physical map (R98). -/
def hostBase : Nat := 0x200000000000
/-- The end of the physical address space (R97). -/
def physEnd : Nat := 2 ^ 46

/-- The cell address of byte `o` of a physical tarn (log 4). -/
def tarnCell (col side depth o : Nat) : Nat := 2 ^ 46 + ((col * 2 + side) * 8 + depth) * 2 ^ 18 + o
/-- The cell address of byte `o` of an element's pond (log 4). -/
def pondCell (e o : Nat) : Nat := 2 ^ 47 + e * 4096 + o
/-- The cell address of byte `o` of a pilot's chart memory (log 4). -/
def chartCell (p o : Nat) : Nat := 2 ^ 48 + p * 65536 + o

/-- Whether a cell address lies in HBM. -/
def isHbm (a : Nat) : Bool := a < hbmEnd
/-- Whether a cell address lies in a reservoir. -/
def isRes (a : Nat) : Bool := resBase ≤ a && a < resEnd
/-- Whether a cell address lies in host memory. -/
def isHost (a : Nat) : Bool := hostBase ≤ a && a < physEnd
/-- Whether a cell address lies in a tarn. -/
def isTarn (a : Nat) : Bool := 2 ^ 46 ≤ a && a < 2 ^ 47

/-- The size of the poison unit and location at a cell address (R100, R181): a 64-byte line in HBM and host memory, a
32-byte granule in SRAM. -/
def unitSize (a : Nat) : Nat := if isHbm a || isHost a then 64 else 32

/-- The first address of the unit that holds a cell address. -/
def unitOf (a : Nat) : Nat := a - a % unitSize a

/-- Whether the unit at a cell address is poisoned. -/
def State.poisonedAt (s : State) (a : Nat) : Bool := s.poison.contains (unitOf a)

/-- Whether a cell address lies in storage whose granules are coded over banks: a tarn, a pond or a reservoir (R179). -/
def isSram (a : Nat) : Bool := isTarn a || isRes a || (2 ^ 47 ≤ a && a < 2 ^ 47 + 49152 * 4096)

/-- The storage of a cell, as a number: a tarn, a reservoir quarter, a pond. -/
def storageOf (a : Nat) : Nat :=
  if isTarn a then (a - 2 ^ 46) / 2 ^ 18 else if isRes a then 2 ^ 32 + (a - resBase) / 2 ^ 24
  else 2 ^ 33 + (a - 2 ^ 47) / 4096

/-- The banks of a granule that hold an error and are not marked failed (R179). -/
def State.bankErrors (s : State) (a : Nat) : List Nat :=
  (List.range 11).filter (fun k => (tget s.upsets (unitOf a) 0).testBit k && !s.failed.contains (storageOf a * 16 + k))

/-- Whether the code of a granule cannot correct it (R179): an error in two banks, or in one with two banks or more marked failed
(log 20). -/
def State.lost (s : State) (a : Nat) : Bool :=
  let n := (s.bankErrors a).length
  2 ≤ n || (n = 1 && 2 ≤ ((List.range 11).filter (fun k => s.failed.contains (storageOf a * 16 + k))).length)

/-- A number inserted in a rising list. -/
def insertSorted (l : List Nat) (a : Nat) : List Nat :=
  match l with
  | [] => [a]
  | j :: r => if a < j then a :: j :: r else if a = j then j :: r else j :: insertSorted r a

/-- Marking a unit poisoned: none of its old contents is kept (R181, R429). -/
def State.poisonUnit (s : State) (a : Nat) : State :=
  { s.putZero (unitOf a) (unitSize a) with poison := insertSorted s.poison (unitOf a), upsets := tdel s.upsets (unitOf a) }

/-- The unit at an address made clean, before its bytes are stored (R181). -/
def State.cleanUnit (s : State) (a : Nat) : State :=
  { s with poison := s.poison.filter (· != unitOf a), upsets := tdel s.upsets (unitOf a) }

end Sys2Proof.Machine
end

