-- ==== Sys2Proof/Machine/Crypt.lean ====
section
/-!
DEFINITION. What the cipher units compute: the owner of a frame, the tweak, the stored form and the MAC of a line and of a metadata node,
and how a stored line verifies (R417, R419, R421 to R424, R427, R429; spec/16_cipher.md).
-/
namespace Sys2Proof.Machine
open Sys2Proof

/-! ### Owners (R419) -/

/-- The owner entry of the frame at a physical address (R419). The frames of a VD's save area are its own (R401, R431), numbered from
2^29 on (log 23). -/
def State.frameOf (s : State) (a : Nat) : Frame :=
  match s.vds.find? (fun x => x.2.present && x.2.saveBase ≤ a && a < x.2.saveBase + x.2.saveSize) with
  | some x => { kind := 1, owner := x.1, num := 2 ^ 29 + (a - x.2.saveBase) / 4096 }
  | none => tget s.cipher.frames (a / 4096) Frame.unowned

/-- The number of an owner in the key store: a VD, or 128 + a window slot. -/
def Frame.ownerKey (f : Frame) : Nat := if f.kind = 2 then 128 + f.owner else f.owner

/-! ### The stored form of a line (R421, R422, R427, R429) -/

/-- The tweak of a data line (R421): locator, owner, domain, major, minor, poison, MAC, block. -/
def tweak (locator owner : Nat) (window : Bool) (major minor : Nat) (poison mac : Bool) (block : Nat) : BitVec 128 :=
  BitVec.ofNat 128 (locator % 2 ^ 40 * 2 ^ 88 + owner % 128 * 2 ^ 81 + b2n window * 2 ^ 80 + major % 2 ^ 64 * 2 ^ 16
    + minor % 128 * 2 ^ 9 + b2n poison * 8 + b2n mac * 4 + block % 4)

/-- The tweak of a metadata node (R421): level and index, owner of its tree, the parent's major counter and the node's minor counter. -/
def nodeTweak (level index owner major minor : Nat) (mac : Bool) (block : Nat) : BitVec 128 :=
  BitVec.ofNat 128 ((level % 16 * 2 ^ 36 + index % 2 ^ 36) * 2 ^ 88 + owner % 128 * 2 ^ 81 + owner / 128 % 2 * 2 ^ 80
    + major % 2 ^ 64 * 2 ^ 16 + minor % 128 * 2 ^ 9 + 16 + b2n mac * 4 + block % 4)

/-- The 64 bytes of a counter line or tree node (R424). -/
def Counter.bytes (c : Counter) : List Byte :=
  toLe 64 (c.major % 2 ^ 64 + ((List.range 64).map (fun i => tget c.minors i 0 % 128 * 2 ^ (64 + 7 * i))).sum)

/-- The tweak of the line at a physical address under its present counters. -/
def State.lineTweak (s : State) (a : Nat) (poison mac : Bool) (block : Nat) : BitVec 128 :=
  let f := s.frameOf a
  let c := tget s.cipher.counters (a / 4096) Counter.zero
  tweak (a / 64) f.owner (f.kind = 2) c.major (tget c.minors (a / 64 % 64) 0) poison mac block

/-- Block `b` of a line: bytes 16·b to 16·b + 15 in address order, the first most significant (R421, R422). -/
def lineBlock (l : List Byte) (b : Nat) : BitVec 128 := BitVec.ofNat 128 (fromLe ((l.drop (16 * b)).take 16).reverse)

/-- The ciphertext of a line under a data key (R422). -/
def cipherBlocks (kd : BitVec 256) (tw : Nat → BitVec 128) (l : List Byte) : List (BitVec 128) :=
  (List.range 4).map (fun b => lineBlock l b ^^^ Config.aes256 kd (tw b))

/-- The MAC of four blocks under a MAC key (R422). -/
def macOf (km : BitVec 256) (tw : BitVec 128) (c : List (BitVec 128)) : BitVec 64 :=
  ((Config.ghash (Config.aes256 km 0) (c ++ [512#128])) ^^^ Config.aes256 km tw).extractLsb' 64 64

/-- The keys of an owner: none while the owner does not exist (R418). -/
def State.keysOf (s : State) (owner : Nat) : Option (BitVec 256 × BitVec 256) := tfind s.cipher.keys owner

/-- The key of a metadata node (log 4): owner, level, index. -/
def nodeKey (owner level index : Nat) : Nat := (owner * 8 + level) * 2 ^ 30 + index

/-- The MAC of a metadata node (R422): over its plaintext, under its parent's counters. -/
def State.nodeMac (s : State) (km : BitVec 256) (owner level index : Nat) (c : Counter) : BitVec 64 :=
  let p := tget s.cipher.nodes (nodeKey owner (level + 1) (index / 64)) Counter.zero
  macOf km (nodeTweak level index owner p.major (tget p.minors (index % 64) 0) true 0) ((List.range 4).map (lineBlock c.bytes))

/-- The bytes that a line is encrypted from: 64 zero bytes where it is poisoned (R429). -/
def State.linePlain (s : State) (a : Nat) : List Byte := if s.poisonedAt a then List.replicate 64 0 else s.bytes (unitOf a) 64

/-- What a stack holds for the line at a physical address: ciphertext and MAC (R422, R423, R429): those of its last write, or what was put
in their place behind the unit's back. Nothing outside HBM, nor for a frame that no owner entry names (R417). -/
def State.storedLine (s : State) (a : Nat) : Option (List (BitVec 128) × BitVec 64) :=
  if !isHbm a || (s.frameOf a).kind = 0 then none
  else
    match tfind s.cipher.raw (unitOf a), s.keysOf (s.frameOf a).ownerKey with
    | some x, _ => some x
    | none, some (kd, km) =>
      let p := s.poisonedAt a
      let c := cipherBlocks kd (fun b => s.lineTweak a p false b) (s.linePlain a)
      some (c, macOf km (s.lineTweak a p true 0) c)
    | none, none => none

/-- How a read of a unit comes out (R427, R428). -/
inductive Read where
  | clean | poisoned | failed
  deriving DecidableEq, Repr

/-- How ciphertext and MAC that stand at a line come out under its present owner and counters (R427): the MAC is that of the ciphertext
with `T[3]` 0, or 1, or neither. -/
def State.verify (s : State) (a : Nat) (x : List (BitVec 128) × BitVec 64) : Read :=
  match s.keysOf (s.frameOf a).ownerKey with
  | none => .failed
  | some (_, km) =>
    if x.2 = macOf km (s.lineTweak a false true 0) x.1 then .clean
    else if x.2 = macOf km (s.lineTweak a true true 0) x.1 then .poisoned
    else .failed

/-- The bytes of a block, the most significant first. -/
def aesBytes (b : BitVec 128) : List Byte := (toLe 16 b.toNat).reverse

/-- The plaintext of a line's ciphertext under its present owner and counters (R422, R427). -/
def State.decryptLine (s : State) (a : Nat) (c : List (BitVec 128)) : List Byte :=
  match s.keysOf (s.frameOf a).ownerKey with
  | none => []
  | some (kd, _) => (List.range 4).flatMap (fun b => aesBytes (c.getD b 0 ^^^ Config.aes256 kd (s.lineTweak a false false b)))

end Sys2Proof.Machine
end

