-- ==== Sys2Proof/Machine/Ops.lean ====
section
/-!
DEFINITION. Named operations over the state: access to pilots, elements, edges, VDs and regions; events and usage
log; stores and loads of whole units with poison, counters and integrity; taking a trap and returning from one.
-/
namespace Sys2Proof.Machine
open Sys2Proof

/-- What every meaning answers: a next state. -/
abbrev Out := Host.Outcome State Fault Refusal

/-! ### Numbers of the arrangement (R8) -/

/-- The package-wide column of an element. -/
def colOf (e : Nat) : Nat := e / 128
/-- The row of an element. -/
def rowOf (e : Nat) : Nat := e % 128
/-- The number of the element at a column and row. -/
def elemAt (col row : Nat) : Nat := col * 128 + row
/-- The pilot of the band that holds a column. -/
def pilotOfCol (col : Nat) : Nat := col / 8
/-- The strip of a column. -/
def stripOf (col : Nat) : Nat := col / 16
/-- The row domain of an element: die · 16 + domain. -/
def domainOf (e : Nat) : Nat := colOf e / 64 * 16 + rowOf e / 8
/-- The memory-port die (stack) of a column end: 2 · die + side (R98). -/
def stackOf (col side : Nat) : Nat := 2 * (col / 64) + side
/-- The cycle number of the switch domain (R5). -/
def State.cycle (s : State) : Nat := 2 * s.chron.toNat + b2n s.half

/-! ### Access to the tables -/

/-- A pilot. -/
def State.pilot (s : State) (p : Nat) : Pilot := tget s.pilots p Pilot.reset
/-- The state with a pilot replaced. -/
def State.setPilot (s : State) (p : Nat) (v : Pilot) : State := { s with pilots := tset s.pilots p v }
/-- The pilot whose instruction runs. -/
def State.me (s : State) : Pilot := s.pilot s.cur.pilot
/-- The state with the acting pilot replaced. -/
def State.setMe (s : State) (v : Pilot) : State := s.setPilot s.cur.pilot v
/-- An element. -/
def State.elem (s : State) (e : Nat) : Elem := tget s.elems e Elem.reset
/-- The state with an element replaced. -/
def State.setElem (s : State) (e : Nat) (v : Elem) : State := { s with elems := tset s.elems e v }
/-- An edge unit, numbered 2 · column + side. -/
def State.edge (s : State) (g : Nat) : Edge := tget s.edges g Edge.reset
/-- The state with an edge unit replaced. -/
def State.setEdge (s : State) (g : Nat) (v : Edge) : State := { s with edges := tset s.edges g v }
/-- A virtual device. -/
def State.vd (s : State) (v : Nat) : Vd := tget s.vds v Vd.absent
/-- The state with a virtual device replaced. -/
def State.setVd (s : State) (v : Nat) (d : Vd) : State := { s with vds := tset s.vds v d }
/-- A virtual device changed by a function. -/
def State.modVd (s : State) (v : Nat) (f : Vd → Vd) : State := s.setVd v (f (s.vd v))
/-- An element changed by a function. -/
def State.modElem (s : State) (e : Nat) (f : Elem → Elem) : State := s.setElem e (f (s.elem e))
/-- An edge unit changed by a function. -/
def State.modEdge (s : State) (g : Nat) (f : Edge → Edge) : State := s.setEdge g (f (s.edge g))
/-- A pilot changed by a function. -/
def State.modPilot (s : State) (p : Nat) (f : Pilot → Pilot) : State := s.setPilot p (f (s.pilot p))

/-- Whether a region holds a band. -/
def Region.holds (r : Region) (p : Nat) : Bool := r.lead ≤ p && p < r.lead + r.bands

/-- The region that holds a band (R20: at most one). -/
def State.regionAt (s : State) (p : Nat) : Option Region := s.regions.find? (fun r => r.holds p)

/-- The region of a lead pilot. -/
def State.region (s : State) (lead : Nat) : Option Region := s.regions.find? (fun r => r.lead = lead)

/-- The region of an element. -/
def State.regionOfElem (s : State) (e : Nat) : Option Region := s.regionAt (pilotOfCol (colOf e))

/-- A region changed by a function. -/
def State.modRegion (s : State) (lead : Nat) (f : Region → Region) : State :=
  { s with regions := s.regions.map (fun r => if r.lead = lead then f r else r) }

/-- A region has acted (R486): the band names it. -/
def State.touch (s : State) (p : Nat) : State :=
  { s with regions := s.regions.map (fun r => if r.holds p then { r with seen := s.chron.toNat } else r) }

/-- The first column of a region. -/
def Region.col0 (r : Region) : Nat := 8 * r.lead

/-- The elements of a region in element order: column, then row. -/
def Region.elems (r : Region) : List Nat := (List.range (r.bands * 1024)).map (fun i => r.col0 * 128 + i)

/-- The column ends of a region, numbered 2 · column + side. -/
def Region.ends (r : Region) : List Nat := (List.range (r.bands * 16)).map (fun i => 2 * r.col0 + i)

/-- The block of a region that a bank's configuration belongs to (R218): the running block, its successor, or the
predecessor that has committed and whose last elements have yet to swap (R334). -/
def Region.blockOf (r : Region) (inc : Nat) : Option Block :=
  [r.cur, r.succ, r.prev].findSome? (fun o => o.filter (fun b => b.inc = inc))

/-- One block of a region changed, by incarnation. -/
def Region.modBlock (r : Region) (inc : Nat) (f : Block → Block) : Region :=
  let g : Option Block → Option Block := fun o => o.map (fun b => if b.inc = inc then f b else b)
  { r with cur := g r.cur, succ := g r.succ, prev := g r.prev }

/-- Whether the clocks of a region are gated by a freeze (R400). -/
def State.gated (s : State) (r : Region) : Bool := s.snaps.any (fun o => o.region = r.lead && o.gated)

/-- Whether an entry of a region's record, by source and port stamp, has still to be re-issued by a restore (R389). -/
def State.unissued (s : State) (r : Region) (q : Nat × Nat) : Bool := s.snaps.any (fun o => o.region = r.lead && o.todo.contains q)

/-- Whether a pilot acts: it has a region, no tide has stopped it, and its clocks are not gated (R396, R400). -/
def State.acts (s : State) (p : Nat) : Bool :=
  match s.regionAt p with
  | some r => !s.snaps.any (fun o => o.region = r.lead && (o.gated || !o.freeze))
  | none => false

/-- Whether the routers and engines of a region move: it runs a block, no fault has stopped it, and it is not gated. They go on while a
block drains (R34). -/
def State.alive (s : State) (r : Region) : Bool := r.running = .running && (!r.stopped || r.ending) && !s.gated r

/-- Whether the elements of a region fire in this cycle: it runs a block, is not gated, and no fault or commit has stopped it before
this cycle. A fault stops the elements at the end of the cycle in which it is found (R239, R240). -/
def State.fires (s : State) (r : Region) : Bool :=
  r.running = .running && (!r.stopped || (!r.ending && r.faultAt = s.cycle + 1)) && !s.gated r

/-- The die of a band. -/
def dieOfBand (p : Nat) : Nat := p / 8

/-- The partition (first strip) that a strip belongs to, 255 if none (R18). -/
def State.partOf (s : State) (strip : Nat) : Nat := vg s.strips strip 255

/-- The strips of a partition. -/
def State.partStrips (s : State) (part : Nat) : List Nat := (List.range 24).filter (fun i => s.partOf i = part)

/-- Whether a band is harvested (R17). -/
def State.harvested (s : State) (p : Nat) : Bool := s.harvest.getLsbD p

/-! ### Steps that follow, events, usage log -/

/-- A step of the table that this one makes due: it takes the next turn (log 1). -/
def State.soon (s : State) (i : Instr) (x y z : Nat) : State := { s with agenda := .event i x y z :: s.agenda }

/-- An event delivered to Voxkan: source, code, VD (255 none), detail (R483, R484). At most 1,024 are held; the others
are counted (R485). -/
def State.raise (s : State) (src code vd : Nat) (detail : List DWord) : State :=
  if s.vox.events.length < 1024 then
    { s with vox := { s.vox with
        events := s.vox.events ++ [{ chron := s.chron, src := src, code := code, vd := vd, detail := detail }] } }
  else { s with vox := { s.vox with lost := s.vox.lost + 1 } }

/-- An MSI-X message: function (0 the physical function, n the VF of VD n - 1) and vector: 8 vectors on the physical
function, 64 on a VF (R442). -/
def State.msi (s : State) (fn vec : Nat) : State :=
  if fn ≤ 96 && vec < (if fn = 0 then 8 else 64) then { s with vox := { s.vox with msix := s.vox.msix ++ [(fn, vec)] } } else s

/-- Bytes of a number of doublewords, little-endian. -/
def dwBytes (l : List DWord) : List Byte := l.flatMap (fun w => toLe 8 w.toNat)

/-- The 64 bytes of a log entry (R475). -/
def LogEntry.bytes (vd : Nat) (e : LogEntry) : List Byte :=
  toLe 8 e.seq ++ dwBytes [e.chron, e.guest] ++ toLe 2 e.kind ++ toLe 1 vd ++ toLe 5 0 ++ dwBytes e.vals
    ++ toLe (8 * (4 - e.vals.length)) 0

/-- The 64 bytes of a chain value. -/
def hashBytes (h : BitVec 512) : List Byte := toLe 64 h.toNat

/-- How many entries the log's ring holds (R478). -/
def UsageLog.count (l : UsageLog) : Nat :=
  l.openEntries.length + (l.batches.map (fun b => b.entries.length)).sum

/-- One entry added to the chain and the open batch (R477). -/
def UsageLog.add (l : UsageLog) (vd : Nat) (chron guest : DWord) (kind : Nat) (vals : List DWord) : UsageLog :=
  let e : LogEntry := { seq := l.next, chron := chron, guest := guest, kind := kind, vals := vals }
  { l with openEntries := l.openEntries ++ [e], next := l.next + 1,
           openedAt := if l.openEntries.isEmpty then chron.toNat else l.openedAt,
           hash := Config.sha512 (hashBytes l.hash ++ e.bytes vd) }

/-- The open batch closed (R477). -/
def UsageLog.closeBatch (l : UsageLog) (now : DWord) : UsageLog :=
  if l.openEntries.isEmpty then l
  else { l with batches := l.batches ++ [{ entries := l.openEntries, chron := now, hash := l.hash }], openEntries := [] }

/-- A batch that holds 256 entries closes at once (R477). -/
def UsageLog.closeFull (l : UsageLog) (now : DWord) : UsageLog := if 256 ≤ l.openEntries.length then l.closeBatch now else l

/-- An entry for the usage log of a VD, under the rule of a full ring (R475 to R478). -/
def State.log (s : State) (vd kind : Nat) (vals : List DWord) : State :=
  s.modVd vd (fun d =>
    let l := d.log
    if l.count < 16384 then { d with log := (l.add vd s.chron d.guest kind vals).closeFull s.chron }
    else if kind = 2 then
      let old := l.held.getD [0, 0, 0, 0]
      { d with log := { l with held := some (List.zipWith (· + ·) old vals) } }
    else { d with log := { l with lost := l.lost + 1 } })

/-- The VDs that have a region in a row domain (R25, R198). -/
def State.vdsOfDomain (s : State) (dom : Nat) : List Nat :=
  ((s.regions.filter (fun r => dieOfBand r.lead = dom / 16)).map (fun r => r.vd)).eraseDups

/-- A quarantine's start (R472): logged once, with its cause. -/
def State.quarantine (s : State) (vd cause : Nat) : State :=
  if (s.vd vd).present && !(s.vd vd).quarantined then
    (s.modVd vd (fun d => { d with quarantined := true, cause := cause })).log vd 0x0B [1, BitVec.ofNat 64 cause]
  else s

/-! ### HBM lines, poison and integrity -/

/-- The VDs that an integrity failure on a frame quarantines: its owner, or the window's opener and members (R472). -/
def State.victims (s : State) (f : Frame) : List Nat :=
  if f.kind = 1 then [f.owner]
  else if f.kind = 2 then
    match tfind s.cipher.windows f.owner with
    | some w => w.opener :: w.members
    | none => []
  else []

/-- An integrity event (R428): it names stack, line, owner and level; the quarantines it causes come next (R472). -/
def State.integrity (s : State) (a level : Nat) : State :=
  let f := s.frameOf a
  let s := s.raise (0x10 + a / 0xC00000000) 0x0010 (if f.kind = 1 then f.owner else 255)
    [BitVec.ofNat 64 (a / 0xC00000000), BitVec.ofNat 64 (a / 64), BitVec.ofNat 64 f.ownerKey, BitVec.ofNat 64 level]
  (s.victims f).foldl (fun t v => t.soon .quarantine v 1 0) s

/-- Lines of a frame that fail their check, which `bad` names, written as poisoned lines in a group re-encryption (R425). -/
def State.reencrypt (s : State) (f : Nat) (bad : List Nat) : State :=
  let s := { s with cipher := { s.cipher with raw := s.cipher.raw.filter (fun x => x.1 / 4096 != f) } }
  bad.foldl (fun t a => (t.poisonUnit a).integrity a 0) s

/-- The outcome of reading the unit at a cell address (R427): a metadata node on its way fails, or what stands at the line verifies or
does not; what the unit itself wrote there last verifies. -/
def State.check (s : State) (a : Nat) : Read :=
  if isHbm a && s.cipher.badCounters.contains (a / 4096) then .failed
  else
    match (if isHbm a then tfind s.cipher.raw (unitOf a) else none) with
    | some x => s.verify a x
    | none => if s.poisonedAt a || s.lost a then .poisoned else .clean

/-- The lines of a frame that fail their own check (R427). -/
def State.failing (s : State) (f : Nat) : List Nat :=
  (s.cipher.raw.filter (fun x => x.1 / 4096 = f && s.verify x.1 x.2 = .failed)).map (fun x => x.1)

/-- The level that fails for a line that fails its check (R428): 0 the line, 1 the counter line of its frame, 2 to 5 a node above it. -/
def State.failLevel (s : State) (a : Nat) : Nat :=
  if s.cipher.badCounters.contains (a / 4096) then tget s.cipher.levels (a / 4096) 1 else 0

/-- How many nodes the cache of a stack unit holds (R426). -/
def cacheLines : Nat := 16384

/-- A node in the cache of a stack's unit. -/
def cacheKey (stack key : Nat) : Nat := stack * 2 ^ 44 + key

/-- Whether a node lies in the cache of some unit, where it is trusted (R426). -/
def Cipher.trusts (k : Cipher) (key : Nat) : Bool := k.cached.any (fun c => c % 2 ^ 44 = key)

/-- A node put in the cache of a stack's unit (R426). One that makes the cache too full sends its first node back (DESIGN CHOICE, log 45:
which node goes is not given). -/
def State.cacheNode (s : State) (stack key : Nat) : State :=
  if s.cipher.cached.contains (cacheKey stack key) then s
  else
    let t := { s with cipher := { s.cipher with cached := insertSorted s.cipher.cached (cacheKey stack key) } }
    if s.cipher.cached.length < cacheLines then t
    else
      let mine := s.cipher.cached.filter (fun c => c / 2 ^ 44 = stack)
      let x := mine.headD 0 % 2 ^ 44
      if mine.length < cacheLines then t
      else t.soon .nodeWriteBack (x / 2 ^ 33) (x / 2 ^ 30 % 8) (x % 2 ^ 30 + stack * 2 ^ 30)

/-- A frame under a new owner entry, its counter line afresh, with no line that was changed behind the unit's back (R419, R436). -/
def State.newFrame (s : State) (f : Nat) (owner : Frame) (major : Nat) : State :=
  { s with cipher := { s.cipher with
    raw := s.cipher.raw.filter (fun x => x.1 / 4096 != f), badCounters := s.cipher.badCounters.filter (fun k => k != f),
    levels := tdel s.cipher.levels f, frames := tset s.cipher.frames f owner,
    counters := tset s.cipher.counters f { major := major, minors := [] } } }

/-- The counter step of a line write (R425): the new state, or none where the major counter is exhausted. -/
def State.advance (s : State) (a : Nat) : Option State :=
  let f := a / 4096
  let i := a / 64 % 64
  let c := tget s.cipher.counters f Counter.zero
  let fr := s.frameOf a
  let bad := s.failing f
  let touch : State → State := fun t => t.cacheNode (a / 0xC00000000) (nodeKey fr.ownerKey 1 fr.num)
  if tget c.minors i 0 < 127 then
    some (touch { s with cipher := { s.cipher with
      counters := tset s.cipher.counters f { c with minors := tset c.minors i (tget c.minors i 0 + 1) } } })
  else if c.major = 2 ^ 64 - 1 then none
  else
    let s := touch { s with cipher := { s.cipher with
      counters := tset s.cipher.counters f { major := c.major + 1, minors := [] } } }
    some (s.reencrypt f bad)

/-- A host-cached copy of a line that a device store makes stale: the snoop of R445 becomes due. -/
def State.snoop (s : State) (a : Nat) : State :=
  if s.hb.hostLines.contains (a / 64 * 64) && !s.hb.snoops.contains (a / 64 * 64) then
    { s with hb := { s.hb with snoops := s.hb.snoops ++ [a / 64 * 64] } }
  else s

/-- A store of bytes within one unit (R100, R181, R425, R428, R429): a poisoned store poisons the unit; a clean store
makes it clean; a granule of SRAM that its code cannot correct counts as poisoned (R179). A store into a line that fails its check writes a poisoned line; one into a frame whose counter line
fails writes nothing; one that exhausts the major counter is lost. Each raises an integrity event; the line that a group re-encryption has
found failing has raised its own (R425). -/
def State.storeUnit (s : State) (a : Nat) (l : List Byte) (poison : Bool) : State :=
  if isHbm a then
    if s.cipher.badCounters.contains (a / 4096) then s.integrity a (s.failLevel a)
    else
      let s := s.snoop a
      let failing := s.check a = .failed
      match s.advance a with
      | none => s.integrity a 0
      | some t =>
        let u := if (tfind t.cipher.raw (unitOf a)).isSome then
            { t with cipher := { t.cipher with raw := tdel t.cipher.raw (unitOf a) } } else t
        if failing then
          if (tfind t.cipher.raw (unitOf a)).isSome then (u.poisonUnit a).integrity a 0 else u.poisonUnit a
        else if poison then u.poisonUnit a
        else (u.cleanUnit a).put a l
  else
    let s := if isRes a then s.snoop a else s
    if poison then s.poisonUnit a
    else if s.lost a then ((s.cleanUnit a).putZero (unitOf a) (unitSize a)).put a l
    else (s.cleanUnit a).put a l

/-- The state after a read: a failed check raises an integrity event (R428). -/
def State.afterRead (s : State) (a : Nat) : State :=
  match s.check a with
  | .failed => s.integrity a (s.failLevel a)
  | _ => s

/-- Whether a read of the unit gives poisoned data (R181, R428). -/
def State.badAt (s : State) (a : Nat) : Bool := s.check a != .clean

/-! ### Traps of a pilot (R317 to R319) -/

/-- The chart base (R314). -/
def chartBase : DWord := 0xFFF0000000000000

/-- `stop` (R319): the trap registers are written and the pilot halts. -/
def Pilot.stop (p : Pilot) (cause sub : Nat) (val resume : DWord) : Pilot :=
  { p with trapcause := BitVec.ofNat 64 (sub * 65536 + cause), trapval := val, trapaddr := resume, run := .stopped,
           waitSince := none }

/-- `PSTATUS`.IE (R315). -/
def Pilot.ie (p : Pilot) : Bool := p.pstatus.getLsbD 0
/-- `PSTATUS`.PIE (R315). -/
def Pilot.pie (p : Pilot) : Bool := p.pstatus.getLsbD 1
/-- `PSTATUS`.TH (R315). -/
def Pilot.th (p : Pilot) : Bool := p.pstatus.getLsbD 2
/-- `PSTATUS`.EFE (R315). -/
def Pilot.efe (p : Pilot) : Bool := p.pstatus.getLsbD 5
/-- `PSTATUS`.SFE (R315). -/
def Pilot.sfe (p : Pilot) : Bool := p.pstatus.getLsbD 6

/-- The status after a trap is entered: PIE := IE, IE := 0, TH := 1 (R318). -/
def trapStatus (w : DWord) : DWord :=
  (w &&& ~~~ 7#64) ||| (if w.getLsbD 0 then 2#64 else 0#64) ||| 4#64

/-- The status after `ERET`: IE := PIE, TH := 0 (R348). -/
def eretStatus (w : DWord) : DWord :=
  (w &&& ~~~ 5#64) ||| (if w.getLsbD 1 then 1#64 else 0#64)

/-- `take_trap` (R318): cause, sub-cause, value and the address at which `ERET` resumes. -/
def Pilot.takeTrap (p : Pilot) (cause sub : Nat) (val resume : DWord) : Pilot :=
  if p.th || p.tvec &&& 0xFFFC = 0 then p.stop cause sub val resume
  else
    { p with trapcause := BitVec.ofNat 64 (sub * 65536 + cause), trapval := val, trapaddr := resume,
             pstatus := trapStatus p.pstatus, pc := chartBase + (p.tvec &&& 0xFFFC), waitSince := none }

/-- A synchronous trap of the running instruction: it resumes at the instruction itself (R317). -/
def State.trap (s : State) (cause sub : Nat) (val : DWord) : Out :=
  .next (s.setMe (s.me.takeTrap cause sub val s.me.pc))

/-- Return from a trap (R348). -/
def Pilot.eret (p : Pilot) : Pilot := { p with pc := p.trapaddr, pstatus := eretStatus p.pstatus }

/-! ### Pilot registers -/

/-- A register: `x0` reads zero (R313). -/
def Pilot.get (p : Pilot) (r : Reg) : DWord := if r = 0 then 0 else vg p.x r.toNat 0

/-- A register written: `x0` ignores writes (R313). -/
def Pilot.set (p : Pilot) (r : Reg) (v : DWord) : Pilot := if r = 0 then p else { p with x := vs p.x r.toNat v }

/-- The next instruction. -/
def Pilot.step (p : Pilot) : Pilot := { p with pc := p.pc + 4 }

/-- A result written to `xd` and the next instruction taken. -/
def State.result (s : State) (d : Reg) (v : DWord) : Out := .next (s.setMe ((s.me.set d v).step))

/-- The next instruction taken, with nothing else changed. -/
def State.done (s : State) : Out := .next (s.setMe s.me.step)

/-- The word of the running instruction, as its chart memory holds it (the value of trap 0x0001, R320). -/
def State.word (s : State) : DWord :=
  BitVec.ofNat 64 (s.readLe (chartCell s.cur.pilot (s.me.pc.toNat % 65536)) 4)

/-- The illegal-instruction trap (R71, R320). -/
def State.illegal (s : State) : Out := s.trap 1 0 s.word

/-- A chart address (R314). -/
def isChart (a : DWord) : Bool := chartBase ≤ a && a < chartBase + 65536

end Sys2Proof.Machine
end

