-- ==== Sys2Proof/Machine/PilotAlu.lean ====
section
/-!
DEFINITION. The pilot's integer instructions, branches and jumps (R322, R325, spec/12_pilot.md).
-/
namespace Sys2Proof.Machine
open Sys2Proof

/-- The sign-extended immediate (R73). -/
def simm (i : BitVec 16) : DWord := i.signExtend 64
/-- The zero-extended immediate (R73). -/
def zimm (i : BitVec 16) : DWord := i.zeroExtend 64

/-- Signed quotient rounded toward zero; -1 for a zero divisor (R322). -/
def pilotDiv (a b : DWord) : DWord := if b = 0 then BitVec.allOnes 64 else a.sdiv b
/-- Unsigned quotient; all ones for a zero divisor (R322). -/
def pilotDivn (a b : DWord) : DWord := if b = 0 then BitVec.allOnes 64 else a / b
/-- Signed remainder; the dividend for a zero divisor (R322). -/
def pilotRem (a b : DWord) : DWord := if b = 0 then a else a.srem b
/-- Unsigned remainder; the dividend for a zero divisor (R322). -/
def pilotRemn (a b : DWord) : DWord := if b = 0 then a else a % b
/-- High 64 bits of the signed 128-bit product (R322). -/
def pilotMulh (a b : DWord) : DWord := BitVec.ofInt 64 (a.toInt * b.toInt / 2 ^ 64)
/-- Leading zero bits, 0 to 64 (R322). -/
def pilotClz (a : DWord) : DWord := BitVec.ofNat 64 (64 - bitLen a.toNat)
/-- The number of one bits among the lowest `n` of a number. -/
def popCount (w : Nat) : Nat → Nat
  | 0 => 0
  | n + 1 => w % 2 + popCount (w / 2) n
/-- One bits (R322). -/
def pilotPopc (a : DWord) : DWord := BitVec.ofNat 64 (popCount a.toNat 64)
/-- A comparison's result (R322). -/
def ofBool (b : Bool) : DWord := if b then 1 else 0
/-- A shift count: bits [5:0] (R322). -/
def cnt6 (b : DWord) : Nat := b.toNat % 64

/-- `ADD` (R322): the sum modulo 2^64. -/
def execAdd (d a b : Reg) (s : State) : Out :=
  s.result d (s.me.get a + s.me.get b)

/-- `SUB` (R322): the difference modulo 2^64. -/
def execSub (d a b : Reg) (s : State) : Out :=
  s.result d (s.me.get a - s.me.get b)

/-- `AND` (R322): bitwise. -/
def execAnd (d a b : Reg) (s : State) : Out :=
  s.result d (s.me.get a &&& s.me.get b)

/-- `OR` (R322): bitwise. -/
def execOr (d a b : Reg) (s : State) : Out :=
  s.result d (s.me.get a ||| s.me.get b)

/-- `XOR` (R322): bitwise. -/
def execXor (d a b : Reg) (s : State) : Out :=
  s.result d (s.me.get a ^^^ s.me.get b)

/-- `SHL` (R322): shift left by `xb`[5:0]. -/
def execShl (d a b : Reg) (s : State) : Out :=
  s.result d (s.me.get a <<< cnt6 (s.me.get b))

/-- `SHR` (R322): logical shift right by `xb`[5:0]. -/
def execShr (d a b : Reg) (s : State) : Out :=
  s.result d (s.me.get a >>> cnt6 (s.me.get b))

/-- `SRA` (R322): arithmetic shift right by `xb`[5:0]. -/
def execSra (d a b : Reg) (s : State) : Out :=
  s.result d ((s.me.get a).sshiftRight (cnt6 (s.me.get b)))

/-- `MUL` (R322): the low 64 bits of the product. -/
def execMul (d a b : Reg) (s : State) : Out :=
  s.result d (s.me.get a * s.me.get b)

/-- `MULH` (R322): the high 64 bits of the signed product. -/
def execMulh (d a b : Reg) (s : State) : Out :=
  s.result d (pilotMulh (s.me.get a) (s.me.get b))

/-- `DIVN` (R322): unsigned quotient. -/
def execDivn (d a b : Reg) (s : State) : Out :=
  s.result d (pilotDivn (s.me.get a) (s.me.get b))

/-- `REM` (R322): signed remainder. -/
def execRem (d a b : Reg) (s : State) : Out :=
  s.result d (pilotRem (s.me.get a) (s.me.get b))

/-- `REMN` (R322): unsigned remainder. -/
def execRemn (d a b : Reg) (s : State) : Out :=
  s.result d (pilotRemn (s.me.get a) (s.me.get b))

/-- `SLT` (R322): signed less-than. -/
def execSlt (d a b : Reg) (s : State) : Out :=
  s.result d (ofBool ((s.me.get a).slt (s.me.get b)))

/-- `DIV` (R322): signed quotient. -/
def execDiv (d a b : Reg) (s : State) : Out :=
  s.result d (pilotDiv (s.me.get a) (s.me.get b))

/-- `SLTN` (R322): unsigned less-than. -/
def execSltn (d a b : Reg) (s : State) : Out :=
  s.result d (ofBool ((s.me.get a).ult (s.me.get b)))

/-- `MIN` (R322): signed minimum. -/
def execMin (d a b : Reg) (s : State) : Out :=
  s.result d (if (s.me.get a).sle (s.me.get b) then s.me.get a else s.me.get b)

/-- `MAX` (R322): signed maximum. -/
def execMax (d a b : Reg) (s : State) : Out :=
  s.result d (if (s.me.get a).sle (s.me.get b) then s.me.get b else s.me.get a)

/-- `CLZ` (R322): leading zero bits. -/
def execClz (d a : Reg) (s : State) : Out :=
  s.result d (pilotClz (s.me.get a))

/-- `POPC` (R322): one bits. -/
def execPopc (d a : Reg) (s : State) : Out :=
  s.result d (pilotPopc (s.me.get a))

/-- `ADDI` (R322, R73): with the sign-extended immediate. -/
def execAddi (d a : Reg) (imm : BitVec 16) (s : State) : Out :=
  s.result d (s.me.get a + simm imm)

/-- `ANDI` (R322, R73): with the zero-extended immediate. -/
def execAndi (d a : Reg) (imm : BitVec 16) (s : State) : Out :=
  s.result d (s.me.get a &&& zimm imm)

/-- `ORI` (R322, R73): with the zero-extended immediate. -/
def execOri (d a : Reg) (imm : BitVec 16) (s : State) : Out :=
  s.result d (s.me.get a ||| zimm imm)

/-- `XORI` (R322, R73): with the zero-extended immediate. -/
def execXori (d a : Reg) (imm : BitVec 16) (s : State) : Out :=
  s.result d (s.me.get a ^^^ zimm imm)

/-- `SLTI` (R322, R73): signed less-than the sign-extended immediate. -/
def execSlti (d a : Reg) (imm : BitVec 16) (s : State) : Out :=
  s.result d (ofBool ((s.me.get a).slt (simm imm)))

/-- `SHLI` (R322, R73): by the count in imm16[5:0]. -/
def execShli (d a : Reg) (c : BitVec 6) (s : State) : Out :=
  s.result d (s.me.get a <<< c.toNat)

/-- `SHRI` (R322, R73): by the count in imm16[5:0]. -/
def execShri (d a : Reg) (c : BitVec 6) (s : State) : Out :=
  s.result d (s.me.get a >>> c.toNat)

/-- `SRAI` (R322, R73): by the count in imm16[5:0]. -/
def execSrai (d a : Reg) (c : BitVec 6) (s : State) : Out :=
  s.result d ((s.me.get a).sshiftRight c.toNat)

/-- `LUI` (R322, R73): the sign-extended immediate times 2^16. -/
def execLui (d : Reg) (imm : BitVec 16) (s : State) : Out :=
  s.result d (simm imm <<< 16)

/-- A branch or jump to a target, with a link register written first; a target outside chart memory traps at the
branch itself and writes nothing (R325). -/
def State.jump (s : State) (link : Reg) (target : DWord) : Out :=
  if isChart target then .next (s.setMe { s.me.set link (s.me.pc + 4) with pc := target })
  else s.trap 7 0 target

/-- A conditional branch: the offset counts words from the next instruction (R73, R325). -/
def State.branch (s : State) (taken : Bool) (off : BitVec 16) : Out :=
  if taken then s.jump 0 (s.me.pc + 4 + (off.signExtend 64 <<< 2)) else s.done

/-- `BEQ` (R325). -/
def execBeq (a b : Reg) (off : BitVec 16) (s : State) : Out :=
  s.branch (s.me.get a == s.me.get b) off

/-- `BNE` (R325). -/
def execBne (a b : Reg) (off : BitVec 16) (s : State) : Out :=
  s.branch (s.me.get a != s.me.get b) off

/-- `BLT` (R325). -/
def execBlt (a b : Reg) (off : BitVec 16) (s : State) : Out :=
  s.branch ((s.me.get a).slt (s.me.get b)) off

/-- `BGE` (R325). -/
def execBge (a b : Reg) (off : BitVec 16) (s : State) : Out :=
  s.branch ((s.me.get b).sle (s.me.get a)) off

/-- `BLTN` (R325). -/
def execBltn (a b : Reg) (off : BitVec 16) (s : State) : Out :=
  s.branch ((s.me.get a).ult (s.me.get b)) off

/-- `BGEN` (R325). -/
def execBgen (a b : Reg) (off : BitVec 16) (s : State) : Out :=
  s.branch ((s.me.get b).ule (s.me.get a)) off

/-- `JAL` (R325, R73): the return address goes to `x31`. -/
def execJal (off : BitVec 26) (s : State) : Out :=
  s.jump 31 (s.me.pc + 4 + (off.signExtend 64 <<< 2))

/-- `JALR` (R325, R73): `xa` is read before `xd` is written; bits [1:0] of the target are cleared. -/
def execJalr (d a : Reg) (imm : BitVec 16) (s : State) : Out :=
  s.jump d ((s.me.get a + simm imm) &&& ~~~ 3#64)

end Sys2Proof.Machine
end

