-- ==== Sys2Proof/Machine/Xlate.lean ====
section
/-!
DEFINITION. Address translation: the walk of R166, the tarn window (R160, R493), the window aperture (R433), the peer
range (R452), and who may reach a frame (R98, R420, R446).
-/
namespace Sys2Proof.Machine
open Sys2Proof

/-- What a virtual address reaches. -/
inductive Place where
  /-- A cell address, with the translation entry that gave it. -/
  | cell (a : Nat) (e : TEntry)
  /-- A byte of a tarn of the VD (R160). -/
  | tarn (a : Nat)
  /-- A byte of an open window of which the VD is a member (R433): slot and cell address. -/
  | window (slot a : Nat)
  /-- A byte of a peer range over a valid route (R452): route and offset. -/
  | peer (r o : Nat)
  /-- A window fault (R433). -/
  | noWindow
  /-- A translation fault with its cause (R171), and the table line that failed its check (0 for none). -/
  | fault (cause bad : Nat)
  deriving DecidableEq, Repr

/-- The tarn window (R160). -/
def tarnWindow : Nat := 0x000FF00000000000
/-- The window aperture (R433). -/
def aperture : Nat := 0x000FE00000000000
/-- The peer range (R452). -/
def peerRange : Nat := 0x000FD00000000000

/-- The physical tarn cell of a VD's layer at a column (R493): none outside the allocation. -/
def State.layerCell (s : State) (vd col side depth o : Nat) : Option Nat :=
  match (s.vd vd).layers[2 * depth + side]? with
  | some ph => some (tarnCell col (ph % 2) (ph / 2) o)
  | none => none

/-- Decoding an address of the tarn window (R160). -/
def State.tarnPlace (s : State) (vd va : Nat) : Place :=
  let o := va - tarnWindow
  let k := o / 0x4000000
  let c := o / 0x400000 % 16
  match (s.partStrips (s.vd vd).part)[k]? with
  | none => .fault 7 0
  | some strip =>
    match s.layerCell vd (16 * strip + c) (o / 0x200000 % 2) (o / 0x40000 % 8) (o % 0x40000) with
    | some a => .tarn a
    | none => .fault 7 0

/-- Decoding an address of the window aperture (R433). -/
def State.windowPlace (s : State) (vd va : Nat) : Place :=
  let slot := (va - aperture) / 0x400000000
  let o := (va - aperture) % 0x400000000
  match tfind s.cipher.windows slot with
  | none => .noWindow
  | some w =>
    if o < w.length && (w.opener = vd || w.members.contains vd) then
      match w.frames[o / 4096]? with
      | some fr => .window slot (fr.1 * 4096 + o % 4096)
      | none => .noWindow
    else .noWindow

/-- Decoding an address of the peer range (R452): a read, an atomic or an invalid route is unmapped. -/
def State.peerPlace (s : State) (vd va : Nat) (send : Bool) : Place :=
  let r := (va - peerRange) / 0x10000000000
  if send && (tfind (s.vd vd).routes r).isSome then .peer r ((va - peerRange) % 0x10000000000) else .fault 1 0

/-- The strips whose quarter holds a physical address: HBM and reservoir quarters (R98). -/
def quarterStrip (a : Nat) : Nat :=
  if isHbm a then a / 0xC00000000 / 2 * 4 + a % 0xC00000000 / 0x300000000
  else (a - resBase) / 0x4000000 / 2 * 4 + (a - resBase) % 0x4000000 / 0x1000000

/-- Whether a VD's partition holds the quarter of a physical address (R98). -/
def State.inPartition (s : State) (vd a : Nat) : Bool :=
  (isHbm a || isRes a) && s.partOf (quarterStrip a) = (s.vd vd).part && (s.vd vd).part != 255

/-- Whether a VD holds the reservoir quarter of a physical address: only then does it see its own data there (R20, R158, R159; log 40). -/
def State.holdsQuarter (s : State) (vd a : Nat) : Bool :=
  (s.vd vd).resident && (s.vd vd).quarters.contains ((a - resBase) / 0x1000000)

/-- Whether the `n` bytes at an address lie in ranges of base and length, one after another (R446). -/
def covered (l : List (Nat × Nat)) (n a : Nat) : Nat → Bool
  | 0 => n = 0
  | k + 1 =>
    n = 0 || (match l.find? (fun g => g.1 ≤ a && a < g.1 + g.2) with
      | some g => covered l (n - (g.1 + g.2 - a)) (g.1 + g.2) k
      | none => false)

/-- Whether an HBM cell that a translation entry names may still be reached: its frame is the VD's own. One that has been released or has
passed to another owner is refused as R420 gives, whatever entry is held (R419). Other cells are judged when the entry is installed. -/
def State.mayReach (s : State) (vd c : Nat) : Bool :=
  !isHbm c || ((tget s.cipher.frames (c / 4096) Frame.unowned).kind = 1 && (tget s.cipher.frames (c / 4096) Frame.unowned).owner = vd)

/-- Whether every frame or granted byte that a leaf maps is the VD's own (R420, R446). -/
def State.leafOk (s : State) (vd pa size : Nat) : Bool :=
  if isHbm pa then
    s.inPartition vd pa && s.inPartition vd (pa + 2 ^ size - 1) &&
      (List.range (2 ^ (size - 12))).all (fun i =>
        let f := tget s.cipher.frames (pa / 4096 + i) Frame.unowned
        f.kind = 1 && f.owner = vd)
  else if isRes pa then
    s.inPartition vd pa && s.inPartition vd (pa + 2 ^ size - 1) && isRes (pa + 2 ^ size - 1)
      && (List.range ((2 ^ size + 0xFFFFFF) / 0x1000000)).all (fun i => s.holdsQuarter vd (pa + 0x1000000 * i))
  else if isHost pa then covered ((s.vd vd).hostRanges.map (fun g => g.2)) (2 ^ size) (pa - hostBase) (s.vd vd).hostRanges.length
  else false

/-- An entry of a table (R166): cause 0x05 where its line is poisoned, uncorrectable or fails its check, cause 0x03 outside the
partition's HBM or in an unowned frame. The line is read under the owner that its frame's entry names (R419, R420; log 16). -/
def State.entry (s : State) (vd table i : Nat) : Except (Nat × Nat) Nat :=
  let a := table + 8 * i
  if !(isHbm a) || !(s.inPartition vd a) || (s.frameOf a).kind = 0 then .error (3, 0)
  else if s.badAt a then .error (5, a)
  else .ok (s.readLe a 8)

/-- The checks of an entry's bits at a level (R166): cause 0x01, 0x04, or the frame and whether it is a leaf. -/
def entryBits (w level : Nat) : Except Nat (Nat × Bool) :=
  if !(bit w 0) then .error 1
  else
    let leaf := bit w 1
    let frame := bits w 12 34 * 4096
    let zero := bits w 60 4 == 0 && bits w 46 6 == 0 && bits w 6 6 == 0 && bits w 2 2 == 0
    let shape := match level with
      | 3 => !leaf
      | 2 => !leaf || frame % 2 ^ 30 == 0
      | 1 => !leaf || frame % 2 ^ 21 == 0
      | _ => leaf
    let c64 := !(bit w 5) || (level == 0 && frame % 65536 == 0)
    let wr := leaf || !(bit w 4)
    if zero && shape && c64 && wr then .ok (frame, leaf) else .error 4

/-- The page size of a leaf, as a power of two (R166). -/
def leafSize (w level : Nat) : Nat :=
  match level with
  | 2 => 30
  | 1 => 21
  | _ => if bit w 5 then 16 else 12

/-- The walk below a table (R166), from a level down. -/
def State.walkFrom (s : State) (vd va : Nat) (write : Bool) (table : Nat) : Nat → Except (Nat × Nat) TEntry
  | 0 => .error (4, 0)
  | n + 1 =>
    let i := if n = 3 then bits va 39 13 else bits va (12 + 9 * n) 9
    match s.entry vd table i with
    | .error c => .error c
    | .ok w =>
      match entryBits w n with
      | .error c => .error (c, 0)
      | .ok (frame, false) => State.walkFrom s vd va write frame n
      | .ok (frame, true) =>
        let size := leafSize w n
        let pa := frame - frame % 2 ^ size
        if !(s.leafOk vd pa size) then .error (3, 0)
        else if write && !(bit w 4) then .error (2, 0)
        else .ok { va := va - va % 2 ^ size, size := size, pa := pa, w := bit w 4 }

/-- A walk from a VD's root (R166); without a root every address is unmapped. -/
def State.walk (s : State) (vd va : Nat) (write : Bool) : Except (Nat × Nat) TEntry :=
  match (s.vd vd).root with
  | none => .error (1, 0)
  | some root => s.walkFrom vd va write root 4

/-- Whether a translation entry maps an address (and permits the access). -/
def TEntry.hits (e : TEntry) (va : Nat) : Bool := va - va % 2 ^ e.size = e.va

/-- What a virtual address of a VD reaches (R97, R160, R166, R433, R452), with the entries held by the agent tried
before a walk (R168, R169, R323). `send` says that the access may be a peer send (R452). -/
def State.place (s : State) (vd va : Nat) (write send : Bool) (held : List TEntry) : Place :=
  if va ≥ 2 ^ 52 then .fault 6 0
  else if va ≥ tarnWindow then s.tarnPlace vd va
  else if va ≥ aperture && va < aperture + 2 ^ 40 then s.windowPlace vd va
  else if va ≥ peerRange && va < peerRange + 2 ^ 44 then s.peerPlace vd va send
  else
    match held.find? (fun e => e.hits va && (!write || e.w)) with
    | some e => if s.mayReach vd (e.pa + va % 2 ^ e.size) then .cell (e.pa + va % 2 ^ e.size) e else .fault 3 0
    | none =>
      match s.walk vd va write with
      | .ok e => .cell (e.pa + va % 2 ^ e.size) e
      | .error c => .fault c.1 c.2

/-- The state after a walk that failed at a table line: a line that fails its check raises an integrity event (R428). -/
def State.afterWalk (s : State) (bad : Nat) : State := if bad = 0 then s else s.afterRead bad

end Sys2Proof.Machine
end

