-- ==== Sys2Proof/Machine/Tags.lean ====
section
/-!
DEFINITION. Suppression tags and tables (R360 to R362), the limits on unretired commands, and peer sends put in their
queue (R452, R453). Sources: spec/13_eddy.md, spec/17_harbour.md.
-/
namespace Sys2Proof.Machine
open Sys2Proof

/-- A suppression tag (R360): VD, incarnation or acceptance serial, source, LSID, sequence. -/
def mkTag (vd inc source lsid seq : Nat) : Nat :=
  vd * 2 ^ 73 + inc % 2 ^ 32 * 2 ^ 41 + source * 2 ^ 32 + lsid * 2 ^ 24 + seq % 2 ^ 24

/-- The VD of a tag. -/
def tagVd (t : Nat) : Nat := t / 2 ^ 73
/-- The incarnation of a tag. -/
def tagInc (t : Nat) : Nat := t / 2 ^ 41 % 2 ^ 32
/-- The source of a tag. -/
def tagSource (t : Nat) : Nat := t / 2 ^ 32 % 512

/-- The source number of a column end within its region (R360). -/
def Region.endSource (r : Region) (g : Nat) : Nat := g - 2 * r.col0
/-- The source number of a pilot (R360). -/
def Region.pilotSource (r : Region) (p : Nat) : Nat := 0x100 + (p - r.lead)

/-- The incarnation under which a pilot's operations are tagged: the running block's, or the one the region was placed
with (R23, R360). -/
def Region.tagInc (r : Region) : Nat :=
  match r.cur with
  | some b => b.inc
  | none => r.inc

/-- The key of a sequence counter: incarnation, source, LSID. -/
def seqKey (inc source lsid : Nat) : Nat := (inc * 512 + source) * 32 + lsid

/-- The next tag of a source and LSID of a region, and the state with its counter advanced (R360). -/
def State.nextTag (s : State) (r : Region) (inc source lsid : Nat) : Nat × State :=
  let k := seqKey inc source lsid
  let n := tget r.seqs k 0
  (mkTag r.vd inc source lsid n, s.modRegion r.lead (fun r => { r with seqs := tset r.seqs k (n + 1) }))

/-- What a lookup of a tag gives (R361). -/
inductive Lookup where
  /-- No entry: the command applies. -/
  | fresh
  /-- The original has applied: its stored result, status and flags. -/
  | again (e : Supp)
  /-- Another location or operation. -/
  | mismatch
  deriving DecidableEq, Repr

/-- SUPPRESSION_LOOKUP (R361). -/
def State.lookup (s : State) (tag loc op : Nat) : Lookup :=
  match ((s.vd (tagVd tag)).supp ++ (s.vd (tagVd tag)).spilledSupp).find? (fun e => e.tag = tag) with
  | none => .fresh
  | some e => if e.loc = loc && e.op = op then .again e else .mismatch

/-- An entry made when a command has applied (R361). -/
def State.enter (s : State) (tag loc op : Nat) (result : DWord) (status flags : Nat) : State :=
  s.modVd (tagVd tag) (fun d => { d with
    supp := d.supp ++ [{ tag := tag, loc := loc, op := op, result := result, status := status, flags := flags }] })

/-- The memory-port die that serves a cell in HBM or a reservoir. -/
def stackOfCell (c : Nat) : Nat := if isHbm c then c / 0xC00000000 else (c - resBase) / 0x4000000

/-- The memory-port die of a VD's home units: the north one of the westernmost strip of its partition (R365). -/
def State.homeStack (s : State) (vd : Nat) : Nat := 2 * ((s.partStrips (s.vd vd).part).headD 0 / 4)

/-- A mismatch is a detected fault: an event of the memory-port die, and the VD's quarantine (R361, R472, R484). -/
def State.mismatched (s : State) (tag stack : Nat) : State :=
  (s.raise (0x10 + stack) 0x0011 (tagVd tag) [BitVec.ofNat 64 tag, BitVec.ofNat 64 (tag / 2 ^ 64)]).soon
    .quarantine (tagVd tag) 2 0

/-- The tags of a VD that have not retired: entries of its suppression table, spilled ones among them
(R363), and its peer sends (R362, R453). -/
def State.liveTags (s : State) (vd : Nat) : List Nat :=
  (s.vd vd).supp.map (fun e => e.tag) ++ (s.vd vd).spilledSupp.map (fun e => e.tag) ++ (s.hb.unretired.map (fun e => e.tag)).filter (fun t => tagVd t = vd)

/-- The incarnations of a region: its own and those of its blocks (R23, R360). -/
def Region.incs (r : Region) : List Nat :=
  r.inc :: ([r.cur, r.succ, r.prev].filterMap (fun o => o.map (fun b => b.inc)))

/-- Whether a tag's incarnation is one of a region's. -/
def Region.ownsTag (r : Region) (t : Nat) : Bool := r.incs.any (fun i => i % 2 ^ 32 = Sys2Proof.Machine.tagInc t)

/-- The unretired operations of a source of a region, under whichever of its incarnations they were tagged (R362). -/
def State.unretired (s : State) (r : Region) (source : Nat) : Nat :=
  ((s.liveTags r.vd).filter (fun t => r.ownsTag t && tagSource t = source)).length

/-- The source and port stamp of an access of a pilot (R386). -/
def Region.accessKey (r : Region) (p : Nat) (x : PAcc) : Nat × Nat := (r.pilotSource p, x.stamp)

/-- The unretired operations of a region's column ends that have reached their units (R362): those tagged under its incarnations, and those
whose responses its column ends hold. -/
def State.unretiredEnds (s : State) (r : Region) : Nat :=
  let held := r.ends.flatMap (fun g => (s.edge g).rsps.map (fun p => p.tag))
  ((s.liveTags r.vd).filter (fun t => (r.ownsTag t && tagSource t < 0x80) || held.contains t)).length

/-- Whether a VD's suppression table has room for one more entry: it holds 4,096 (R361). -/
def State.tagRoom (s : State) (vd : Nat) : Bool := (s.liveTags vd).length < 4096

/-! ### Peer sends (R452, R453) -/

/-- A port of the module. -/
def State.port (s : State) (p : Nat) : Port := tget s.hb.ports p Port.down
/-- A port replaced. -/
def State.setPort (s : State) (p : Nat) (v : Port) : State := { s with hb := { s.hb with ports := tset s.hb.ports p v } }

/-- A flit with nothing in it. -/
def Flit.blank : Flit :=
  { seq := 0, typ := 0, vc := 0, ack := 0, retry := false, credits := 0, creditVc := 0, dst := 0, src := 0, tag := 0,
    off := 0, grans := [], masks := [], recs := [], rest := 0, crc := 0 }

/-- A flit put at the end of a virtual channel's queue of a port (R449, R450). -/
def State.enqueue (s : State) (p : Nat) (f : Flit) : State :=
  let port := s.port p
  s.setPort p { port with queues := tset port.queues f.vc (tget port.queues f.vc [] ++ [f]) }

/-- Whether a send of an issuer over a route keeps its order (R454): no earlier send of the issuer to one of its locations, on another port
or channel, has yet to perform. On one port and channel sends arrive in the order of issue (R449). -/
def State.sendInOrder (s : State) (vd source route off n : Nat) : Bool :=
  match tfind (s.vd vd).routes route with
  | none => true
  | some r => s.hb.unretired.all (fun e =>
      !(e.status = 255 && e.vc < 24 && tagVd e.tag = vd && tagSource e.tag = source && e.module = (s.port r.port).far
        && e.flit.dst = r.remote && e.flit.off < off + n && off < e.flit.off + 32 * e.flit.grans.length)
      || (e.vc = r.vc && e.port = r.port))

/-- One send flit of a VD over a route (R453): granules with a byte mask each. It stays unretired until its completion
has been acknowledged. -/
def State.peerSend (s : State) (vd route off tag : Nat) (grans : List Payload) (masks : List (BitVec 32)) (stamp : Nat := 0)
    (va : Nat := 0) : State :=
  match tfind (s.vd vd).routes route with
  | none => s
  | some r =>
    let far := (s.port r.port).far
    let f := { Flit.blank with
      typ := 1, vc := r.vc, dst := r.remote, src := vd, tag := tag, off := off, grans := grans, masks := masks }
    let old := s.hb.unretired.filter (fun e => e.tag != tag)
    let s := { s with hb := { s.hb with
      unretired := old ++ [({ module := far, vc := r.vc, tag := tag, status := 255, flit := f, stamp := stamp, va := va, port := r.port } : PeerOut)] } }
    (s.modVd vd (fun d => { d with peerBytes := d.peerBytes + 32 * grans.length })).enqueue r.port f

/-- A convoy record on its way to the home module (R456): the operation's tag, and the home identifier in the phase field
(log 17). `key` is 65536 · route + home identifier. -/
def State.sendConvoyRec (s : State) (vd : Nat) (q : Route) (tag op key : Nat) : State :=
  let f : Flit := { Flit.blank with
    typ := 3, vc := 24, dst := q.remote, src := vd, recs := [{ tag := tag, op := op, step := 0, phase := key % 65536 }] }
  let old := s.hb.unretired.filter (fun e => e.tag != tag)
  let s := { s with hb := { s.hb with
    unretired := old ++ [({ module := (s.port q.port).far, vc := 24, tag := tag, status := 255, flit := f, va := key, port := q.port } : PeerOut)] } }
  s.enqueue q.port f

/-- Whether a route may take one more send: at most 512 are unretired for each tenant channel and peer module (R453). -/
def State.peerRoom (s : State) (vd route : Nat) : Bool :=
  match tfind (s.vd vd).routes route with
  | none => false
  | some r =>
    (s.hb.unretired.filter (fun e => e.module = (s.port r.port).far && e.vc = r.vc)).length < 512

/-- The granule and byte mask of a few bytes at an offset within one granule. -/
def maskedGranule (off : Nat) (l : List Byte) : Payload × BitVec 32 :=
  (BitVec.ofNat 256 (fromLe l * 2 ^ (8 * (off % 32))), BitVec.ofNat 32 ((2 ^ l.length - 1) * 2 ^ (off % 32)))

/-- Whether sends of a VD have yet to perform (R453, R454): a status of 255 stands for no completion. -/
def State.sendsOpen (s : State) (vd : Nat) : Bool :=
  s.hb.unretired.any (fun e => tagVd e.tag = vd && e.status = 255 && e.vc < 24)

/-- Whether device stores of a VD to host memory wait for the host (R126, R447). -/
def State.hostOpen (s : State) (vd : Nat) : Bool := !(s.vd vd).cxlq.isEmpty

/-- Whether every earlier store of a VD has performed at `SYSTEM` scope (R126, R454). -/
def State.sysReady (s : State) (vd : Nat) : Bool := !s.hostOpen vd && s.hb.snoops.isEmpty && !s.sendsOpen vd

/-! ### Stores and loads of the package, host memory included (R104, R446, R447)

A device store to host memory performs at `DEVICE` scope when it enters the Harbour: from then on every agent of the package sees
it. It performs at `SYSTEM` scope when the host has acknowledged it, in the same order for each line. -/

/-- A store of a VD at a cell within one unit: to host memory it waits in the Harbour until the host acknowledges it. -/
def State.write (s : State) (vd c : Nat) (l : List Byte) (poison : Bool) : State :=
  if isHost c then
    ({ s with cmdNo := s.cmdNo + 1 } : State).modVd vd (fun d => { d with
      cxlq := d.cxlq ++ [{ addr := c, data := l.map some, poison := poison, sent := false, stamp := s.cmdNo }] })
  else s.storeUnit c l poison

/-- A store of some bytes of a unit of host memory (R100, R446): it waits in the Harbour, and what it does not write stays as it is. -/
def State.writeSome (s : State) (vd c : Nat) (l : List (Option Byte)) : State :=
  ({ s with cmdNo := s.cmdNo + 1 } : State).modVd vd (fun d => { d with
    cxlq := d.cxlq ++ [{ addr := c, data := l, poison := false, sent := false, stamp := s.cmdNo }] })

/-- The newest of the stores to host memory that wait, of those that a test accepts. -/
def State.newestCxl (s : State) (p : CxlReq → Bool) : Option CxlReq :=
  (s.vds.flatMap (fun x => x.2.cxlq.filter p)).foldl (fun best q =>
    match best with
    | some b => if b.stamp < q.stamp then some q else some b
    | none => some q) none

/-- Whether a store of some unit waits that is older than one (R106, R447). -/
def State.olderCxl (s : State) (q : CxlReq) : Bool :=
  s.vds.any (fun x => x.2.cxlq.any (fun e => unitOf e.addr = unitOf q.addr && e.stamp < q.stamp))

/-- Whether a waiting store decides a byte: it writes it, or it poisons its unit. -/
def CxlReq.decides (q : CxlReq) (c : Nat) : Bool :=
  unitOf q.addr = unitOf c && (q.poison || (q.addr ≤ c && (q.data.getD (c - q.addr) none).isSome))

/-- A byte as the package sees it: the waiting stores to host memory over memory. -/
def State.viewByte (s : State) (c : Nat) : Byte :=
  match (if isHost c then s.newestCxl (fun q => q.decides c) else none) with
  | some q => if q.poison then 0 else (q.data.getD (c - q.addr) none).getD 0
  | none => s.byte c

/-- Bytes as the package sees them. -/
def State.view (s : State) (c n : Nat) : List Byte :=
  if isHost c then (List.range n).map (fun i => s.viewByte (c + i)) else s.bytes c n

/-- Whether a unit reads as poisoned: by its newest waiting store, or as it stands. -/
def State.viewBad (s : State) (c : Nat) : Bool :=
  match (if isHost c then s.newestCxl (fun q => unitOf q.addr = unitOf c) else none) with
  | some q => q.poison
  | none => s.badAt c

/-! ### Tagged stores at an eddy unit (R364) -/

/-- The location number by which a suppression entry knows a cell. -/
def locOf (c : Nat) : Nat := c

/-- A tagged window store performs at its eddy unit (R364): it applies once, and counts as performed. -/
def State.windowStore (s : State) (tag c : Nat) (l : List Byte) (poison : Bool) : State :=
  match s.lookup tag (locOf c) 0x40 with
  | .fresh => (s.storeUnit c l poison).enter tag (locOf c) 0x40 0 0 0
  | .again _ => s
  | .mismatch => s.mismatched tag (stackOfCell c)

end Sys2Proof.Machine
end

