-- ==== Sys2Proof/Machine/PilotMem.lean ====
section
/-!
DEFINITION. The pilot's loads, stores, fences, waits, atomics and copies, and the return of a load
(R114 to R116, R130, R131, R323, R324, R326 to R328, R346, R347, R385; spec/12_pilot.md).
-/
namespace Sys2Proof.Machine
open Sys2Proof

/-- The region of the acting pilot. -/
def State.myRegion (s : State) : Option Region := s.regionAt s.cur.pilot

/-- The VD of the acting pilot. -/
def State.myVd (s : State) : Nat :=
  match s.myRegion with
  | some r => r.vd
  | none => 96

/-- Whether two ranges of cells overlap. -/
def overlap (a n b m : Nat) : Bool := a < b + m && b < a + n

/-- The size of an access in flight. -/
def PAcc.size (x : PAcc) : Nat :=
  match x.kind with
  | .load n _ _ => n
  | .store n _ => n
  | .atom => 8
  | .convoy _ => 0

/-- Whether an access in flight is a load or an atomic. -/
def PAcc.isLoad (x : PAcc) : Bool :=
  match x.kind with
  | .load _ _ _ => true
  | .atom => true
  | _ => false

/-- Whether an access in flight is a convoy record sent to another module (R456). -/
def PAcc.isConvoy (x : PAcc) : Bool :=
  match x.kind with
  | .convoy _ => true
  | _ => false

/-- Whether an access in flight is an acquire load. -/
def PAcc.isAcq (x : PAcc) : Bool :=
  match x.kind with
  | .load _ _ q => q
  | _ => false

/-- Whether an access in flight is a release store. -/
def PAcc.isRel (x : PAcc) : Bool :=
  match x.kind with
  | .store _ q => q
  | _ => false

/-- The unretired peer sends of a region's pilots (R385). -/
def State.pilotSends (s : State) (r : Region) : Nat :=
  (s.hb.unretired.filter (fun e => tagVd e.tag = r.vd && r.ownsTag e.tag && 0x100 ≤ tagSource e.tag && tagSource e.tag < 0x180
    && e.vc < 24)).length

/-- The entries of a region's reckoning record (R385): the accesses and peer sends of its pilots, the commands and requests of its
column ends and the results that have not been taken, one for each binding. -/
def State.recorded (s : State) (r : Region) : Nat :=
  ((List.range r.bands).map (fun i => (s.pilot (r.lead + i)).pend.length + (s.pilot (r.lead + i)).redo.length)).sum + s.pilotSends r
    + (r.ends.map (fun g => (s.edge g).cmds.length + ((s.edge g).rsps.filter (fun x => x.tok.isSome && x.id != 0)).length
        + ((s.edge g).xouts.filter (fun x => x.2.isSome)).length)).sum
    + ([r.cur, r.succ, r.prev].map (fun o => match o with | some b => b.binds.length | none => 0)).sum

/-- Whether the record of the acting pilot's region has room (R385): a memory instruction waits in issue while it is full. -/
def State.roomInRecord (s : State) : Bool :=
  match s.myRegion with
  | some r => s.recorded r < 1024
  | none => true

/-- An entry added to the pilot's translation entries, of which it holds 16 (R323). -/
def Pilot.remember (p : Pilot) (e : TEntry) : Pilot := { p with tlb := (e :: p.tlb).take 16 }

/-- An access put in flight, with the entry that translated it, and the next instruction. -/
def State.issue (s : State) (e : Option TEntry) (x : PAcc) : Out :=
  let p := s.me
  let p := match e with
    | some e => p.remember e
    | none => p
  .next (s.setMe { p.step with pend := p.pend ++ [{ x with te := e }], stamp := p.stamp + 1 })

/-- The record of an access that the acting pilot issues now. -/
def State.access (s : State) (kind : PKind) (va cell : Nat) (reg : Reg) (data : DWord) (win : Option Nat) (tag : Nat) :
    PAcc :=
  { kind := kind, va := va, cell := cell, reg := reg, data := data, fault := false, window := win, tag := tag, te := none,
    stale := false, args := (0, 0), stamp := s.me.stamp, pc := s.me.pc, snap := s.me.x }

/-- A value read, extended to 64 bits (R323). -/
def extend (n w : Nat) (sgn : Bool) : DWord :=
  if sgn then (BitVec.ofInt 64 (signed w (8 * n))) else BitVec.ofNat 64 w

/-- A load of `n` bytes (R323): chart memory answers at once; every other load is put in flight and returns by
PILOT_LOAD_RETURN (R316). With the record full it waits in issue (R385). -/
def State.load (s : State) (n : Nat) (sgn acq : Bool) (d a : Reg) (imm : BitVec 16) : Out :=
  let va := s.me.get a + simm imm
  if va.toNat % n ≠ 0 then s.trap 2 0 va
  else if isChart va then s.result d (extend n (s.readLe (chartCell s.cur.pilot (va.toNat % 65536)) n) sgn)
  else
    match s.place s.myVd va.toNat false false s.me.tlb with
    | .cell c e =>
      if s.roomInRecord then s.issue (some e) (s.access (.load n sgn acq) va.toNat c d 0 none 0) else .next s
    | .tarn c =>
      if s.roomInRecord then s.issue none (s.access (.load n sgn acq) va.toNat c d 0 none 0) else .next s
    | .window w c =>
      if s.roomInRecord then s.issue none (s.access (.load n sgn acq) va.toNat c d 0 (some w) 0) else .next s
    | .peer _ _ => s.trap 3 1 va
    | .noWindow => s.trap 5 1 va
    | .fault c bad => (s.afterWalk bad).trap 3 c va

/-- `LD.n8` (R323). -/
def execLdN8 (d a : Reg) (imm : BitVec 16) (s : State) : Out := s.load 1 false false d a imm
/-- `LD.n16` (R323). -/
def execLdN16 (d a : Reg) (imm : BitVec 16) (s : State) : Out := s.load 2 false false d a imm
/-- `LD.n32` (R323). -/
def execLdN32 (d a : Reg) (imm : BitVec 16) (s : State) : Out := s.load 4 false false d a imm
/-- `LD` (R323). -/
def execLd (d a : Reg) (imm : BitVec 16) (s : State) : Out := s.load 8 false false d a imm
/-- `LD.s8` (R323). -/
def execLdS8 (d a : Reg) (imm : BitVec 16) (s : State) : Out := s.load 1 true false d a imm
/-- `LD.s16` (R323). -/
def execLdS16 (d a : Reg) (imm : BitVec 16) (s : State) : Out := s.load 2 true false d a imm
/-- `LD.s32` (R323). -/
def execLdS32 (d a : Reg) (imm : BitVec 16) (s : State) : Out := s.load 4 true false d a imm
/-- `LDACQ` (R323, R115). -/
def execLdacq (d a : Reg) (imm : BitVec 16) (s : State) : Out := s.load 8 false true d a imm

/-- A tag for a class-I1 operation of the acting pilot (R360), under the incarnation that its region was placed with (log 19). -/
def State.myTag (s : State) : Nat × State :=
  match s.myRegion with
  | some r => s.nextTag r r.inc (r.pilotSource s.cur.pilot) 0
  | none => (0, s)

/-- The class-I1 operations of the acting pilot that have not retired (R362: at most 8). -/
def State.myUnretired (s : State) : Nat :=
  match s.myRegion with
  | some r => s.unretired r (r.pilotSource s.cur.pilot) + (s.me.pend.filter (fun x => x.window.isSome && !x.isLoad)).length
  | none => 0

/-- Whether the acting pilot may make one more class-I1 operation (R362: at most eight), with room in the record and in the suppression
table (R361, R385). -/
def State.mayTag (s : State) : Bool := s.myUnretired < 8 && s.roomInRecord && s.tagRoom s.myVd

/-- Whether a send of the acting pilot to a granule keeps its order (R454). -/
def State.mySendInOrder (s : State) (route off : Nat) : Bool :=
  match s.myRegion with
  | some r => s.sendInOrder r.vd (r.pilotSource s.cur.pilot) route off 32
  | none => true

/-- A store of `n` bytes (R323): chart memory is written at once; a peer send leaves for its port (R452), behind the earlier sends of the
pilot to its location (R454); every other store is put in flight and performs later (R114). -/
def State.store (s : State) (n : Nat) (rel : Bool) (r b : Reg) (imm : BitVec 16) : Out :=
  let va := s.me.get b + simm imm
  let v := s.me.get r
  if va.toNat % n ≠ 0 then s.trap 2 0 va
  else if isChart va then
    let t := s.put (chartCell s.cur.pilot (va.toNat % 65536)) (toLe n v.toNat)
    .next (t.setMe t.me.step)
  else
    match s.place s.myVd va.toNat true true s.me.tlb with
    | .cell c e =>
      if s.roomInRecord then s.issue (some e) (s.access (.store n rel) va.toNat c 0 v none 0) else .next s
    | .tarn c =>
      if s.roomInRecord then s.issue none (s.access (.store n rel) va.toNat c 0 v none 0) else .next s
    | .window w c =>
      if s.mayTag then
        let t := s.myTag
        t.2.issue none (t.2.access (.store n rel) va.toNat c 0 v (some w) t.1)
      else .next s
    | .peer route o =>
      if s.mayTag && s.peerRoom s.myVd route && s.mySendInOrder route (o / 32 * 32) && !(rel && !s.me.pend.isEmpty) then
        let t := s.myTag
        let g := maskedGranule o (toLe n v.toNat)
        let u := t.2.peerSend s.myVd route (o / 32 * 32) t.1 [g.1] [g.2] s.me.stamp va.toNat
        .next (u.setMe { u.me.step with stamp := u.me.stamp + 1 })
      else .next s
    | .noWindow => s.trap 5 1 va
    | .fault c bad => (s.afterWalk bad).trap 3 c va

/-- `ST.n8` (R323). -/
def execStN8 (r b : Reg) (imm : BitVec 16) (s : State) : Out := s.store 1 false r b imm
/-- `ST.n16` (R323). -/
def execStN16 (r b : Reg) (imm : BitVec 16) (s : State) : Out := s.store 2 false r b imm
/-- `ST.n32` (R323). -/
def execStN32 (r b : Reg) (imm : BitVec 16) (s : State) : Out := s.store 4 false r b imm
/-- `ST` (R323). -/
def execSt (r b : Reg) (imm : BitVec 16) (s : State) : Out := s.store 8 false r b imm
/-- `STREL` (R323, R115). -/
def execStrel (r b : Reg) (imm : BitVec 16) (s : State) : Out := s.store 8 true r b imm

/-! ### Accesses in flight -/

/-- Whether an earlier access in flight touches the location of a cell, so that one there must wait (R100, R114). -/
def blockedBy (l : List PAcc) (c : Nat) : Bool := l.any (fun x => !x.isConvoy && unitOf x.cell = unitOf c)

/-- Atomics that have been delivered are remembered for as long as an access before them has still to perform (R131). -/
def Pilot.prune (p : Pilot) : Pilot := { p with past := p.past.filter (fun y => p.pend.any (fun z => z.stamp < y.stamp)) }

/-- Access `k` in flight gone from a pilot. -/
def Pilot.performed (p : Pilot) (k : Nat) : Pilot := Pilot.prune { p with pend := ldel p.pend k }

/-- The value of access `k` in flight returned to its register, in the pilot and in the program states that later accesses would go
back to: an earlier access that traps goes back to before it (R317). -/
def Pilot.deliver (p : Pilot) (k : Nat) (r : Reg) (v : DWord) : Pilot :=
  Pilot.prune { p.set r v with pend := p.pend.take k ++ (p.pend.drop (k + 1)).map (fun x =>
      if r = 0 then x else { x with snap := vs x.snap r.toNat v }) }

/-- The program state before access `k` in flight, which traps (R317). The atomics after it that have applied are answered again when
their instructions come again (R131). -/
def Pilot.undo (p : Pilot) (k : Nat) (x : PAcc) : Pilot :=
  { p with
    pend := p.pend.take k, x := x.snap, pc := x.pc, past := p.past.filter (fun y => y.stamp < x.stamp),
    redo := p.redo ++ (p.pend.drop k ++ p.past).filter (fun y => decide (y.kind = PKind.atom) && decide (x.stamp < y.stamp)) }

/-- Access `k` in flight of pilot `i`, which is parked, translated again (R388, R415): with its page in place it goes on (DESIGN CHOICE,
log 38: the rules give a parked access of a pilot no report and no resume). -/
def State.unpark (s : State) (vd i k : Nat) (x : PAcc) : State :=
  let go : Nat → Option TEntry → State := fun c e =>
    let p := s.pilot i
    s.setPilot i { p with pend := p.pend.take k ++ { x with cell := c, te := e, parked := none } :: p.pend.drop (k + 1) }
  match s.place vd x.va (!x.isLoad) false [] with
  | .cell c e => go c (some e)
  | .tarn c => go c none
  | _ => s

/-- The VD of a pilot's region. -/
def State.vdOfPilot (s : State) (i : Nat) : Nat :=
  match s.regionAt i with
  | some r => r.vd
  | none => 96

/-- The cell that a load in flight reads: a window's as it is open now, none where it has closed (R433, R438). -/
def State.loadCell (s : State) (vd : Nat) (x : PAcc) : Option Nat :=
  if x.window.isNone then some x.cell
  else match s.windowPlace vd x.va with
    | .window _ a => some a
    | _ => none

/-- PILOT_LOAD_RETURN at pilot `x`, access `y` of those in flight (R316, R323, R324): the value is fixed and written to
`xd`, or the load traps on poison, or on a window that has closed (R433), as if nothing after it had issued. A load waits for earlier
accesses of its location (R114); a trap waits for earlier loads (R317). -/
def execPilotLoadReturn (s : State) : Out :=
  let p := s.pilot s.cur.x
  let k := s.cur.y
  match (if s.acts s.cur.x then p.pend[k]? else none) with
  | none => .next s
  | some x =>
    match x.kind with
    | .store _ _ => .next s
    | .convoy _ => .next s
    | .atom =>
      let q := p.deliver k x.reg x.data
      let q := { q with past := if (p.pend.take k).isEmpty then q.past else q.past ++ [x] }
      .next ((s.setPilot s.cur.x q).soon .suppressionRetire (tagVd x.tag) x.tag 0)
    | .load n sgn _ =>
      if x.parked.isSome then .next (s.unpark (s.vdOfPilot s.cur.x) s.cur.x k x)
      else if blockedBy (p.pend.take k) x.cell then .next s
      else
        match s.loadCell (s.vdOfPilot s.cur.x) x with
        | none =>
          if (p.pend.take k).any PAcc.isLoad then .next s
          else .next (s.setPilot s.cur.x ((p.undo k x).takeTrap 5 1 (BitVec.ofNat 64 x.va) x.pc))
        | some c =>
          if s.viewBad c then
            if (p.pend.take k).any PAcc.isLoad then .next s
            else .next ((s.afterRead c).setPilot s.cur.x ((p.undo k x).takeTrap 6 0 (BitVec.ofNat 64 x.va) x.pc))
          else .next (s.setPilot s.cur.x (p.deliver k x.reg (extend n (fromLe (s.view c n)) sgn)))

/-- Whether an access of a pilot must wait for those before it (R114, R115): one of its location, or, for a release, any. A release
to host memory is one at `SYSTEM` scope, and waits for what has yet to perform there (R126, R454). -/
def State.mustWait (s : State) (vd : Nat) (before : List PAcc) (x : PAcc) : Bool :=
  blockedBy before x.cell || (x.isRel && (!before.isEmpty || (isHost x.cell && !s.sysReady vd)))

/-- A store in flight performs (turn `performs`). A write to host memory goes to the Harbour's queue (R447). Window stores perform by
WINDOW_STORE_APPLY. -/
def State.perform (s : State) (i k : Nat) : State :=
  let p := s.pilot i
  match p.pend[k]? with
  | none => s
  | some x =>
    let vd := s.vdOfPilot i
    let before := p.pend.take k
    if x.isLoad || x.isConvoy || x.window.isSome || s.mustWait vd before x
        || (match s.regionAt i with | some r => s.unissued r (r.accessKey i x) | none => false) then s
    else if x.parked.isSome then s.unpark vd i k x
    else
      let s := s.setPilot i (p.performed k)
      let l := toLe x.size x.data.toNat
      s.write vd x.cell l false

/-! ### Fences, waits, atomics -/

/-- Whether a `BLKLD` of the acting pilot reads its image still (R116, R331): only a lead pilot loads one. -/
def State.imageLoading (s : State) : Bool :=
  match s.myRegion with
  | some r => r.lead = s.cur.pilot && r.shadow = .loading
  | none => false

/-- `FENCE` (R116, R326): scope 0 orders nothing more; any other scope completes once every earlier access, and the read of an
earlier `BLKLD`, has performed at that scope, and waits until then. A store that has performed in the package waits for the host at
`SYSTEM` scope only (R126). -/
def execFence (sc : BitVec 3) (s : State) : Out :=
  if sc = 0 then s.done
  else if !s.me.pend.isEmpty || s.imageLoading then .next s
  else if sc.toNat ≥ 4 && !s.sysReady s.myVd then .next s
  else s.done

/-- The condition of `WAITW` and of graph nodes (R76). -/
def waitCond (c : Nat) (w b : DWord) : Bool :=
  match c with
  | 0 => w == b
  | 1 => w != b
  | 2 => b.ule w
  | 3 => w.ult b
  | 4 => b.sle w
  | _ => w.slt b

/-- A failing `WAITW` waits from now on (R327). -/
def State.waits (s : State) : Out := .next (s.setMe { s.me with waitSince := some s.chron.toNat })

/-- One pass of `WAITW` at a cell address that the pilot may read. -/
def State.waitRead (s : State) (d b : Reg) (c : Nat) (va : DWord) (cell : Nat) : Out :=
  if blockedBy s.me.pend cell then .next s
  else if s.viewBad cell then (s.afterRead cell).trap 6 0 va
  else
    let w := BitVec.ofNat 64 (fromLe (s.view cell 8))
    if waitCond c w (s.me.get b) then .next (s.setMe { (s.me.set d w).step with waitSince := none })
    else s.waits

/-- `WAITW` (R327): it reads its word; where the condition holds it completes, otherwise it waits. -/
def execWaitw (d a b : Reg) (c : BitVec 3) (s : State) : Out :=
  let va := s.me.get a
  if va.toNat % 8 ≠ 0 then s.trap 2 0 va
  else if isChart va then s.waitRead d b c.toNat va (chartCell s.cur.pilot (va.toNat % 65536))
  else
    match s.place s.myVd va.toNat false false s.me.tlb with
    | .cell x _ => s.waitRead d b c.toNat va x
    | .tarn x => s.waitRead d b c.toNat va x
    | .window _ x => s.waitRead d b c.toNat va x
    | .peer _ _ => s.trap 3 1 va
    | .noWindow => s.trap 5 1 va
    | .fault c bad => (s.afterWalk bad).trap 3 c va

/-- PILOT_WAITW_RECHECK at pilot `x` (R327): a waiting `WAITW` reads its word again. Reading again when no store has
been made to the line gives what the last read gave, so the step asks only that the pilot waits (log 13). -/
def execPilotWaitwRecheck (s : State) : Out :=
  let s := { s with cur := { s.cur with pilot := s.cur.x } }
  if s.acts s.cur.pilot && s.me.run = .running && s.me.waitSince.isSome then
    match decodePilot s.word.toNat with
    | .ok (.waitw d a b c) => execWaitw d a b c s
    | _ => .next (s.setMe { s.me with waitSince := none })
  else .next s

/-- The new value of an atomic (R328). -/
def atomNew (f : Nat) (m b old : DWord) : DWord :=
  match f with
  | 0 => m + b
  | 1 => m &&& b
  | 2 => m ||| b
  | 3 => m ^^^ b
  | 4 => if m.sle b then m else b
  | 5 => if m.sle b then b else m
  | 6 => if m.ule b then m else b
  | 7 => if m.ule b then b else m
  | 8 => b
  | _ => if m = old then b else m

/-- Whether an `ATOM` that has applied is that of an instruction at an address. -/
def PAcc.sameAtom (x : PAcc) (pc va : DWord) : Bool := x.pc = pc && x.va = va.toNat

/-- The window of eddy unit `e` of a stack (R350): the commands of column ends that have arrived and not performed, with their cells. -/
def State.unitHeld (s : State) (stack e : Nat) : List (Nat × Nat) :=
  (s.edges.flatMap (fun x => x.2.cmds.filterMap (fun y => y.unit))).filter (fun u => stackOfCell u.2 = stack && u.2 / 64 % 16 = e)

/-- The window of the eddy unit that serves the location of a cell (R350). -/
def State.atUnit (s : State) (c : Nat) : List (Nat × Nat) := s.unitHeld (stackOfCell c) (c / 64 % 16)

/-- Whether a command that applies in the step in which it arrives may go to the unit of a cell now: the window has room, and no command
of the location arrived before it (R350, R357). -/
def State.unitFree (s : State) (c : Nat) : Bool :=
  (s.atUnit c).length < 64 && (s.atUnit c).all (fun u => unitOf u.2 != unitOf c)

/-- Whether an atomic of a pilot may go to the eddy unit of its location and apply there (R119, R350, R357, R362, R385): the unit has
room, no command for the location arrived before it, and an ordered one waits for every earlier access of the pilot. A pilot's
`ATOM` applies in the step in which it issues (DESIGN CHOICE, log 11: R114 leaves its order among accesses to other locations open). -/
def State.atomGoes (s : State) (ord : BitVec 1) (c : Nat) : Bool :=
  !blockedBy s.me.pend c && (ord = 0 || s.me.pend.isEmpty) && s.mayTag && s.unitFree c

/-- An atomic of the acting pilot at a cell (R117, R118, R328, R361): refused outside HBM and reservoirs; nothing is applied to a
poisoned line; a tag found in the table gives its stored result. One that had applied before a trap of a restored access took its
instruction back is answered as it was (R131). -/
def State.atomAt (s : State) (d b : Reg) (ord : BitVec 1) (f : Nat) (va : DWord) (c : Nat) (e : Option TEntry)
    (w : Option Nat) : Out :=
  if !(isHbm c || isRes c) then s.trap 4 1 va
  else
    match s.me.redo.find? (fun x => x.sameAtom s.me.pc va) with
    | some x =>
      let t := s.setMe { s.me with redo := s.me.redo.filter (fun y => y.tag != x.tag) }
      t.issue e { t.access .atom va.toNat c d x.data w x.tag with args := x.args }
    | none =>
      if !s.atomGoes ord c then .next s
      else
        let t := s.myTag
        let x : DWord → State → PAcc := fun v u =>
          { u.access .atom va.toNat c d v w t.1 with args := (s.me.get b, s.me.get d) }
        match t.2.lookup t.1 (locOf c) f with
        | .again y => t.2.issue e (x y.result t.2)
        | .mismatch => (t.2.mismatched t.1 (stackOfCell c)).trap 6 0 va
        | .fresh =>
          if s.badAt c then
            (((t.2.afterRead c).raise (0x10 + stackOfCell c) 0x0013 s.myVd [va])).trap 6 0 va
          else
            let m := BitVec.ofNat 64 (s.readLe c 8)
            let u := (t.2.storeUnit c (toLe 8 (atomNew f m (s.me.get b) (s.me.get d)).toNat) false).enter t.1 (locOf c) f m 0 0
            u.issue e (x m u)

/-- `ATOM` (R328). -/
def execAtom (d a b : Reg) (ord : BitVec 1) (f : BitVec 4) (s : State) : Out :=
  let va := s.me.get a
  if va.toNat % 8 ≠ 0 then s.trap 2 0 va
  else if isChart va then s.trap 4 1 va
  else
    match s.place s.myVd va.toNat true false s.me.tlb with
    | .cell c e => s.atomAt d b ord f.toNat va c (some e) none
    | .tarn _ => s.trap 4 1 va
    | .window w c => s.atomAt d b ord f.toNat va c none (some w)
    | .peer _ _ => s.trap 3 1 va
    | .noWindow => s.trap 5 1 va
    | .fault c bad => (s.afterWalk bad).trap 3 c va

/-! ### Copy -/

/-- The cell of a granule of a copy, or the trap it meets. -/
def State.granuleAt (s : State) (va : Nat) (write : Bool) : Except (Nat × Nat × Nat) Nat :=
  match s.place s.myVd va write false s.me.tlb with
  | .cell c _ => .ok c
  | .tarn c => .ok c
  | .window _ c => .ok c
  | .peer _ _ => .error (3, 1, 0)
  | .noWindow => .error (5, 1, 0)
  | .fault c bad => .error (3, c, bad)

/-- The registers after a granule of a copy, written one after the other (R347). -/
def Pilot.granuleDone (p : Pilot) (d a b : Reg) : Pilot :=
  let p := p.set a (p.get a + 32)
  let p := p.set b (p.get b + 32)
  p.set d (p.get d - 32)

/-- `CPY` granule by granule (R347): on a trap the registers name the first granule not copied. A count that the step does
not bring to zero, since its register is also an address, keeps the pilot at the instruction. -/
def State.copy (s : State) (d a b : Reg) : Nat → Out
  | 0 => if s.me.get d = 0 then s.done else .next s
  | n + 1 =>
    let src := s.me.get b
    let dst := s.me.get a
    match s.granuleAt src.toNat false with
    | .error (c, sub, bad) => (s.afterWalk bad).trap c sub src
    | .ok from0 =>
      match s.granuleAt dst.toNat true with
      | .error (c, sub, bad) => (s.afterWalk bad).trap c sub dst
      | .ok to0 =>
        match s.check from0 with
        | .failed => (s.afterRead from0).trap 6 0 src
        | _ =>
          let bad := s.viewBad from0
          let s := s.write s.myVd to0 (s.view from0 32) bad
          let p := s.me
          let p := if bad then { p with pstatus := p.pstatus ||| 0x80 } else p
          State.copy (s.setMe (p.granuleDone d a b)) d a b n

/-- Whether a range meets chart memory. -/
def meetsChart (a : DWord) (n : Nat) : Bool := overlap a.toNat n chartBase.toNat 65536

/-- `CPY` (R347): it waits for the pilot's accesses in flight, whose locations it may touch (R114), and for room in the record
(R385). -/
def execCpy (d a b : Reg) (s : State) : Out :=
  let n := s.me.get d
  let dst := s.me.get a
  let src := s.me.get b
  if n = 0 then s.done
  else if dst.toNat % 32 ≠ 0 then s.trap 2 0 dst
  else if src.toNat % 32 ≠ 0 then s.trap 2 0 src
  else if n.toNat % 32 ≠ 0 || n.toNat ≥ 2 ^ 32 then s.trap 2 0 dst
  else if meetsChart dst n.toNat then s.trap 4 2 dst
  else if meetsChart src n.toNat then s.trap 4 2 src
  else if !s.me.pend.isEmpty || !s.roomInRecord then .next s
  else s.copy d a b (n.toNat / 32)

/-! ### Windows -/

/-- The slot of a live handle of which a VD is a member (R434, R346). -/
def State.handleSlot (s : State) (vd : Nat) (h : DWord) : Option Nat :=
  let slot := h.toNat % 64
  match tfind s.cipher.windows slot with
  | none => none
  | some w =>
    if h.toNat / 64 % 4 = 0 && h.toNat / 2 ^ 40 = 0 && h.toNat / 256 % 2 ^ 32 = w.ident
        && (w.opener = vd || w.members.contains vd) then some slot
    else none

/-- `WINACQ` (R130, R346): the pilot's window loads are behind it, since no instruction other than a load issues while
loads are in flight. -/
def execWinacq (a : Reg) (s : State) : Out :=
  match s.handleSlot s.myVd (s.me.get a) with
  | none => s.trap 5 1 (s.me.get a)
  | some w => if s.me.pend.any (fun x => x.isLoad && x.window = some w) then .next s else s.done

end Sys2Proof.Machine
end

