-- ==== Sys2Proof/Machine/Operands.lean ====
section
/-!
DEFINITION. Operands and results of element firings: heads, registers, constants, the vector types, the order in which
results complete (R79, R206, R207, R213, R242 to R246; spec/08_trigger.md, spec/09_vector.md).
-/
namespace Sys2Proof.Machine
open Sys2Proof

/-! ### The firing context -/

/-- The core of the element that fires. -/
def State.core (s : State) : ElemCore := (s.elem s.cur.elem).core
/-- The core of the firing element changed. -/
def State.modCore (s : State) (f : ElemCore → ElemCore) : State :=
  s.modElem s.cur.elem (fun e => { e with core := f e.core })
/-- The context that fires. -/
def State.ctx (s : State) : Ctx := vg s.core.ctx s.cur.ctx (Ctx.activated 0)
/-- The firing context changed. -/
def State.modCtx (s : State) (f : Ctx → Ctx) : State :=
  s.modCore (fun k => { k with ctx := vs k.ctx s.cur.ctx (f (vg k.ctx s.cur.ctx (Ctx.activated 0))) })
/-- The configuration of the firing slot's bank. -/
def State.conf (s : State) : ElemCfg := vg s.core.cfg (s.cur.ctx / 4) ElemCfg.empty
/-- Whether a lane executes (R208). -/
def State.runs (s : State) (k : Nat) : Bool := s.cur.lanes.getLsbD k

/-! ### Operands (R79, R243) -/

/-- What an operand supplies (R207): its payload, its null bit, its poison bit. -/
structure Src where
  val : Payload
  null : Bool
  poison : Bool
  deriving DecidableEq, Repr

/-- The head of a data input of the firing element. -/
def State.head (s : State) (k : Nat) : Option Token := (vg s.core.inp k []).head?

/-- Whether a token is null (R26). -/
def Token.isNull (t : Token) : Bool := t.kind = 1
/-- Whether a token is a mark (R26). -/
def Token.isMark (t : Token) : Bool := t.kind = 2
/-- The type of a mark (R27): 0 round, 1 end, 2 tide, 3 swap. -/
def Token.mark (t : Token) : Nat := t.payload.toNat % 4
/-- Whether a token is a round or end mark. -/
def Token.isRoundEnd (t : Token) : Bool := t.isMark && t.mark < 2

/-- Operand `code` of the firing (R79): a register, a head or a constant copied into every lane. Accumulator codes are
read by the brick instructions themselves. -/
def State.opnd (s : State) (code : Nat) : Src :=
  if code < 8 then
    let r := vg s.ctx.v code VReg.zero
    { val := r.val, null := r.null, poison := r.poison }
  else if code < 12 then
    match s.head (code - 8) with
    | some t => { val := t.payload, null := t.isNull, poison := t.poison && !t.isNull }
    | none => { val := 0, null := false, poison := false }
  else if code < 16 then { val := 0, null := false, poison := false }
  else
    let c := vg s.conf.consts (code - 16) 0
    { val := ofLanes (fun _ => c), null := false, poison := false }

/-- One head removed. -/
def State.popHead (s : State) (k : Nat) : State :=
  s.modCore (fun c => { c with inp := vs c.inp k (vg c.inp k []).tail })

/-- The heads whose dequeue bits are set are removed, each once (R213). -/
def State.dequeue (s : State) (o : Op) : State :=
  let s := if o.dqa && 8 ≤ o.a.toNat && o.a.toNat < 12 then s.popHead (o.a.toNat - 8) else s
  if o.dqb && 8 ≤ o.b.toNat && o.b.toNat < 12 && !(o.dqa && o.a = o.b) then s.popHead (o.b.toNat - 8) else s

/-! ### Results (R207, R213, R245, R246) -/

/-- The path of the firing context through an output (the model's `Token.src`). -/
def State.pathOf (s : State) (out : Nat) : Nat := 1 + (s.cur.elem * 8 + s.cur.ctx) * 4 + out

/-- A result of latency `lat` completes in its firing cycle when it takes one cycle and no earlier result of the context
is outstanding (R246). -/
def State.atOnce (s : State) (lat : Nat) : Bool := lat = 1 && s.ctx.outst.isEmpty

/-- Destinations put on the scoreboard until their result completes (R210, R245). -/
def State.reserve (s : State) (lat : Nat) (dests : List Dest) (group : Option Nat) : State :=
  if s.atOnce lat && group.isNone then s
  else s.modCtx (fun c => { c with outst := c.outst ++ [{ dests := dests, left := lat, group := group }] })

/-- A token entered in an output buffer, where it is reserved from its firing (R245). -/
def State.emit (s : State) (out : Nat) (t : Token) (ready : Bool) (counts : Option (Nat × List Nat)) : State :=
  s.modCore (fun k => { k with
    out := vs k.out out (vg k.out out [] ++ [{ tok := { t with src := s.pathOf out }, ready := ready, counts := counts }]) })

/-- The payload of a null result's token, which the spec does not give: a free value (log 2). -/
def State.nullPayload (s : State) : Payload := Config.freeKey s.draws

/-- A data or null token of a firing with the sideband of R207 and a given tag. -/
def State.dataToken (s : State) (val : Payload) (null poison : Bool) (tag : Nat) : Token :=
  { payload := val, kind := if null then 1 else 0, round := s.ctx.cround, tag := BitVec.ofNat 2 tag,
    poison := poison && !null, src := 0 }

/-- A payload in which only the executing lanes are kept; the others read zero (R213). -/
def State.masked (s : State) (val : Payload) : Payload := ofLanes (fun k => if s.runs k then lane val k else 0)

/-- A register written in the executing lanes, its null and poison bits taken from the result (R207, R213). A null
result keeps the payload (R244). -/
def State.writeV (s : State) (n : Nat) (val : Payload) (null poison : Bool) : State :=
  s.modCtx (fun c =>
    let old := (vg c.v n VReg.zero).val
    let new := if null then old else ofLanes (fun k => if s.runs k then lane val k else lane old k)
    { c with v := vs c.v n { val := new, null := null, poison := poison && !null } })

/-- The result of a firing delivered to `v0`-`v7` or to an output (R207, R213, R245). -/
def State.deliver (s : State) (dst : Nat) (val : Payload) (null poison : Bool) (tag lat : Nat) : State :=
  if dst < 8 then (s.reserve lat [.vreg dst] none).writeV dst val null poison
  else
    let ready := s.atOnce lat
    let out := dst - 8
    if null then
      let t := s.dataToken (s.masked s.nullPayload) true false tag
      ({ s.reserve lat [.out out] none with draws := s.draws + 1 }).emit out t ready none
    else (s.reserve lat [.out out] none).emit out (s.dataToken (s.masked val) false poison tag) ready none

/-- A predicate written in the executing lanes. -/
def State.writeP (s : State) (n : Nat) (f : Nat → Bool) : State :=
  s.modCtx (fun c =>
    let old := vg c.p n 0
    let new := ((List.range 8).map (fun k => b2n (if s.runs k then f k else old.getLsbD k) * 2 ^ k)).sum
    { c with p := vs c.p n (BitVec.ofNat 8 new) })

/-! ### Vector types (R242) -/

/-- The subword width of a type. -/
def vtWidth (ty : Nat) : Nat :=
  match ty with
  | 0 | 1 | 2 => 32
  | 3 | 4 | 5 => 16
  | _ => 8

/-- The subwords of a lane. -/
def vtCount (ty : Nat) : Nat := 32 / vtWidth ty

/-- Whether an integer type is signed. -/
def vtSigned (ty : Nat) : Bool := ty = 0 || ty = 5 || ty = 6

/-- The floating-point format of a type. -/
def vtFmt (ty : Nat) : Fmt :=
  match ty with
  | 3 => .bf16
  | 4 => .f16
  | _ => .f32

/-- A subword read by the signedness of its type. -/
def vtInt (ty v : Nat) : Int := if vtSigned ty then signed v (vtWidth ty) else (v : Int)

/-- The floating-point arithmetic environment of the firing context. -/
def State.fenv (s : State) : FEnv := { aflags := s.ctx.aflags, srstate := s.ctx.sr }

/-- The environment written back. The flags that a firing raises stand in `AFLAGS` once its result has completed (R246): after a firing
with an outstanding result, `afterFiring` moves them to that result. -/
def State.setFenv (s : State) (v : FEnv) : State := s.modCtx (fun c => { c with aflags := v.aflags, sr := v.srstate })

/-- The executing lanes computed in order, each changing the environment (R244, R54). -/
def lanesGo (runs : Nat → Bool) (f : Nat → FEnv → Nat × FEnv) (k : Nat) : Nat → FEnv → List Word × FEnv
  | 0, env => ([], env)
  | n + 1, env =>
    let r := if runs k then f k env else (0, env)
    let t := lanesGo runs f (k + 1) n r.2
    (BitVec.ofNat 32 r.1 :: t.1, t.2)

/-- The subwords of a lane computed in order and put together. -/
def subsGo (w : Nat) (g : Nat → FEnv → Nat × FEnv) (j : Nat) : Nat → FEnv → Nat × FEnv
  | 0, env => (0, env)
  | n + 1, env =>
    let r := g j env
    let t := subsGo w g (j + 1) n r.2
    (r.1 % 2 ^ w * 2 ^ (w * j) + t.1, t.2)

/-- The payload of a list of lanes. -/
def ofWords (l : List Word) : Payload := ofLanes (fun k => lget l k 0)

/-- The computation of a firing over its executing lanes. -/
def State.compute (s : State) (f : Nat → FEnv → Nat × FEnv) (env : FEnv) : Payload × FEnv :=
  let r := lanesGo s.runs f 0 8 env
  (ofWords r.1, r.2)

/-- The flag that a poisoned operand sets (R207, R58). -/
def FEnv.psn (v : FEnv) (poison : Bool) : FEnv := v.raiseIf poison flagPSN

/-- The common form of a vector instruction (R244): data operands `src`, trigger operands `trig` (null but no poison),
result computed lane by lane. A null operand gives a null result and raises nothing. -/
def State.vector (s : State) (o : Op) (src trig : List Src) (lat : Nat) (f : Nat → FEnv → Nat × FEnv) : State :=
  let null := (src ++ trig).any (fun x => x.null)
  let poison := src.any (fun x => x.poison)
  let t := s.dequeue o
  if null then t.deliver o.dst.toNat 0 true false 0 lat
  else
    let r := s.compute f (s.fenv.psn poison)
    (t.setFenv r.2).deliver o.dst.toNat r.1 false poison 0 lat

/-- A vector instruction with one source, by subwords of its type. -/
def State.vec1 (s : State) (o : Op) (lat : Nat) (g : Nat → FEnv → Nat × FEnv) : State :=
  let a := s.opnd o.a.toNat
  let w := vtWidth o.ty.toNat
  s.vector o [a] [] lat (fun k => subsGo w (fun j => g (sub (lane a.val k) j w)) 0 (vtCount o.ty.toNat))

/-- A vector instruction with two sources, by subwords of its type. -/
def State.vec2 (s : State) (o : Op) (lat : Nat) (g : Nat → Nat → FEnv → Nat × FEnv) : State :=
  let a := s.opnd o.a.toNat
  let b := s.opnd o.b.toNat
  let w := vtWidth o.ty.toNat
  s.vector o [a, b] [] lat
    (fun k => subsGo w (fun j => g (sub (lane a.val k) j w) (sub (lane b.val k) j w)) 0 (vtCount o.ty.toNat))

/-- A vector instruction with the destination register as its third source (R81). -/
def State.vec3 (s : State) (o : Op) (lat : Nat) (g : Nat → Nat → Nat → FEnv → Nat × FEnv) : State :=
  let a := s.opnd o.a.toNat
  let b := s.opnd o.b.toNat
  let d := s.opnd o.dst.toNat
  let w := vtWidth o.ty.toNat
  s.vector o [a, b, d] [] lat
    (fun k => subsGo w (fun j => g (sub (lane a.val k) j w) (sub (lane b.val k) j w) (sub (lane d.val k) j w)) 0
      (vtCount o.ty.toNat))

/-! ### Element faults found at a firing (R234, R237, R239) -/

/-- A fault event charged to a region, on which ELEMENT_FAULT or BLOCK_FAULT acts at the end of the cycle (R237, R240, R35). -/
def State.fault (s : State) (lead : Nat) (f : FaultEv) : State :=
  s.modRegion lead (fun r => { r with faults := r.faults ++ [f], stopped := true, faultAt := s.cycle + 1 })

/-- An element fault of the firing: the firing has no effect, and the region freezes (R239). -/
def State.fireFault (s : State) (cause : Nat) (detail : Nat) : State :=
  match s.regionOfElem s.cur.elem with
  | some r => s.fault r.lead
      { cause := cause, elem := some s.cur.elem, ctx := s.cur.ctx % 4, slot := s.cur.slot, bank := s.cur.ctx / 4,
        detail := BitVec.ofNat 64 detail }
  | none => s

end Sys2Proof.Machine
end

