-- ==== Sys2Proof/Machine/Flags.lean ====
section
/-!
DEFINITION. Flags: the sticky bits of accumulators, the arithmetic flags of a context and the flags of an edge unit
(R58, R62, R64, R277).
-/
namespace Sys2Proof.Machine
open Sys2Proof

/-- Whether a flag is set. -/
def FEnv.has (v : FEnv) (k : Nat) : Bool := v.aflags.getLsbD k

/-- The defined bits of `AFLAGS` and `EFLAGS` (R58, R277). -/
def flagMask : BitVec 32 := 0xFF

/-- One step of a W64 accumulator lane (`w64add`, R62). -/
def w64Add (frac : Nat) (l : LaneAcc) (t : Val) (inv : Bool) (env : FEnv) : LaneAcc × FEnv :=
  match t with
  | .fin n m e =>
    if inv then ({ l with av := true }, env.raise flagINV)
    else
      let r := roundInt n m (e + frac) .rne 0
      let x := l.a.toInt + r.1
      let hi : Int := 2 ^ 63 - 1
      let lo : Int := - 2 ^ 63
      let past := x > hi || x < lo
      let y := if x > hi then hi else if x < lo then lo else x
      ({ l with a := BitVec.ofInt 64 y, ai := l.ai || r.2, ao := l.ao || past },
        (env.raiseIf r.2 flagINX).raiseIf past flagAOVF)
  | _ => ({ l with av := true }, env.raise flagINV)

/-- The sticky bits and flags of a value that is rounded into an F32 accumulator lane (R64, R290). DESIGN CHOICE (log 34): a finite sum
that overflows to an infinity raises INX and so sets `ai` as well as `ao`, as every rounded result does. -/
def f32Put (l : LaneAcc) (r : Val × Bool) (env : FEnv) : LaneAcc × FEnv :=
  let q := arith .f32 r .rne { aflags := 0, srstate := env.srstate }
  let past := q.2.has flagOFL
  ({ l with a := BitVec.ofNat 64 q.1, ai := l.ai || q.2.has flagINX, ao := l.ao || past, av := l.av || q.2.has flagINV },
    ({ env with aflags := env.aflags ||| q.2.aflags }).raiseIf past flagAOVF)

/-- One step of an F32 accumulator lane (R64). -/
def f32Add (l : LaneAcc) (t : Val) (inv : Bool) (env : FEnv) : LaneAcc × FEnv :=
  let r := addVal (decodeF .f32 (l.a.toNat % 2 ^ 32)) t .rne
  f32Put l (r.1, r.2 || inv) env

/-- A step of an accumulator lane in its mode. -/
def laneStep (f32 : Bool) (frac : Nat) (l : LaneAcc) (t : Val) (inv : Bool) (env : FEnv) : LaneAcc × FEnv :=
  if f32 then f32Add l t inv env else w64Add frac l t inv env

/-- A flag of an edge unit (R277). -/
def Edge.flag (g : Edge) (c : Bool) (k : Nat) : Edge :=
  if c then { g with eflags := g.eflags ||| BitVec.ofNat 32 (2 ^ k) } else g

end Sys2Proof.Machine
end

