-- ==== Sys2Proof/Machine/Brick.lean ====
section
/-!
DEFINITION. The brick array: containers and shapes, exact totals, accumulator steps, group deposits, weight tiles,
permutations, recurrences (R285 to R311, R60 to R65, spec/11_bricks.md).
-/
namespace Sys2Proof.Machine
open Sys2Proof

/-! ### Shapes and containers (R88, R285, R286) -/

/-- A fusing entry by its fields (R88). -/
structure Shape where
  aw : Nat
  bw : Nat
  span : Nat
  af : Nat
  bf : Nat
  deriving DecidableEq, Repr

/-- The width of a width code; 0 for the unassigned codes. -/
def widthOf (c : Nat) : Nat :=
  match c with
  | 0 => 2 | 1 => 4 | 2 => 8 | 3 => 16 | 4 => 24 | 5 => 32 | _ => 0

/-- The group span of a span code. -/
def spanOf (c : Nat) : Nat :=
  match c with
  | 0 => 1 | 1 => 2 | _ => 4

/-- The fields of a fusing entry. -/
def Shape.of (e : BitVec 16) : Shape :=
  let n := e.toNat
  { aw := widthOf (n / 8192), bw := widthOf (n / 1024 % 8), span := spanOf (n / 256 % 4), af := n / 16 % 16,
    bf := n % 16 }

/-- The container width of a format at a width (R285). -/
def container (fmt w : Nat) : Nat :=
  match fmt with
  | 0 | 1 => if w ≤ 8 then 8 else if w ≤ 16 then 16 else 32
  | 7 | 8 => 16
  | 9 => 32
  | _ => 8

/-- The floating-point format of a format code (R88). -/
def fmtOf (fmt : Nat) : Fmt :=
  match fmt with
  | 2 => .e2m1 | 3 => .e2m3 | 4 => .e3m2 | 5 => .e4m3 | 6 => .e5m2 | 7 => .bf16 | 8 => .f16 | _ => .f32

/-- The value of element `j` of a lane (R285, R61). -/
def element (fmt w : Nat) (l : Word) (j : Nat) : Val :=
  let c := sub l j (container fmt w)
  match fmt with
  | 0 => Val.ofInt (signed c w) 0
  | 1 => .fin false (c % 2 ^ w) 0
  | _ => decodeF (fmtOf fmt) (c % 2 ^ (fmtOf fmt).width)

/-- Elements per lane of operand a. -/
def Shape.na (h : Shape) : Nat := 32 / container h.af h.aw
/-- Element `j` of a lane of a. -/
def Shape.ea (h : Shape) (l : Word) (j : Nat) : Val := element h.af h.aw l j
/-- Element `j` of a lane of b. -/
def Shape.eb (h : Shape) (l : Word) (j : Nat) : Val := element h.bf h.bw l j

/-- The bricks of a product (R286): 24 counts as 32. -/
def Shape.bricks (h : Shape) : Nat :=
  (if h.aw = 24 then 32 else h.aw) / 2 * ((if h.bw = 24 then 32 else h.bw) / 2)

/-- The array cycles of a firing that forms `p` products (R286). -/
def Shape.cycles (h : Shape) (p : Nat) : Nat := max 1 ((p * h.bricks + 255) / 256)

/-- The shape that a brick instruction names. -/
def State.shape (s : State) (o : Op) : Shape := Shape.of (vg s.conf.fuse o.shape 0)

/-- The exact sum of `n` products (R60). -/
def totalOf (f : Nat → Val × Val) (n : Nat) : Val × Bool :=
  treeSum ((List.range n).map (fun j => mulVal (f j).1 (f j).2))

/-! ### Accumulators (R289, R290, R294) -/

/-- An accumulator of a context. -/
def Ctx.getAcc (c : Ctx) (n : Nat) : Acc := vg c.acc n Acc.zero
/-- An accumulator replaced. -/
def Ctx.setAcc (c : Ctx) (n : Nat) (a : Acc) : Ctx := { c with acc := vs c.acc n a }

/-- A function applied to the lanes `on` of an accumulator, in lane order, with the flags. -/
def accGo (on : Nat → Bool) (f : Nat → LaneAcc → FEnv → LaneAcc × FEnv) (k : Nat) :
    Nat → Vector LaneAcc 8 → FEnv → Vector LaneAcc 8 × FEnv
  | 0, v, env => (v, env)
  | n + 1, v, env =>
    if on k then
      let r := f k (vg v k LaneAcc.zero) env
      accGo on f (k + 1) n (vs v k r.1) r.2
    else accGo on f (k + 1) n v env

/-- The lanes `on` of accumulator `d` of the firing context changed, and its flags. -/
def State.onAcc (s : State) (d : Nat) (on : Nat → Bool) (f : Acc → Nat → LaneAcc → FEnv → LaneAcc × FEnv) : State :=
  let a := s.ctx.getAcc d
  let r := accGo on (f a) 0 8 a.lanes s.fenv
  (s.modCtx (fun c => c.setAcc d { a with lanes := r.1 })).setFenv r.2

/-- A lane marked poisoned (R65). -/
def LaneAcc.poisonIf (l : LaneAcc) (p : Bool) : LaneAcc := { l with ap := l.ap || p }

/-- A step of each lane `on` by its total, marking the lanes `bad` (R62, R64, R65). -/
def State.stepAcc (s : State) (d : Nat) (on bad : Nat → Bool) (fresh : Bool) (t : Nat → Val × Bool) : State :=
  s.onAcc d on (fun a k l env =>
    let l := if fresh then LaneAcc.zero else l
    let r := laneStep a.f32 a.frac.toNat l (t k).1 (t k).2 env
    (r.1.poisonIf (bad k), r.2))

/-- PSN set in the firing context (R207). -/
def State.psnIf (s : State) (c : Bool) : State :=
  if c then s.modCtx (fun x => { x with aflags := x.aflags ||| 0x80 }) else s

/-- The array held for a firing (R286). -/
def State.holdArray (s : State) (c : Nat) : State := s.modCore (fun k => { k with array := c })

/-! ### Reading and changing accumulators (R295, R303 to R309) -/

/-- The conversion of a lane of an accumulator: 0 `.lo`, 1 `.hi`, 2 `.f32`, 3 `.s32`. -/
def accConv (a : Acc) (cv : Nat) (l : LaneAcc) (env : FEnv) : Nat × FEnv :=
  let n := l.a.toNat
  match cv with
  | 0 => (n % 2 ^ 32, env)
  | 1 => (if a.f32 then 0 else n / 2 ^ 32, env)
  | 2 => if a.f32 then (n % 2 ^ 32, env)
         else encodeF .f32 (Val.ofInt l.a.toInt (- (a.frac.toNat : Int))) .rne .ieee env
  | _ => if a.f32 then toInteger (decodeF .f32 (n % 2 ^ 32)) 32 true .rne env
         else toInteger (Val.ofInt l.a.toInt (- (a.frac.toNat : Int))) 32 true .rne env

/-- The lanes of an accumulator read for a conversion. -/
def State.readAcc (s : State) (n cv : Nat) (env : FEnv) : Payload × FEnv :=
  let a := s.ctx.getAcc n
  s.compute (fun k env => accConv a cv (vg a.lanes k LaneAcc.zero) env) env

/-- Whether a lane that executes is poisoned. -/
def State.accPoison (s : State) (n : Nat) : Bool :=
  (List.range 8).any (fun k => s.runs k && (vg (s.ctx.getAcc n).lanes k LaneAcc.zero).ap)

/-- The executing lanes of an accumulator cleared, mode and `F` kept. -/
def State.clearAcc (s : State) (n : Nat) (on : Nat → Bool) : State :=
  s.onAcc n on (fun _ _ _ env => (LaneAcc.zero, env))

/-- The value of an accumulator lane (R290). -/
def accValue (a : Acc) (l : LaneAcc) : Val :=
  if a.f32 then decodeF .f32 (l.a.toNat % 2 ^ 32) else Val.ofInt l.a.toInt (- (a.frac.toNat : Int))

/-- `A + v` in raw units, clamped (R305, kind 00 in W64). -/
def rawAdd (l : LaneAcc) (v : Int) (env : FEnv) : LaneAcc × FEnv :=
  let x := l.a.toInt + v
  let hi : Int := 2 ^ 63 - 1
  let lo : Int := - 2 ^ 63
  let past := x > hi || x < lo
  ({ l with a := BitVec.ofInt 64 (if x > hi then hi else if x < lo then lo else x), ao := l.ao || past },
    env.raiseIf past flagAOVF)

/-- The sticky bits of a source ORed in (R305). -/
def LaneAcc.join (l m : LaneAcc) : LaneAcc :=
  { l with ai := l.ai || m.ai, ao := l.ao || m.ao, av := l.av || m.av, ap := l.ap || m.ap }

/-- One lane of `ACCSET` (R304). -/
def accSetLane (a : Acc) (kind : Nat) (v : Word) (poison : Bool) (l : LaneAcc) (env : FEnv) : LaneAcc × FEnv :=
  let l0 : LaneAcc := { LaneAcc.zero with a := l.a }
  let r : LaneAcc × FEnv := match kind, a.f32 with
    | 0, false => ({ l0 with a := v.signExtend 64 }, env)
    | 0, true => f32Put l0 (Val.ofInt v.toInt 0, false) env
    | 1, false => w64Add a.frac.toNat LaneAcc.zero (decodeF .f32 v.toNat) false env
    | 1, true =>
      ({ l0 with a := if (decodeF .f32 v.toNat).isNaN then BitVec.ofNat 64 Fmt.f32.canonicalNaN else v.zeroExtend 64 },
        env.raiseIf (decodeF .f32 v.toNat).isSNaN flagINV)
    | 2, false => ({ l0 with a := v ++ l.a.extractLsb' 0 32 }, env)
    | 2, true => (l0, env)
    | _, false => ({ l0 with a := l.a.extractLsb' 32 32 ++ v }, env)
    | _, true => ({ l0 with a := v.zeroExtend 64 }, env)
  (r.1.poisonIf poison, r.2)

/-- One lane of `ACCADD` (R305). -/
def accAddLane (kind : Nat) (a b : Payload) (src : Acc) (poison : Bool) (c : Acc) (k : Nat) (l : LaneAcc) (env : FEnv) : LaneAcc × FEnv :=
  let v := lane a k
  let m := vg src.lanes k LaneAcc.zero
  let q := if kind = 3 then clampExp (lane b k).toInt (-128) 127 else 0
  let r := match kind with
    | 0 => if c.f32 then laneStep true 0 l (Val.ofInt v.toInt 0) false env else rawAdd l v.toInt env
    | 1 => laneStep c.f32 c.frac.toNat l (decodeF .f32 v.toNat) (decodeF .f32 v.toNat).isSNaN env
    | _ => laneStep c.f32 c.frac.toNat l ((accValue src m).scale q) (accValue src m).isSNaN env
  let x := if kind < 2 then r.1 else r.1.join m
  (x.poisonIf poison, r.2)

/-- One lane of `RECSTEP` (R309). -/
def recLane (c : Acc) (dk xk : Val) (l : LaneAcc) (env : FEnv) : LaneAcc × FEnv :=
  if c.f32 then f32Put l (fmaVal dk (decodeF .f32 (l.a.toNat % 2 ^ 32)) xk .rne) env
  else
    match dk, xk with
    | .fin _ _ _, .fin _ _ _ =>
      let r := fmaVal dk (accValue c l) xk .rne
      w64Add c.frac.toNat { l with a := 0 } r.1 r.2 env
    | _, _ => ({ l with av := true }, env.raise flagINV)

/-- The emission of an `MMA` whose step has been applied (R301): the converted lanes, then a clear. -/
def State.emission (s : State) (d cv out : Nat) (ready : Bool) : State :=
  let r := s.readAcc d cv s.fenv
  let poison := s.accPoison d
  let t := (s.setFenv r.2).emit out (s.dataToken (s.masked r.1) false poison 0) ready none
  t.clearAcc d s.runs

/-- A null token emitted (R301). -/
def State.emitNull (s : State) (out : Nat) (ready : Bool) : State :=
  { s with draws := s.draws + 1 }.emit out (s.dataToken (s.masked s.nullPayload) true false 0) ready none

/-- The entry of an emission that waits for its step: a null token under a key of its own, which the outstanding result at the
end of the context's list names (R288, R301). -/
def State.emitLater (s : State) (out : Nat) : State :=
  let key := s.core.nextReq
  let t := s.emitNull out false
  t.modCore (fun k => { k with
    nextReq := k.nextReq + 1,
    out := vs k.out out ((vg k.out out []).dropLast ++ ((vg k.out out []).getLast?.map (fun x => { x with key := key })).toList),
    ctx := vs k.ctx s.cur.ctx (let c := vg k.ctx s.cur.ctx (Ctx.activated 0)
      { c with outst := c.outst.dropLast ++ (c.outst.getLast?.map (fun x => { x with key := key })).toList }) })

/-- The key of the outstanding result at the end of the context's list. -/
def State.lastKey (s : State) : Nat := match s.ctx.outst.getLast? with | some x => x.key | none => 0

/-- The reserved entry of an emission takes its token, which keeps the round that the context had at the firing (R207, R306); a key of
0 names none. -/
def fillToken (key : Nat) (t : Token) (l : List OutTok) : List OutTok :=
  if key = 0 then l else l.map (fun x => if x.key = key then { x with tok := { t with src := x.tok.src, round := x.tok.round } } else x)

/-- The emission of an `MMA` into its reserved entry, in the executing lanes of the state; then those lanes are cleared (R301). -/
def State.emissionInto (s : State) (d cv out key : Nat) : State :=
  let r := s.readAcc d cv s.fenv
  let t := s.dataToken (s.masked r.1) false (s.accPoison d) 0
  ((s.setFenv r.2).modCore (fun k => { k with out := vs k.out out (fillToken key t (vg k.out out [])) })).clearAcc d s.runs

/-- Every lane of the accumulators in a mask changed (R303). -/
def State.onAccMask (s : State) (m : Nat) (f : Acc → Acc) : State :=
  s.modCtx (fun c => (List.range 4).foldl (fun c n => if bit m n then c.setAcc n (f (c.getAcc n)) else c) c)

/-- What a brick firing does to the accumulators of its context (R298, R301, R303 to R305, R309). -/
def State.applyEff (s : State) : AccEff → State
  | .step d lanes bad fresh t =>
    s.stepAcc d (fun k => lanes.getLsbD k) (fun k => bad.getLsbD k) fresh (fun k => lget t k (.fin false 0 0, false))
  | .emission d cv out key lanes =>
    { ({ s with cur := { s.cur with lanes := lanes } }).emissionInto d cv out key with cur := s.cur }
  | .mode i => s.onAccMask i (fun _ =>
      { f32 := bit i 12, frac := BitVec.ofNat 6 (i / 64), lanes := Vector.replicate 8 LaneAcc.zero })
  | .clear m => s.onAccMask m (fun a => { a with lanes := Vector.replicate 8 LaneAcc.zero })
  | .put d kind lanes v poison =>
    s.onAcc d (fun k => lanes.getLsbD k) (fun c k l env => accSetLane c kind (lane v k) poison l env)
  | .add d kind lanes a b src poison =>
    s.onAcc d (fun k => lanes.getLsbD k) (accAddLane kind a b src poison)
  | .recur d lanes pairs poison =>
    s.onAcc d (fun k => lanes.getLsbD k) (fun c k l env =>
      let x := lget pairs k (.fin false 0 0, .fin false 0 0)
      let r := recLane c x.1 x.2 l env
      (r.1.poisonIf poison, r.2))

/-- Whether a group step of the firing context has not been taken: later effects on accumulators wait behind it (R295). -/
def State.held (s : State) : Bool := s.ctx.outst.any (fun x => x.group.isSome)

/-- The effect of a firing: at once, or with its outstanding result behind an earlier group step (R295, R312). -/
def State.effect (s : State) (e : AccEff) : State :=
  if s.held then
    s.modCtx (fun c => { c with outst := c.outst.modify (c.outst.length - 1) (fun x => { x with effs := x.effs ++ [e] }) })
  else s.applyEff e

/-- Flags that `t` raised beyond `s` in the firing context, put with outstanding result `i`: they are raised when it completes
(R246). -/
def State.flagsLater (s t : State) (i : Nat) : State :=
  t.modCtx (fun c => { c with
    aflags := s.ctx.aflags,
    outst := c.outst.modify i (fun x => { x with flags := x.flags ||| (c.aflags &&& ~~~ s.ctx.aflags) }) })

/-! ### Group spans (R288) -/

/-- The leader of the firing element's group. -/
def State.leader (s : State) (span : Nat) : Nat :=
  elemAt (colOf s.cur.elem - s.conf.ox % span) (rowOf s.cur.elem)

/-- The key of a slot and context in a group adder. -/
def groupKey (slot ctx : Nat) : Nat := slot * 8 + ctx

/-- Whether every member of a span has a deposit. -/
def allDeposited (l : List Deposit) (span : Nat) : Bool :=
  (List.range span).all (fun m => l.any (fun d => d.member = m))

/-- A deposit put among those of a group adder. -/
def ElemCore.addDeposit (c : ElemCore) (k : Nat) (d : Deposit) : ElemCore :=
  { c with group := tset c.group k (tget c.group k [] ++ [d]) }

/-- The group adder that keeps the deposits of a slot pool: that of the saved state of a leader which a tide has saved in that pool's
slot, else that of the element (R288, R312, R392). -/
def Elem.adder (m : Elem) (bank : Nat) : ElemCore :=
  match m.snap with
  | some c => if c.active = bank then c else m.core
  | none => m.core

/-- A deposit in the leader's group adder; the step follows when every member has one (R288). In the saved state of a leader it waits for
the restore (R312). -/
def State.deposit (s : State) (span : Nat) (d : Deposit) : State :=
  let k := groupKey s.cur.slot s.cur.ctx
  let lead := s.leader span
  let t := s.modElem lead (fun e => match e.snap with
    | some c => if c.active = s.cur.ctx / 4 then { e with snap := some (c.addDeposit k d) } else { e with core := e.core.addDeposit k d }
    | none => { e with core := e.core.addDeposit k d })
  if allDeposited (tget (t.elem lead).core.group k []) span then t.soon .groupAdderStep lead k 0 else t

/-- What a firing of a spanned slot deposits; `c` array cycles. A step that it completes takes C + 3 element cycles and 2 more from this
firing on (R297); the cycle of the firing has ticked where the leader has had its turn in it and is another element. -/
def State.depositOf (s : State) (span : Nat) (lanes : BitVec 8) (t : Nat → Val × Bool) (null : Bool) (poison : BitVec 8)
    (c : Nat) : Deposit :=
  let lead := s.leader span
  { member := s.conf.ox % span, lanes := lanes, totals := (List.range 8).map t, null := null, poison := poison,
    left := c + 5 - (if lead ≠ s.cur.elem && (s.elem lead).last = s.cycle + 1 then 1 else 0) }

/-- Whether the firing element leads its group. -/
def State.leads (s : State) (span : Nat) : Bool := s.conf.ox % span = 0

/-- A multiply-accumulate firing (R294, R298): totals per lane, the lanes that step, `p` products. A spanned slot deposits
its totals (R288); otherwise they step accumulator `d` at once. -/
def State.macLike (s : State) (o : Op) (p : Nat) (lanes : BitVec 8) (fresh : Bool) (srcs : List Src)
    (t : Nat → Val × Bool) : Out :=
  let h := s.shape o
  let d := o.dst.toNat - 12
  let c := h.cycles p
  let null := srcs.any (fun x => x.null)
  let poison := srcs.any (fun x => x.poison)
  let u := (s.dequeue o).holdArray c
  if h.span > 1 then
    let v := (if s.leads h.span then
        u.reserve (c + 5) [.acc d] (some (groupKey s.cur.slot s.cur.ctx)) else u).psnIf (poison && !null)
    .next (v.deposit h.span (s.depositOf h.span lanes t null (if poison then 0xFF else 0) c))
  else
    let v := u.reserve (c + 3) [.acc d] none
    if null then .next v
    else .next ((v.effect (.step d lanes (if poison then 0xFF else 0) fresh ((List.range 8).map t))).psnIf poison)

/-- `MAC` (R298). -/
def execMac (o : Op) (s : State) : Out :=
  let h := s.shape o
  let a := s.opnd o.a.toNat
  let b := s.opnd o.b.toNat
  s.macLike o (8 * h.na) s.cur.lanes false [a, b]
    (fun k => totalOf (fun j => (h.ea (lane a.val k) j, h.eb (lane b.val k) j)) h.na)

/-- `MULW` (R298): a fresh accumulator lane, its mode and `F` kept. -/
def execMulw (o : Op) (s : State) : Out :=
  let h := s.shape o
  let a := s.opnd o.a.toNat
  let b := s.opnd o.b.toNat
  s.macLike o (8 * h.na) s.cur.lanes true [a, b]
    (fun k => totalOf (fun j => (h.ea (lane a.val k) j, h.eb (lane b.val k) j)) h.na)

/-- `DOT` (R298): the sum over the executing lanes into lane `t`, executing or not. -/
def execDot (o : Op) (s : State) : Out :=
  let h := s.shape o
  let a := s.opnd o.a.toNat
  let b := s.opnd o.b.toNat
  let sum := treeSum (((List.range 8).filter s.runs).flatMap (fun k =>
    (List.range h.na).map (fun j => mulVal (h.ea (lane a.val k) j) (h.eb (lane b.val k) j))))
  s.macLike o (8 * h.na) (BitVec.ofNat 8 (2 ^ (o.bmd % 8))) false [a, b] (fun _ => sum)

/-- `DOTX` (R298): every lane of a against lane `m` of b. -/
def execDotx (o : Op) (s : State) : Out :=
  let h := s.shape o
  let a := s.opnd o.a.toNat
  let b := s.opnd o.b.toNat
  s.macLike o (8 * h.na) s.cur.lanes false [a, b]
    (fun k => totalOf (fun j => (h.ea (lane a.val k) j, h.eb (lane b.val (o.bmd % 8)) j)) h.na)

/-- `MULA` (R298): element `i` of lane 0 of a times element `j` of each lane of b. -/
def execMula (o : Op) (s : State) : Out :=
  let h := s.shape o
  let a := s.opnd o.a.toNat
  let b := s.opnd o.b.toNat
  s.macLike o 8 s.cur.lanes false [a, b]
    (fun k => totalOf (fun _ => (h.ea (lane a.val 0) (o.bmd % 4), h.eb (lane b.val k) (o.bmd / 4))) 1)

/-- The exact integer of a total of integer products. -/
def totalInt (t : Val × Bool) : Int := t.1.at 0

/-- `DOTS` (R299): a saturating sum into a register, which is also its third source. -/
def execDots (o : Op) (s : State) : Out :=
  let h := s.shape o
  let a := s.opnd o.a.toNat
  let b := s.opnd o.b.toNat
  let d := s.opnd o.dst.toNat
  let c := h.cycles (8 * h.na)
  let sg := h.af = 0 || h.bf = 0
  .next ((s.holdArray c).vector o [a, b, d] [] (c + 3) (fun k env =>
    let x := (lane d.val k).toNat
    let t := totalOf (fun j => (h.ea (lane a.val k) j, h.eb (lane b.val k) j)) h.na
    satI ((if sg then signed x 32 else (x : Int)) + totalInt t) 32 sg env))

/-! ### Reading an accumulator (R306) -/

/-- The status word of a lane (R306). -/
def accStatus (a : Acc) (l : LaneAcc) : Nat :=
  a.frac.toNat * 256 + b2n a.f32 * 16 + b2n l.ap * 8 + b2n l.av * 4 + b2n l.ao * 2 + b2n l.ai

/-- `ACCRD` (R306): operand b is a trigger. Whether a read of an accumulator whose `ap` is set also sets `AFLAGS`.PSN the spec does not
say (R207 speaks of operands that are registers and heads): the model sets none (DESIGN CHOICE, log 27). -/
def execAccrd (o : Op) (s : State) : Out :=
  let n := o.a.toNat - 12
  let b := s.opnd o.b.toNat
  let tag := o.shape % 4
  let t := s.dequeue o
  if b.null then .next (t.deliver o.dst.toNat 0 true false tag 2)
  else
    let a := s.ctx.getAcc n
    let st := bit o.bmd 1
    let r := if st then s.compute (fun k env => (accStatus a (vg a.lanes k LaneAcc.zero), env)) s.fenv
      else s.readAcc n (o.bmd / 4) s.fenv
    let u := (t.setFenv r.2).deliver o.dst.toNat r.1 false (s.accPoison n && !st) tag 2
    .next (if bit o.bmd 0 then u.clearAcc n s.runs else u)

/-! ### Weight-stationary steps (R300 to R302) -/

/-- A tile of the firing context. -/
def State.tile (s : State) (n : Nat) : Tile := vg s.ctx.tiles n Tile.zero

/-- The valid bits of a tile's rows: one bit per row. -/
def Tile.full (t : Tile) : Bool := t.valid = 255

/-- `WLOAD` (R300). The spec does not say whether a later `MMA` sees the row while the result of the `WLOAD` waits behind an earlier one of
its context (R246): the model writes the tile at the firing, and nothing waits for it (DESIGN CHOICE, log 27). -/
def execWload (o : Op) (s : State) : Out :=
  let a := s.opnd o.a.toNat
  let n := o.dst.toNat % 2
  let t := (s.dequeue o).reserve 1 [.tile n] none
  if a.null then .next t
  else
    let u := s.tile n
    let r := if bit o.bmd 3 then u.ptr.toNat else o.bmd % 8
    let keep : BitVec 8 := if r = 0 then 0 else u.valid
    let m : BitVec 8 := BitVec.ofNat 8 (2 ^ r)
    let u' : Tile := { rows := vs u.rows r a.val, valid := keep ||| m,
                       poison := if a.poison then u.poison ||| m else u.poison &&& ~~~ m,
                       ptr := BitVec.ofNat 3 (r + 1) }
    .next ((t.modCtx (fun c => { c with tiles := vs c.tiles n u' })).psnIf a.poison)

/-- Operand a sent unchanged: kind, round, tag and poison of a head are kept (R301, R223). -/
def State.forwardOf (s : State) (code : Nat) : Token :=
  if 8 ≤ code && code < 12 then
    match s.head (code - 8) with
    | some t => t
    | none => s.dataToken 0 false false 0
  else
    let a := s.opnd code
    s.dataToken a.val a.null a.poison 0

/-- The forward of an `MMA`: it is sent in the cycle after the firing, whatever earlier results are outstanding (R297). -/
def State.mmaForward (s t : State) (o : Op) : State :=
  if bit o.bmd 3 then t.emit (o.bmd / 2 % 4) (s.forwardOf o.a.toNat) true none else t

/-- The totals of an `MMA` (R301): a gated element adds nothing. -/
def State.mmaTotal (s : State) (h : Shape) (a : Payload) (t : Tile) (k : Nat) : Val × Bool :=
  treeSum (((List.range (8 * h.na)).filter (fun j => s.ctx.gate.getLsbD j)).map (fun j =>
    mulVal (h.ea (lane a (j / h.na)) (j % h.na)) (h.eb (lane (vg t.rows k 0) (j / h.na)) (j % h.na))))

/-- The one bits among the lowest `n` bits of the gate. -/
def gateCount (g : BitVec 32) (n : Nat) : Nat := ((List.range n).filter (fun j => g.getLsbD j)).length

/-- `MMA` (R301). -/
def execMma (o : Op) (s : State) : Out :=
  let h := s.shape o
  let a := s.opnd o.a.toNat
  let d := o.dst.toNat - 12
  let tl := s.tile (o.bmd % 2)
  let em := bit o.b.toNat 4
  let out := o.b.toNat / 4 % 4
  let cv := o.b.toNat % 4
  let c := h.cycles (8 * gateCount s.ctx.gate (8 * h.na))
  let u := s.mmaForward ((s.dequeue o).holdArray c) o
  let bad : BitVec 8 := if a.poison || s.ctx.gatePoison then 0xFF else tl.poison
  let dests := if em then [Dest.acc d, Dest.out out] else [Dest.acc d]
  if h.span > 1 then
    let v := (if s.leads h.span then
        let w := u.reserve (c + 5) dests (some (groupKey s.cur.slot s.cur.ctx))
        if em then w.emitLater out else w
      else u).psnIf (a.poison && !a.null)
    .next (v.deposit h.span (s.depositOf h.span s.cur.lanes (s.mmaTotal h a.val tl) a.null bad c))
  else
    let v := u.reserve (c + 3) dests none
    if a.null then .next (if em then v.emitNull out false else v)
    else
      let step := AccEff.step d s.cur.lanes bad false ((List.range 8).map (s.mmaTotal h a.val tl))
      if v.held && em then
        let w := v.emitLater out
        .next (((w.effect step).effect (.emission d cv out w.lastKey s.cur.lanes)).psnIf a.poison)
      else
        let w := (v.effect step).psnIf a.poison
        .next (if em then w.emission d cv out false else w)

/-- `BGATE` (R302): the gate is written at the firing (DESIGN CHOICE, log 27). -/
def execBgate (o : Op) (s : State) : Out :=
  let a := s.opnd o.a.toNat
  let t := (s.dequeue o).reserve 1 [.gate] none
  if a.null then .next t
  else .next ((t.modCtx (fun c => { c with gate := lane a.val 0, gatePoison := a.poison })).psnIf a.poison)

/-! ### Accumulator instructions (R303 to R305) -/

/-- The accumulators of a mask put in destinations. -/
def maskDests (m : Nat) : List Dest := ((List.range 4).filter (fun n => bit m n)).map Dest.acc

/-- `ACCMODE` (R303): every lane of every accumulator in the mask. -/
def execAccmode (o : Op) (s : State) : Out :=
  .next ((s.reserve 1 (maskDests o.imm) none).effect (.mode o.imm))

/-- `ACCCLR` (R303): mode and `F` kept. -/
def execAccclr (o : Op) (s : State) : Out :=
  .next ((s.reserve 1 (maskDests o.bmd) none).effect (.clear o.bmd))

/-- `ACCSET` (R304). -/
def execAccset (o : Op) (s : State) : Out :=
  let a := s.opnd o.a.toNat
  let d := o.dst.toNat - 12
  let t := (s.dequeue o).reserve 1 [.acc d] none
  if a.null then .next t
  else .next ((t.effect (.put d (o.bmd / 4) s.cur.lanes a.val a.poison)).psnIf a.poison)

/-- `ACCADD` (R305). The `ap` bit of a source accumulator (kinds 10 and 11) sets no PSN (DESIGN CHOICE, log 27). -/
def execAccadd (o : Op) (s : State) : Out :=
  let kind := o.bmd / 4
  let d := o.dst.toNat - 12
  let src := s.ctx.getAcc (o.a.toNat - 12)
  let a := s.opnd o.a.toNat
  let b := s.opnd o.b.toNat
  let srcs := if kind < 2 then [a] else if kind = 3 then [b] else []
  let null := srcs.any (fun x => x.null)
  let poison := srcs.any (fun x => x.poison)
  let t := (s.dequeue o).reserve 2 [.acc d] none
  if null then .next t
  else .next ((t.effect (.add d kind s.cur.lanes a.val b.val src poison)).psnIf poison)

/-! ### Permutations and recurrences (R307 to R309) -/

/-- `PERMLD` (R307): the matrix is written at the firing (DESIGN CHOICE, log 27). -/
def execPermld (o : Op) (s : State) : Out :=
  let a := s.opnd o.a.toNat
  let n := o.bmd % 2
  let t := (s.dequeue o).reserve 1 [.perm n] none
  if a.null then .next t
  else
    .next ((t.modCtx (fun c => { c with
      perms := vs c.perms n { ent := Vector.ofFn (fun i => a.val.extractLsb' (8 * i.val) 8), poison := a.poison } })).psnIf
        a.poison)

/-- Result unit `i` of `PERM` for units of `w` bits (R308). -/
def permUnit (p : Perm) (a : Payload) (w i : Nat) : Nat :=
  let e := (vg p.ent i 0).toNat
  if e ≥ 128 then 0 else a.toNat / 2 ^ (w * (e % 32 % (256 / w))) % 2 ^ w

/-- `PERM` (R308). -/
def execPerm (o : Op) (s : State) : Out :=
  let a := s.opnd o.a.toNat
  let p := vg s.ctx.perms (o.bmd % 2) Perm.identity
  let w := 8 * 2 ^ (o.bmd / 2 % 4)
  let val : Payload := BitVec.ofNat 256
    ((List.range (256 / w)).map (fun i => permUnit p a.val w i * 2 ^ (w * i))).sum
  let t := (s.dequeue o).holdArray 1
  if a.null then .next (t.deliver o.dst.toNat 0 true false 0 2)
  else .next ((t.psnIf a.poison).deliver o.dst.toNat val false (a.poison || p.poison) 0 2)

/-- `RECSTEP` (R309). -/
def execRecstep (o : Op) (s : State) : Out :=
  let h := s.shape o
  let a := s.opnd o.a.toNat
  let b := s.opnd o.b.toNat
  let d := o.dst.toNat - 12
  let c := h.cycles 8
  let null := a.null || b.null
  let poison := a.poison || b.poison
  let t := ((s.dequeue o).holdArray c).reserve (c + 3) [.acc d] none
  if null then .next t
  else
    let pairs := (List.range 8).map (fun k => (h.ea (lane a.val k) 0, h.eb (lane b.val k) 0))
    .next ((t.effect (.recur d s.cur.lanes pairs poison)).psnIf poison)

/-! ### The group adder (R288) -/

/-- The oldest deposit of each member. -/
def takeDeposits (l : List Deposit) (span : Nat) : List Deposit :=
  (List.range span).filterMap (fun m => l.find? (fun d => d.member = m))

/-- The element cycles that a step still takes: those of the last of its deposits (R297). -/
def lastLeft (l : List Deposit) (span : Nat) : Nat :=
  let firsts := l.foldl (fun acc d => if acc.any (fun x => x.member = d.member) then acc else acc ++ [d]) []
  match (firsts.filter (fun d => d.member < span)).getLast? with | some d => d.left | none => 0

/-- The deposits left once the oldest of each member has been taken. -/
def leftDeposits (l : List Deposit) (span : Nat) : List Deposit :=
  (List.range span).foldl (fun l m => l.eraseIdx (l.findIdx (fun d => d.member = m))) l

/-- The place of the outstanding result that waits for the oldest step of a group. -/
def groupIdx (key : Nat) (l : List Outst) : Nat := l.findIdx (fun x => x.group = some key)

/-- The instruction of slot `k` of a configuration. -/
def ElemCfg.instr (c : ElemCfg) (k : Nat) : Option Instr :=
  match decodeOpWord ((lget c.slots k 0).toNat / 65536) with
  | .ok i => some i
  | .error _ => none

/-- The operand record of a step that group spans allow (R288). -/
def spannedOp (i : Instr) : Option (Op × Bool) :=
  match i with
  | .mac o => some (o, false)
  | .dot o => some (o, false)
  | .dotx o => some (o, false)
  | .mula o => some (o, false)
  | .mma o => some (o, true)
  | _ => none

/-- What one step of a group does to the accumulators of the leader's context; `key` names the leader's emission entry (R288, R301). A
null deposit leaves nothing to apply, and the emission stays the null token that its entry holds. The spec does not say in which lanes an
emission shows, takes poison and clears where the members executed in other lanes than the leader: the model takes the lanes of the leader's own deposit
(DESIGN CHOICE, log 27). Flags of the members' own firings are theirs. -/
def groupEffs (o : Op) (mma : Bool) (ds : List Deposit) (key : Nat) : List AccEff :=
  let d := o.dst.toNat - 12
  let lanes := ds.foldl (fun m x => m ||| x.lanes) (0 : BitVec 8)
  let bad := ds.foldl (fun m x => m ||| x.poison) (0 : BitVec 8)
  let total : Nat → Val × Bool := fun k =>
    treeSum ((ds.filter (fun x => x.lanes.getLsbD k)).map (fun x => lget x.totals k (.fin false 0 0, false)))
  if ds.any (fun x => x.null) then []
  else
    .step d lanes bad false ((List.range 8).map total)
      :: (if mma && bit o.b.toNat 4 then
            [.emission d (o.b.toNat % 4) (o.b.toNat / 4 % 4) key (match ds.head? with | some x => x.lanes | none => 0)]
          else [])

/-- The effects that waited for group steps, applied in firing order up to the next group step that has not been taken
(R295); their flags wait for their results. -/
def State.runHeld (s : State) (i : Nat) : Nat → State
  | 0 => s
  | n + 1 =>
    match s.ctx.outst[i]? with
    | none => s
    | some x =>
      if x.group.isSome then s
      else
        let t := (s.modCtx (fun c => { c with outst := c.outst.modify i (fun x => { x with effs := [] }) }))
        State.runHeld (s.flagsLater (x.effs.foldl State.applyEff t) i) (i + 1) n

/-- GROUP_ADDER_STEP at leader `x`, slot and context `y` (R288): where every member has a deposit, the oldest of each is taken, and the
step joins the leader's outstanding result. Steps, sets and clears apply in the firing order of the context (R295): this one at once, unless
an earlier group step has not been taken. It completes as many cycles after the last member's firing as R297 gives. -/
def execGroupAdderStep (s : State) : Out :=
  let e := s.cur.x
  let key := s.cur.y
  let c := key % 8
  let core := (s.elem e).core
  let cfg := vg core.cfg (c / 4) ElemCfg.empty
  match (cfg.instr (key / 8)).bind spannedOp with
  | none => .next s
  | some (o, mma) =>
    let span := (Shape.of (vg cfg.fuse o.shape 0)).span
    let q := tget core.group key []
    if !allDeposited q span then .next s
    else
      let s := { s with cur := { s.cur with elem := e, ctx := c, slot := key / 8 } }
      let i := groupIdx key s.ctx.outst
      let s := s.modCore (fun k => { k with group := tset k.group key (leftDeposits q span) })
      let s := s.modCtx (fun x => { x with outst := x.outst.modify i (fun x =>
        { x with group := none, left := lastLeft q span, effs := groupEffs o mma (takeDeposits q span) x.key }) })
      .next (s.runHeld 0 s.ctx.outst.length)

end Sys2Proof.Machine
end

