-- ==== Sys2Proof/Machine/Trigger.lean ====
section
/-!
DEFINITION. The trigger-class instructions: predicates, channels, marks, loops, pond memory, edge requests, branch
tokens, write-backs, control tokens, and the class-11 packets (R215 to R234, R85, spec/08_trigger.md).
-/
namespace Sys2Proof.Machine
open Sys2Proof

/-! ### Paths, requests and counts (R216, R217) -/

/-- The path of a source number. -/
def srcPath (n : Nat) : Nat := n % 2 ^ 24
/-- The element of a source number. -/
def srcElem (n : Nat) : Nat := (srcPath n - 1) / 32
/-- The context of a source number, bank · 4 + context. -/
def srcCtx (n : Nat) : Nat := (srcPath n - 1) / 4 % 8

/-- The emitter number of a context (R217): bindings are 0 to 31. -/
def emitterOf (e c : Nat) : Nat := 32 + e * 4 + c % 4
/-- The sink number of a context (R216). -/
def sinkOf (e c : Nat) : Nat := e * 4 + c % 4

/-- A change to the block that a bank of an element belongs to (R218). -/
def State.modBlockOf (s : State) (e c : Nat) (f : Block → Block) : State :=
  match s.regionOfElem e with
  | some r => s.modRegion r.lead (fun r => r.modBlock (vg (s.elem e).core.cfg (c / 4) ElemCfg.empty).inc f)
  | none => s

/-- The block that a bank of an element belongs to. -/
def State.blockOf (s : State) (e c : Nat) : Option Block :=
  match s.regionOfElem e with
  | some r => r.blockOf (vg (s.elem e).core.cfg (c / 4) ElemCfg.empty).inc
  | none => none

/-- An end mark counted for an LSID by an emitter; further counts by the same emitter are ignored (R217). -/
def Block.count (b : Block) (em lsid : Nat) : Block :=
  if b.counted.contains (em, lsid) then b else { b with counted := b.counted ++ [(em, lsid)] }

/-- A sink's first report (R216). -/
def Block.sink (b : Block) (k : Nat) : Block :=
  if b.sinks.contains k && !b.sunk.contains k then { b with sunk := b.sunk ++ [k] } else b

/-- The LSID of a command word (R85). -/
def lsidOf (w : Word) : Nat := (w.extractLsb' 2 5).toNat

/-- An access counted under an LSID (R217). -/
def State.countAccess (s : State) (lsid : Nat) : State :=
  s.modBlockOf s.cur.elem s.cur.ctx (fun b => { b with accesses := tset b.accesses lsid (tget b.accesses lsid 0 + 1) })

/-- A sink report of the firing context. -/
def State.reportSink (s : State) : State :=
  s.modBlockOf s.cur.elem s.cur.ctx (fun b => b.sink (sinkOf s.cur.elem s.cur.ctx))

/-- Counts that wait for nothing more are made (R217). -/
def State.settle (s : State) (e : Nat) : State :=
  let l := (s.elem e).core.pendCounts
  let t := (l.filter (fun x => x.2.2.isEmpty)).foldl
    (fun t x => t.modBlockOf e x.1 (fun b => b.count (emitterOf e x.1) x.2.1)) s
  t.modElem e (fun m => { m with core := { m.core with pendCounts := l.filter (fun x => !x.2.2.isEmpty) } })

/-- An output token with a request struck from what it waits for. -/
def OutTok.strike (x : OutTok) (src : Nat) : OutTok :=
  { x with counts := x.counts.map (fun h => (h.1, h.2.filter (· != src))) }

/-- A request struck from what an element waits for. -/
def ElemCore.strike (k : ElemCore) (src : Nat) : ElemCore :=
  { k with
    reqs := k.reqs.filter (· != src),
    out := k.out.mapIdx (fun _ q => q.map (fun x => x.strike src)),
    pendCounts := k.pendCounts.map (fun x => (x.1, x.2.1, x.2.2.filter (· != src))) }

/-- A request that has performed at `REGION` scope, or whose fate is settled: nothing waits for it any more (R217), in a snapshot
either (R389). -/
def State.requestDone (s : State) (src : Nat) : State :=
  if src < 2 ^ 24 then s
  else
    (s.modElem (srcElem src) (fun m => { m with core := m.core.strike src, snap := m.snap.map (fun k => k.strike src) })).settle
      (srcElem src)

/-- A request packet entered in an output buffer and numbered (R217). -/
def State.emitRequest (s : State) (out : Nat) (t : Token) (ready : Bool) : State :=
  let src := s.pathOf out + s.core.nextReq * 2 ^ 24
  s.modCore (fun k => { k with
    out := vs k.out out (vg k.out out [] ++ [{ tok := { t with src := src }, ready := ready, counts := none }]),
    reqs := k.reqs ++ [src], nextReq := k.nextReq + 1 })

/-- The outstanding requests of the firing context on one output, or on all of them. -/
def State.earlier (s : State) (out : Option Nat) : List Nat :=
  s.core.reqs.filter (fun r => match out with
    | some n => srcPath r = s.pathOf n
    | none => srcElem r = s.cur.elem && srcCtx r = s.cur.ctx)

/-! ### `NOP`, `YIELD`, predicates (R220 to R222) -/

/-- `NOP` (R220): no effect. -/
def execNop (_o : Op) (s : State) : Out := .next s

/-- `YIELD` (R220). -/
def execYield (_o : Op) (s : State) : Out := .next (s.modCtx (fun c => { c with yielded := true }))

/-- `PSET` (R221). -/
def execPset (o : Op) (s : State) : Out :=
  let v := o.imm % 256
  let p := o.dst.toNat % 8
  let f : Nat → Bool := match o.imm / 2048 with
    | 0 => fun k => bit v k
    | 1 => fun _ => s.conf.ox = v
    | _ => fun _ => s.conf.oy = v
  .next ((s.reserve 1 [.pred p] none).writeP p f)

/-- The value of a `PLOG` in a lane (R222). -/
def plogBit (op : Nat) (a b : Bool) (any : Bool) : Bool :=
  match op with
  | 0 => a && b
  | 1 => a || b
  | 2 => a != b
  | 3 => a && !b
  | 4 => a || !b
  | 5 => !a
  | 6 => a
  | _ => any

/-- `PLOG` (R222): operands are read before the predicate is written. -/
def execPlog (o : Op) (s : State) : Out :=
  let a := vg s.ctx.p (o.a.toNat % 8) 0
  let b := vg s.ctx.p (o.b.toNat % 8) 0
  let p := o.dst.toNat % 8
  let any := (List.range 8).any (fun j => s.runs j && a.getLsbD j)
  .next ((s.reserve 1 [.pred p] none).writeP p (fun k => plogBit (o.md.toNat % 8) (a.getLsbD k) (b.getLsbD k) any))

/-! ### Channels (R223) -/

/-- A token sent on the output `dst` at once, behind the earlier results of its context (R246). -/
def State.sendNow (s : State) (dst : Nat) (t : Token) : State :=
  let ready := s.atOnce 1
  (s.reserve 1 [.out (dst - 8)] none).emit (dst - 8) t ready none

/-- `SEND` (R223): lanes that do not execute are zero. -/
def execSend (o : Op) (s : State) : Out :=
  let t := s.forwardOf o.a.toNat
  .next (((s.dequeue o).psnIf (s.opnd o.a.toNat).poison).sendNow o.dst.toNat { t with payload := s.masked t.payload })

/-- `TAG` (R223). -/
def execTag (o : Op) (s : State) : Out :=
  let t := s.forwardOf o.a.toNat
  .next (((s.dequeue o).psnIf (s.opnd o.a.toNat).poison).sendNow o.dst.toNat
    { t with payload := s.masked t.payload, tag := BitVec.ofNat 2 o.imm })

/-- `NULLT` (R223): the payload of the null token is not given (log 2). -/
def execNullt (o : Op) (s : State) : Out :=
  .next ({ s with draws := s.draws + 1 }.sendNow o.dst.toNat (s.dataToken s.nullPayload true false 0))

/-- Whether a head that an operand field names is an end mark. -/
def State.endHead (s : State) (named : Bool) (code : Nat) : Bool :=
  named && (match s.head (code - 8) with | some t => t.isMark && t.mark = 1 | none => false)

/-- `DEQ` (R223): the named heads are removed; with `.sink` an end mark is the sink's report (R216). -/
def execDeq (o : Op) (s : State) : Out :=
  let poison := (o.dqa && (s.opnd o.a.toNat).poison) || (o.dqb && (s.opnd o.b.toNat).poison)
  let t := (s.dequeue o).psnIf poison
  .next (if bit o.md.toNat 4 && (s.endHead o.dqa o.a.toNat || s.endHead o.dqb o.b.toNat) then t.reportSink else t)

/-! ### Marks (R215, R224) -/

/-- A mark of a type and round (R26, R27). -/
def markToken (ty : Nat) (round : BitVec 8) : Token :=
  { payload := BitVec.ofNat 256 ty, kind := 2, round := round, tag := 0, poison := false, src := 0 }

/-- A mark sent on the outputs of a mask; a counted end mark carries its LSID and waits for the earlier requests of its
context on that output (R217). -/
def State.sendMark (s : State) (mask : Nat) (t : Token) (lsid : Option Nat) : State :=
  let outs := (List.range 4).filter (fun n => bit mask n)
  let ready := s.atOnce 1
  let u := if outs.isEmpty then s else s.reserve 1 (outs.map Dest.out) none
  let v := outs.foldl (fun u n => u.emit n t ready (lsid.map (fun l => (l, s.earlier (some n))))) u
  match lsid with
  | some l =>
    if outs.isEmpty then
      (v.modCore (fun k => { k with pendCounts := k.pendCounts ++ [(s.cur.ctx, l, s.earlier none)] })).settle s.cur.elem
    else v
  | none => v

/-- `CROUND` advanced (R215). -/
def State.nextRound (s : State) : State := s.modCtx (fun c => { c with cround := c.cround + 1 })

/-- `MFWD` (R224). -/
def execMfwd (o : Op) (s : State) : Out :=
  match s.head (o.a.toNat - 8) with
  | none => .next s
  | some t =>
    let isEnd := t.mark = 1
    let count := if bit o.ty.toNat 0 && isEnd then some o.b.toNat else none
    let u := (s.dequeue o).sendMark (o.md.toNat % 16) t count
    let v := if isEnd then u else u.nextRound
    .next (if bit o.md.toNat 4 && isEnd then v.reportSink else v)

/-- `MGEN` (R224). -/
def execMgen (o : Op) (s : State) : Out :=
  let ty := o.md.toNat % 4
  let count := if bit o.ty.toNat 0 && ty = 1 then some o.b.toNat else none
  let u := s.sendMark (2 ^ (o.dst.toNat % 4)) (markToken ty s.ctx.cround) count
  .next (if ty = 0 then u.nextRound else u)

/-! ### Loops and repeats (R225, R226) -/

/-- `LOOP` (R225). -/
def execLoop (o : Op) (s : State) : Out :=
  let n := o.dst.toNat % 2
  if bit o.imm 12 then
    let a := s.opnd o.a.toNat
    let t := s.dequeue o
    if a.null then .next t
    else .next ((t.modCtx (fun c => { c with l := vs c.l n ((lane a.val 0).extractLsb' 0 16) })).psnIf a.poison)
  else .next (s.modCtx (fun c => { c with l := vs c.l n (BitVec.ofNat 16 (o.imm % 4096)) }))

/-- `LDEC` (R225). -/
def execLdec (o : Op) (s : State) : Out :=
  let n := o.a.toNat % 2
  let p := o.dst.toNat % 8
  let l := vg s.ctx.l n 0
  let l' := if l = 0 then l else l - 1
  .next (((s.reserve 1 [.pred p] none).modCtx (fun c => { c with l := vs c.l n l' })).writeP p (fun _ => l' != 0))

/-- `REP` (R226): the repeat state keeps the executing lanes. -/
def execRep (o : Op) (s : State) : Out :=
  .next (s.modCtx (fun c => { c with
    rep := { slot := BitVec.ofNat 5 o.imm, count := BitVec.ofNat 8 (o.imm / 32), lanes := s.cur.lanes } }))

/-! ### Pond memory (R227) -/

/-- The byte offset of a pond access. -/
def pondOff (base : Payload) (imm : Nat) : Nat := ((lane base 0).toNat % 4096 + 32 * (imm % 128)) % 4096

/-- `LDP` (R227): a misaligned offset is element fault 0x0017. -/
def execLdp (o : Op) (s : State) : Out :=
  let a := s.opnd o.a.toNat
  let off := pondOff a.val o.imm
  if a.null then .next (((s.dequeue o).countAccess (o.imm / 256)).deliver o.dst.toNat 0 true false 0 1)
  else if off % 32 ≠ 0 then .next (s.fireFault 0x17 off)
  else
    let c := pondCell s.cur.elem off
    let val : Payload := BitVec.ofNat 256 (s.readLe c 32)
    .next ((((s.dequeue o).countAccess (o.imm / 256)).psnIf a.poison).deliver o.dst.toNat val false
      (a.poison || s.badAt c) 0 1)

/-- `STP` (R227): the executing lanes of the granule are written; a poisoned operand, the base included, poisons it whole. -/
def execStp (o : Op) (s : State) : Out :=
  let a := s.opnd o.a.toNat
  let b := if bit o.dst.toNat 3 then s.opnd (o.dst.toNat % 8) else { val := 0, null := false, poison := false }
  let off := pondOff b.val o.imm
  if a.null || b.null then .next (((s.dequeue o).countAccess (o.imm / 256)).psnIf (a.poison || b.poison))
  else if off % 32 ≠ 0 then .next (s.fireFault 0x17 off)
  else
    let c := pondCell s.cur.elem off
    let old : Payload := if s.lost c then 0 else BitVec.ofNat 256 (s.readLe c 32)
    let new := ofLanes (fun k => if s.runs k then lane a.val k else lane old k)
    .next (((((s.dequeue o).countAccess (o.imm / 256)).psnIf (a.poison || b.poison)).storeUnit c (toLe 32 new.toNat)
      (a.poison || b.poison)))

/-! ### Edge-port memory and engine commands (R85, R228, R230) -/

/-- The command word: the operation word with bits [23:20] and [1:0] cleared (R85). -/
def commandWord (cls opc : Nat) (o : Op) : Word :=
  BitVec.ofNat 32 (encodeOp cls opc { o with dst := 0, dqa := false, dqb := false })

/-- An address token (R228): lanes 1:0 the address, lane 7 the operation word. -/
def addressToken (s : State) (a : Src) (null : Bool) (w : Word) : Token :=
  s.dataToken (ofLanes (fun k => if k < 2 then lane a.val k else if k = 7 then w else 0)) null a.poison 0

/-- `LDE` (R228). -/
def execLde (o : Op) (s : State) : Out :=
  let a := s.opnd o.a.toNat
  let out := o.dst.toNat - 8
  let ready := s.atOnce 1
  .next (((((s.dequeue o).countAccess o.md.toNat).psnIf a.poison).reserve 1 [.out out] none).emitRequest out
    (addressToken s a a.null (commandWord 2 12 o)) ready)

/-- `STE` (R228): the address token, then the data token. -/
def execSte (o : Op) (s : State) : Out :=
  let a := s.opnd o.a.toNat
  let b := s.opnd o.b.toNat
  let out := o.dst.toNat - 8
  let ready := s.atOnce 1
  let null := a.null || b.null
  let t := (((s.dequeue o).countAccess o.md.toNat).psnIf (a.poison || b.poison)).reserve 1 [.out out, .out out] none
  .next ((t.emitRequest out (addressToken s a null (commandWord 2 13 o)) ready).emit out
    (s.dataToken b.val null b.poison 0) ready none)

/-- `CMDE` (R230): operand a unchanged, as an engine-command packet, counted under the LSID of its command word, null or not
(R217). -/
def execCmde (o : Op) (s : State) : Out :=
  let t := s.forwardOf o.a.toNat
  let out := o.dst.toNat - 8
  let ready := s.atOnce 1
  .next (((((s.dequeue o).countAccess (lsidOf (lane t.payload 7))).psnIf (s.opnd o.a.toNat).poison).reserve 1 [.out out]
    none).emitRequest out t ready)

/-- ENGINE_COMMAND_SEND (R85): lanes 0 to 3 of a, lanes 0 to 2 of b, and the command word. -/
def execEngineCommandSend (opc : BitVec 6) (o : Op) (s : State) : Out :=
  let a := s.opnd o.a.toNat
  let b := s.opnd o.b.toNat
  let out := o.dst.toNat - 8
  let ready := s.atOnce 1
  let null := a.null || b.null
  let w := commandWord 3 opc.toNat o
  let t := s.dataToken (ofLanes (fun k => if k < 4 then lane a.val k else if k < 7 then lane b.val (k - 4) else w)) null
    (a.poison || b.poison) 0
  .next ((((s.dequeue o).countAccess o.md.toNat).psnIf (a.poison || b.poison)).reserve 1 [.out out] none
    |>.emitRequest out t ready)

/-! ### Branch tokens and write-backs (R231, R232, R218) -/

/-- A block fault charged to the region of the firing element (R35, R238). -/
def State.blockFault (s : State) (cause detail : Nat) : State :=
  match s.regionOfElem s.cur.elem with
  | some r => s.fault r.lead
      { cause := cause, elem := none, ctx := 0, slot := 0, bank := 0, detail := BitVec.ofNat 64 detail }
  | none => s

/-- `BRTOK` (R231): a second token is block fault 0x0001, found at the end of the cycle (R35). -/
def execBrtok (o : Op) (s : State) : Out :=
  let k := o.imm % 4
  match s.blockOf s.cur.elem s.cur.ctx with
  | none => .next s
  | some b =>
    if b.branch.isSome then .next (s.blockFault 1 k)
    else .next (s.modBlockOf s.cur.elem s.cur.ctx (fun b => { b with branch := some k }))

/-- `WBK` (R232): lanes 1:0 of a go to the lead pilot, where they arrive at the end of the cycle in element order (R218, R240). -/
def execWbk (o : Op) (s : State) : Out :=
  let a := s.opnd o.a.toNat
  let t := s.dequeue o
  if a.null then .next t
  else .next ((t.psnIf a.poison).modBlockOf s.cur.elem s.cur.ctx (fun b => { b with
    wbIn := b.wbIn ++ [{ elem := s.cur.elem, reg := o.dst.toNat, val := a.val.extractLsb' 0 64, poison := a.poison }] }))

/-! ### Control tokens and faults (R233, R234) -/

/-- `MOVC` (R233): the send form and the take form. -/
def execMovc (o : Op) (s : State) : Out :=
  let port := o.dst.toNat % 2
  let i := o.imm
  if bit i 12 then
    let v := (vg s.core.qin port []).headD false
    let p := i / 256 % 8
    .next (((s.modCore (fun k => { k with qin := vs k.qin port (vg k.qin port []).tail })).reserve 1 [.pred p] none).writeP p
      (fun _ => v))
  else
    let v := if bit i 11 then (vg s.ctx.p (i / 256 % 8) 0).getLsbD (i / 32 % 8) else bit i 0
    .next (s.modCore (fun k => { k with qout := vs k.qout port (vg k.qout port [] ++ [v]) }))

/-- `FAULTE` (R234): element fault 0x0018 with its code. -/
def execFaulte (o : Op) (s : State) : Out := .next (s.fireFault 0x18 (o.imm % 4096))

end Sys2Proof.Machine
end

