-- ==== Sys2Proof/Machine/Fire.lean ====
section
/-!
DEFINITION. Eligibility and selection of a slot, the firing cycle around a meaning, and results that complete
(R207 to R213, R220, R226, R245, R246, R295, R297; spec/08_trigger.md).
-/
namespace Sys2Proof.Machine
open Sys2Proof

/-- What an instruction uses (R210): operand codes it reads, which kinds it takes at a head (0 data and null, 1 marks,
2 any), predicates it reads, registers it writes, outputs with the entries they need, control ports, and whether it
uses the brick array or waits for every earlier result of its context (R265). -/
structure Use where
  srcs : List Nat
  accept : Nat
  preds : List Nat
  dests : List Dest
  outs : List (Nat × Nat)
  ctlIn : Option Nat
  ctlOut : Option Nat
  array : Bool
  quiet : Bool
  tile : Option Nat
  span : Nat
  deriving DecidableEq, Repr

/-- The use of nothing. -/
def Use.none : Use :=
  { srcs := [], accept := 0, preds := [], dests := [], outs := [], ctlIn := Option.none, ctlOut := Option.none,
    array := false, quiet := false, tile := Option.none, span := 1 }

/-- A register or output destination (R79). -/
def Use.to (u : Use) (dst : Nat) : Use :=
  if dst < 8 then { u with dests := .vreg dst :: u.dests }
  else if dst < 12 then { u with outs := (dst - 8, 1) :: u.outs }
  else u

/-- The sources of a vector opcode: how many operands it reads (R243, R247 to R269). -/
def vecArity (opc : Nat) : Nat :=
  match opc with
  | 0x05 | 0x06 | 0x0C | 0x11 | 0x12 | 0x1E | 0x1F | 0x24 | 0x28 | 0x2B | 0x2C | 0x2D | 0x2E | 0x2F | 0x30 | 0x31 | 0x32
  | 0x33 | 0x34 | 0x35 | 0x36 | 0x38 | 0x3A | 0x3C => 1
  | 0x37 | 0x39 => 0
  | _ => 2

/-- What a vector-class word uses. -/
def vecUse (opc : Nat) (o : Op) : Use :=
  let a := o.a.toNat
  let b := o.b.toNat
  let d := o.dst.toNat
  let srcs := match vecArity opc with
    | 0 => []
    | 1 => [a]
    | _ => [a, b]
  let base : Use := { Use.none with srcs := srcs }
  if opc = 0x04 || opc = 0x1B then { base.to d with srcs := d :: srcs }
  else if opc = 0x21 || opc = 0x22 then { base with dests := [.pred (d % 8)] }
  else if opc = 0x23 then { base.to d with preds := [o.md.toNat / 4] }
  else if opc = 0x38 then
    let m := o.md.toNat
    if m = 3 || m = 5 then { base with quiet := true } else { base.to d with quiet := m != 0 }
  else base.to d

/-- What a brick-class word uses in an element `ox` columns from its node's origin (R291, R295): only the leader of a span emits
(R288). -/
def brickUse (opc : Nat) (o : Op) (fuse : Nat → BitVec 16) (ox : Nat) : Use :=
  let a := o.a.toNat
  let b := o.b.toNat
  let d := o.dst.toNat
  let span := (Shape.of (fuse o.shape)).span
  match opc with
  | 0x00 | 0x01 | 0x03 | 0x06 | 0x07 => { Use.none with srcs := [a, b], array := true, span := span }
  | 0x02 => { Use.none with srcs := [d, a, b], dests := [.vreg d], array := true }
  | 0x04 =>
    let fwd := if bit o.bmd 3 then [(o.bmd / 2 % 4, 1)] else []
    let em := if bit b 4 && ox % span = 0 then [(b / 4 % 4, 1)] else []
    { Use.none with srcs := [a], outs := fwd ++ em, array := true, tile := some (o.bmd % 2), span := span }
  | 0x05 | 0x0E | 0x10 | 0x0A => { Use.none with srcs := [a] }
  | 0x08 => { (Use.none.to d) with srcs := [a, b] }
  | 0x0B => { Use.none with srcs := if o.bmd / 4 = 3 then [a, b] else [a] }
  | 0x0D => { (Use.none.to d) with srcs := [a], array := true }
  | 0x0F => { Use.none with srcs := [a, b], array := true }
  | _ => Use.none

/-- What a trigger-class word uses (R219). -/
def trigUse (opc : Nat) (o : Op) : Use :=
  let a := o.a.toNat
  let b := o.b.toNat
  let d := o.dst.toNat
  match opc with
  | 0x02 =>
    { Use.none with preds := if o.md.toNat % 8 < 5 then [a % 8, b % 8] else [a % 8], dests := [.pred (d % 8)] }
  | 0x01 | 0x0A => { Use.none with dests := [.pred (d % 8)] }
  | 0x03 | 0x05 => { (Use.none.to d) with srcs := [a] }
  | 0x04 =>
    { Use.none with srcs := (if o.dqa then [a] else []) ++ (if o.dqb then [b] else []),
                    accept := if bit o.md.toNat 3 then 1 else 2 }
  | 0x06 =>
    { Use.none with srcs := [a], accept := 1,
                    outs := ((List.range 4).filter (fun n => bit o.md.toNat n)).map (fun n => (n, 1)) }
  | 0x07 | 0x08 => Use.none.to d
  | 0x09 => { Use.none with srcs := if bit o.imm 12 then [a] else [] }
  | 0x0C | 0x10 => { (Use.none.to d) with srcs := [a] }
  | 0x0D => { Use.none with srcs := [a, b], outs := [(d - 8, 2)] }
  | 0x0E => { (Use.none.to d) with srcs := [a] }
  | 0x0F => { Use.none with srcs := if bit d 3 then [d % 8, a] else [a] }
  | 0x12 => { Use.none with srcs := [a] }
  | 0x13 =>
    if bit o.imm 12 then { Use.none with ctlIn := some (d % 2), dests := [.pred (o.imm / 256 % 8)] }
    else { Use.none with ctlOut := some (d % 2), preds := if bit o.imm 11 then [o.imm / 256 % 8] else [] }
  | _ => Use.none

/-- What an element word uses. -/
def useOf (i : Instr) (fuse : Nat → BitVec 16) (ox : Nat) : Use :=
  match i.elementCode with
  | some (0, opc, o) => vecUse opc o
  | some (1, opc, o) => brickUse opc o fuse ox
  | some (2, opc, o) => trigUse opc o
  | some (_, _, o) => { (Use.none.to o.dst.toNat) with srcs := [o.a.toNat, o.b.toNat] }
  | none => Use.none

/-! ### Presence and guards (R208, R209) -/

/-- The data-binding byte of a context (R90). -/
def ElemCfg.dbindOf (c : ElemCfg) (k : Nat) : Nat := c.dbind.toNat / 2 ^ (8 * k) % 256
/-- The control-binding nibble of a context (R90). -/
def ElemCfg.cbindOf (c : ElemCfg) (k : Nat) : Nat := c.cbind.toNat / 2 ^ (4 * k) % 16
/-- Whether a context reads an input round-free (R90, R209). -/
def ElemCfg.freeOf (c : ElemCfg) (k i : Nat) : Bool := c.rfree.getLsbD (4 * k + i)

/-- Whether a token at the head of input `i` is present to context `k` (R209): tide and swap marks never are. -/
def ElemCore.present (e : ElemCore) (bank k i : Nat) (t : Token) : Bool :=
  let cfg := vg e.cfg bank ElemCfg.empty
  let c := vg e.ctx (bank * 4 + k) (Ctx.activated 0)
  if t.isMark && !t.isRoundEnd then false
  else
    let diff := (t.round - c.cround).toNat
    cfg.freeOf k i || diff = 0 || diff ≥ 128

/-- The head of an input, where it is present. -/
def ElemCore.seen (e : ElemCore) (bank k i : Nat) : Option Token :=
  match (vg e.inp i []).head? with
  | some t => if e.present bank k i t then some t else none
  | none => none

/-- The lanes of a guard's predicate test, or none where it fails (R208). -/
def guardLanes (guard : Nat) (c : Ctx) : Option (BitVec 8) :=
  let p := vg c.p (guard / 256 % 8) 0
  let test := guard / 64 % 4
  if test = 0 then some 0xFF
  else
    let set := if test = 1 then p else ~~~ p
    if bit guard 11 then (if set = 0xFF then some 0xFF else none)
    else if set = 0 then none else some set

/-- Whether the head selector's condition and the tag test hold (R208). -/
def guardHead (guard : Nat) (e : ElemCore) (bank k : Nat) : Bool :=
  let sel := guard / 8 % 8
  let cfg := vg e.cfg bank ElemCfg.empty
  match sel with
  | 0 => true
  | 5 => !(vg e.qin 0 []).isEmpty
  | 6 => !(vg e.qin 1 []).isEmpty
  | 7 => (List.range 4).any (fun i => bit (cfg.dbindOf k) i &&
      (match e.seen bank k i with | some t => t.isRoundEnd | none => false))
  | n => match e.seen bank k (n - 1) with
    | some t => !t.isMark && (!(bit guard 0) || t.tag.toNat = guard / 2 % 4)
    | none => false

/-! ### Eligibility (R210, R295) -/

/-- Whether an outstanding result of a context writes a destination. -/
def Ctx.waits (c : Ctx) (d : Dest) : Bool := c.outst.any (fun x => x.dests.contains d)

/-- Whether an operand is ready: a head of an accepted kind, a register or accumulator with no outstanding write. -/
def ElemCore.operandReady (e : ElemCore) (bank k accept code : Nat) : Bool :=
  let c := vg e.ctx (bank * 4 + k) (Ctx.activated 0)
  if code < 8 then !c.waits (.vreg code)
  else if code < 12 then
    match e.seen bank k (code - 8) with
    | some t => match accept with
      | 0 => !t.isMark
      | 1 => t.isRoundEnd
      | _ => true
    | none => false
  else if code < 16 then !c.waits (.acc (code - 12))
  else true

/-- Whether a destination has room (R210): a register with no outstanding write; accumulators, predicates and the rest
always. -/
def Ctx.room (c : Ctx) (d : Dest) : Bool :=
  match d with
  | .vreg n => !c.waits (.vreg n)
  | _ => true

/-- Whether the deposit queue of a member has room (R288): two deposits for each slot and context, in the adder that takes them. -/
def State.depositRoom (s : State) (e bank k slot span : Nat) : Bool :=
  if span < 2 then true
  else
    let cfg := vg (s.elem e).core.cfg bank ElemCfg.empty
    let lead := elemAt (colOf e - cfg.ox % span) (rowOf e)
    let q := tget ((s.elem lead).adder bank).group (groupKey slot (bank * 4 + k)) []
    (q.filter (fun d => d.member = cfg.ox % span)).length < 2

/-- Whether the conditions of R210 and R295 other than the guard hold. -/
def State.usable (s : State) (e bank k slot : Nat) (u : Use) : Bool :=
  let core := (s.elem e).core
  let c := vg core.ctx (bank * 4 + k) (Ctx.activated 0)
  u.srcs.all (core.operandReady bank k u.accept)
    && u.preds.all (fun p => !c.waits (.pred p))
    && u.dests.all c.room
    && u.outs.all (fun o => (vg core.out o.1 []).length + o.2 ≤ 2)
    && (match u.ctlIn with | some q => !(vg core.qin q []).isEmpty | none => true)
    && (match u.ctlOut with | some q => (vg core.qout q []).length < 2 | none => true)
    && (!u.array || core.array = 0)
    && (!u.quiet || c.outst.isEmpty)
    && (match u.tile with | some n => (vg c.tiles n Tile.zero).full | none => true)
    && s.depositRoom e bank k slot u.span

/-- The lanes in which a slot would execute for a context, where it is eligible (R210). A repeated slot's guard is not
evaluated (R226). -/
def State.eligible (s : State) (e bank k slot : Nat) : Option (BitVec 8) :=
  let core := (s.elem e).core
  let cfg := vg core.cfg bank ElemCfg.empty
  let c := vg core.ctx (bank * 4 + k) (Ctx.activated 0)
  let w := (lget cfg.slots slot 0).toNat
  let guard := w % 65536
  match cfg.instr slot with
  | none => none
  | some i =>
    let u := useOf i (fun n => vg cfg.fuse n 0) cfg.ox
    if c.rep.count != 0 then
      if c.rep.slot.toNat = slot && s.usable e bank k slot u then some c.rep.lanes else none
    else
      match guardLanes guard c with
      | none => none
      | some lanes =>
        if bit guard (12 + k) && guardHead guard core bank k
            && !(guard / 64 % 4 != 0 && c.waits (.pred (guard / 256 % 8)))
            && s.usable e bank k slot u then some lanes else none

/-- The lowest eligible slot of a context, from slot `k` on. -/
def State.lowest (s : State) (e bank k slot : Nat) : Nat → Option (Nat × BitVec 8)
  | 0 => none
  | n + 1 =>
    match s.eligible e bank k slot with
    | some l => some (slot, l)
    | none => State.lowest s e bank k (slot + 1) n

/-- The slot that a context would fire: none while it yields (R220). -/
def State.contextFires (s : State) (e bank k : Nat) : Option (Nat × BitVec 8) :=
  if (vg (s.elem e).core.ctx (bank * 4 + k) (Ctx.activated 0)).yielded then none
  else s.lowest e bank k 0 (vg (s.elem e).core.cfg bank ElemCfg.empty).slots.length

/-- What the trigger unit chooses (R211): the first context after the pointer that has an eligible slot, and its lowest
eligible slot with the lanes that execute. -/
def State.choose (s : State) (e : Nat) : Option (Nat × Nat × BitVec 8) :=
  let core := (s.elem e).core
  let bank := core.active
  ([1, 2, 3, 4].map (fun d => (core.ptr + d) % 4)).findSome? (fun k =>
    (s.contextFires e bank k).map (fun r => (k, r.1, r.2)))

/-- The divider of an element (R25): that of its block's table, or Voxkan's where it is larger. -/
def State.divOf (s : State) (r : Region) (e : Nat) : Nat := max 1 (max (vg r.div (rowOf e / 8) 1) (tget s.therm (domainOf e) 1))

/-- The number by which a VD holds the slack step of a convoy of another module: its route and home identifier (R456, R458). -/
def farConvoy (id : Nat) : Nat := 65536 + id

/-- The convoys of which a region is a member, by the numbers of `Vd.steps`: those of this module, and those of other modules (R458). -/
def State.convoysOf (s : State) (r : Region) : List Nat :=
  ((s.vd r.vd).convoys.filter (fun (x : Nat × Convoy) => x.2.later.contains r.graph)).map (fun x => x.1) ++ r.joined.map farConvoy

/-- The slack step that holds for a member region: the largest of its convoys' (R458). -/
def State.slackStep (s : State) (r : Region) : Nat :=
  ((s.convoysOf r).map (fun c => (tget (s.vd r.vd).steps c (0, 0)).1)).foldl max 0

/-- Whether a slack step lets an element fire in cycle `i` of 30: in 30 − `step` of them, by a pattern that is not given (R458). -/
def slackFires (step i : Nat) : Bool :=
  let before := (List.range 30).filter (fun j =>
    Config.slackKey step j < Config.slackKey step i || (Config.slackKey step j = Config.slackKey step i && j < i))
  step = 0 || before.length < 30 - step

/-- Whether this is an element's cycle (R25) and it has not had it. -/
def State.elemCycle (s : State) (r : Region) (e : Nat) : Bool :=
  s.fires r && s.cycle % s.divOf r e = 0 && (s.elem e).last != s.cycle + 1

/-- Whether the slack step of a convoy member holds an element back in this cycle (R458). -/
def State.slackHolds (s : State) (r : Region) (e : Nat) : Bool :=
  !slackFires (s.slackStep r) (s.cycle / s.divOf r e % 30)

/-- Whether an element may fire: its region's elements fire in this cycle, the element is not blocked, and no tide has saved it (R392). -/
def State.mayFire (s : State) (e : Nat) : Bool :=
  match s.regionOfElem e with
  | some r => s.fires r && !(s.elem e).core.blocked && (s.elem e).snap.isNone
      && (vg (s.elem e).core.cfg (s.elem e).core.active ElemCfg.empty).loaded
  | none => false

/-! ### Around a meaning (R211, R220, R226, R245) -/

/-- The instruction that the element fires, and the state in which its meaning runs. -/
def State.firing (s : State) (e : Nat) : Option (Instr × State) :=
  if !s.mayFire e then none
  else
    match s.choose e with
    | none => none
    | some (k, slot, lanes) =>
      let bank := (s.elem e).core.active
      match (vg (s.elem e).core.cfg bank ElemCfg.empty).instr slot with
      | some i => some (i, { s with cur := { s.cur with elem := e, ctx := bank * 4 + k, slot := slot, lanes := lanes } })
      | none => none

/-- The element faults of a region so far. -/
def State.faultCount (s : State) (e : Nat) : Nat :=
  match s.regionOfElem e with
  | some r => (r.faults.filter (fun f => f.elem.isSome)).length
  | none => 0

/-- The flags that a firing with an outstanding result has raised, `AFLAGS`.PSN apart, wait for that result (R246): PSN tells of the
operands that the firing read (R207). -/
def State.flagsWait (s t : State) : State :=
  let n := t.ctx.outst.length
  if s.ctx.outst.length < n then
    let u := s.modCtx (fun c => { c with aflags := c.aflags ||| (t.ctx.aflags &&& 1#32 <<< flagPSN) })
    u.flagsLater t (n - 1)
  else t

/-- What a firing leaves besides its meaning: the pointer, the repeat count, the yield flags of the other contexts, its flags with
its result. A faulting firing has no effect (R239). -/
def State.afterFiring (s t : State) (e k bank : Nat) : State :=
  if t.faultCount e > s.faultCount e then t
  else
    let t := s.flagsWait t
    let rep := (vg (s.elem e).core.ctx (bank * 4 + k) (Ctx.activated 0)).rep.count != 0
    (t.touch (pilotOfCol (colOf e))).modElem e (fun m =>
      let core := m.core
      let ctx := core.ctx.mapIdx (fun i c =>
        if i = bank * 4 + k then
          (if rep then { c with rep := { c.rep with count := c.rep.count - 1 } } else c)
        else { c with yielded := false })
      { m with core := { core with ctx := ctx, ptr := k, idle := 0 } })

/-- One element cycle less for the results in the pipeline, the deposits and the array (R245, R286, R297). -/
def ElemCore.tick (c : ElemCore) : ElemCore :=
  { c with array := c.array - 1,
           group := c.group.map (fun x => (x.1, x.2.map (fun d => { d with left := d.left - 1 }))),
           ctx := c.ctx.mapIdx (fun _ x => { x with outst := x.outst.map (fun o =>
             if o.group.isSome then o else { o with left := o.left - 1 }) }) }

/-- Whether the first outstanding result of a context completes now. -/
def Ctx.due (c : Ctx) : Bool :=
  match c.outst with
  | x :: _ => x.left = 0 && x.group.isNone
  | [] => false

/-- The end of a firing cycle of an element: results that have run their cycles complete (R245), and yield flags time
out after four cycles without a firing (R220). A group adder is looked at in every cycle of its leader. -/
def State.endCycle (s : State) (e : Nat) : State :=
  let t := s.modElem e (fun m => { m with core := m.core.tick })
  let u := (List.range 8).foldl (fun u c =>
    if (vg (t.elem e).core.ctx c (Ctx.activated 0)).due then u.soon .brickResultCompletes e c 0 else u) t
  let u := (t.elem e).core.group.foldl (fun u x => if x.2.isEmpty then u else u.soon .groupAdderStep e x.1 0) u
  if (t.elem e).core.idle ≥ 4 then u.soon .yieldClearTimeout e 0 0 else u

/-- A cycle in which nothing fired. -/
def State.idleCycle (s : State) (e : Nat) : State :=
  s.modElem e (fun m => { m with core := { m.core with idle := m.core.idle + 1 } })

/-! ### Results that complete, yield flags that time out -/

/-- The first token of a path that is not ready becomes ready. -/
def readyFirst (path : Nat) : List OutTok → List OutTok
  | [] => []
  | x :: r => if !x.ready && srcPath x.tok.src = path then { x with ready := true } :: r else x :: readyFirst path r

/-- The outputs that a result completes into. -/
def Dest.outOf : Dest → Option Nat
  | .out n => some n
  | _ => Option.none

/-- BRICK_RESULT_COMPLETES at element `x`, context `y` (R245, R246, R297): the oldest outstanding result of the context
completes once its cycles have run, and so do those behind it whose cycles have run too. Its flags are raised (R246). -/
def State.completeFirst (s : State) (e c : Nat) : State :=
  s.modElem e (fun m =>
    let core := m.core
    let ctx := vg core.ctx c (Ctx.activated 0)
    if ctx.due then
      match ctx.outst with
      | [] => m
      | x :: r =>
        let out := (x.dests.filterMap Dest.outOf).foldl (fun o n =>
          vs o n (readyFirst (1 + (e * 8 + c) * 4 + n) (vg o n []))) core.out
        { m with core := { core with ctx := vs core.ctx c { ctx with outst := r, aflags := ctx.aflags ||| x.flags }, out := out } }
    else m)

/-- The results of a context that are due complete in firing order. -/
def State.completeDue (s : State) (e c : Nat) : Nat → State
  | 0 => s
  | n + 1 =>
    if (vg (s.elem e).core.ctx c (Ctx.activated 0)).due then State.completeDue (s.completeFirst e c) e c n else s

/-- BRICK_RESULT_COMPLETES (R245, R246, R297). -/
def execBrickResultCompletes (s : State) : Out :=
  .next (s.completeDue s.cur.x s.cur.y (vg (s.elem s.cur.x).core.ctx s.cur.y (Ctx.activated 0)).outst.length)

/-- YIELD_CLEAR_TIMEOUT at element `x` (R220): after four firing cycles in which nothing fired. -/
def execYieldClearTimeout (s : State) : Out :=
  if (s.elem s.cur.x).core.idle < 4 then .next s
  else
    .next (s.modElem s.cur.x (fun m => { m with core := { m.core with
      idle := 0, ctx := m.core.ctx.mapIdx (fun _ c => { c with yielded := false }) } }))

end Sys2Proof.Machine
end

