-- ==== Sys2Proof/Machine/SlotCheck.lean ====
section
/-!
DEFINITION. The check of an element slot when it is loaded: guard, bindings, fields, types, masks (R78, R79, R81, R85,
R219, R226, R235, R242 to R269, R291, R292, R296, R311). A slot that fails gives code 0x11 of R91, or 0x0A for an LSID.
-/
namespace Sys2Proof.Machine
open Sys2Proof

/-- What a slot is checked against: the bindings of its node, the block's header fields, the node's width and slots. -/
structure SlotEnv where
  dbind : Nat
  cbind : Nat
  fuse : Vector (BitVec 16) 16
  systolic : Bool
  targets : Nat
  wbMask : Nat
  storeMask : Nat
  loadMask : Nat
  width : Nat
  slots : List (BitVec 48)
  deriving DecidableEq, Repr

/-- The contexts that a slot enables. -/
def enabledOf (guard : Nat) : List Nat := (List.range 4).filter (fun c => bit guard (12 + c))

/-- Whether every enabled context binds a data input. -/
def SlotEnv.inBound (v : SlotEnv) (guard i : Nat) : Bool := (enabledOf guard).all (fun c => bit v.dbind (8 * c + i))
/-- Whether every enabled context binds a data output. -/
def SlotEnv.outBound (v : SlotEnv) (guard i : Nat) : Bool :=
  (enabledOf guard).all (fun c => bit v.dbind (8 * c + 4 + i))
/-- Whether every enabled context binds a control port (`q0` to `q3`). -/
def SlotEnv.ctlBound (v : SlotEnv) (guard q : Nat) : Bool := (enabledOf guard).all (fun c => bit v.cbind (4 * c + q))

/-- The guard word (R78). -/
def SlotEnv.guardOk (v : SlotEnv) (guard : Nat) : Bool :=
  let sel := guard / 8 % 8
  guard / 64 % 4 != 3
    && !(bit guard 0 && (sel = 0 || sel ≥ 5))
    && (if 1 ≤ sel && sel ≤ 4 then v.inBound guard (sel - 1)
        else if sel = 5 then v.ctlBound guard 0
        else if sel = 6 then v.ctlBound guard 1
        else true)

/-- An operand code that may name anything but an accumulator (R79, R291). -/
def SlotEnv.anyOk (v : SlotEnv) (guard code : Nat) : Bool :=
  if code < 8 then true else if code < 12 then v.inBound guard (code - 8) else 16 ≤ code
/-- A head operand (R219). -/
def SlotEnv.headOk (v : SlotEnv) (guard code : Nat) : Bool :=
  8 ≤ code && code < 12 && v.inBound guard (code - 8)
/-- A destination `o0`-`o3` that every enabled context binds. -/
def SlotEnv.outOk (v : SlotEnv) (guard code : Nat) : Bool :=
  8 ≤ code && code < 12 && v.outBound guard (code - 8)
/-- A destination `v0`-`v7` or `o0`-`o3`. -/
def SlotEnv.dstOk (v : SlotEnv) (guard code : Nat) : Bool := code < 8 || v.outOk guard code

/-- A dequeue bit is set only on a head (R79). -/
def deqOk (dq : Bool) (code : Nat) : Bool := !dq || (8 ≤ code && code < 12)

/-! ### The vector class (R242 to R269) -/

/-- The types of a vector opcode. -/
def vecTypes (opc : Nat) : List Nat :=
  match opc with
  | 0x00 | 0x01 | 0x02 | 0x03 | 0x04 | 0x07 | 0x08 | 0x13 | 0x14 | 0x15 => [0, 1, 5, 6, 7]
  | 0x05 | 0x06 | 0x0D | 0x0E | 0x0F | 0x10 | 0x11 | 0x12 => [0, 5, 6]
  | 0x18 | 0x19 | 0x1A | 0x1B | 0x1C | 0x1D | 0x1E | 0x1F | 0x20 => [2, 3, 4]
  | 0x21 => [0, 1]
  | 0x22 | 0x24 | 0x29 | 0x2C | 0x2D | 0x2E | 0x2F | 0x30 | 0x31 | 0x32 | 0x3B | 0x3C => [2]
  | 0x28 | 0x39 => [0, 1, 2, 3, 4, 5, 6, 7]
  | 0x2A => [0, 1, 2, 3, 4, 5]
  | 0x2B => [3, 4, 5, 6, 7]
  | 0x35 | 0x36 => [0, 1, 2]
  | _ => [0]

/-- The modifier of a vector opcode and type: `.ovf` has no effect on `SQRT` and `FSCALE`, whose rules ask for no zero in its place
(R52, R248, R260, R268). -/
def vecModOk (opc ty md : Nat) : Bool :=
  match opc with
  | 0x18 | 0x19 | 0x1A | 0x1B => md ≤ 4
  | 0x30 | 0x3B => md < 16 && md % 8 ≤ 4
  | 0x21 => md ≤ 5
  | 0x22 => md ≤ 7
  | 0x23 => md % 4 = 0
  | 0x28 => md % 8 ≤ 4 && !(ty ≥ 6 && md ≥ 16)
  | 0x29 => md % 8 = 0
  | 0x2A => md % 8 ≤ 4
  | 0x2B => md % 16 ≤ 1 && !((ty = 3 || ty = 4) && md ≥ 16)
  | 0x33 | 0x34 => md < 8
  | 0x35 | 0x36 => md / 8 ≤ 2 && (if ty = 2 && md / 8 = 0 then md % 8 ≤ 3 else md % 8 = 0)
  | 0x37 => md < 4
  | 0x38 => md ≤ 5
  | 0x39 => true
  | 0x3C => md ≤ 1
  | _ => md = 0

/-- The destination field of a vector opcode. -/
def SlotEnv.vecDst (v : SlotEnv) (guard opc md d : Nat) : Bool :=
  if opc = 0x04 || opc = 0x1B || opc = 0x21 || opc = 0x22 then d < 8
  else if opc = 0x38 && (md = 3 || md = 5) then d = 0
  else v.dstOk guard d

/-- A vector-class word. -/
def SlotEnv.vectorOk (v : SlotEnv) (guard opc : Nat) (o : Op) : Bool :=
  let a := o.a.toNat
  let b := o.b.toNat
  let srcs := match vecArity opc with
    | 0 => a = 0 && !o.dqa && !o.dqb && (opc = 0x39 || b = 0)
    | 1 => v.anyOk guard a && b = 0 && !o.dqb
    | _ => v.anyOk guard a && v.anyOk guard b
  srcs && deqOk o.dqa a && deqOk o.dqb b
    && (vecTypes opc).contains o.ty.toNat && vecModOk opc o.ty.toNat o.md.toNat
    && v.vecDst guard opc o.md.toNat o.dst.toNat
    && (opc != 0x3A || (16 ≤ a && a ≤ 24))

/-! ### The brick class (R291, R292, R296, R311) -/

/-- Whether a fusing entry is assigned (R88). -/
def fuseOk (e : Nat) : Bool :=
  let wOk : Nat → Nat → Bool := fun f w => match f with
    | 0 | 1 => w = 0 || w = 1 || w = 2 || w = 3 || w = 5
    | 2 => w = 0
    | 3 | 4 | 5 | 6 => w = 1
    | 7 => w = 2
    | 8 => w = 3
    | 9 => w = 4
    | _ => false
  e / 256 % 4 != 3 && wOk (e / 16 % 16) (e / 8192) && wOk (e % 16) (e / 1024 % 8)

/-- Whether a fusing entry suits a brick instruction (R292), and its span the node (R288). -/
def SlotEnv.shapeOk (v : SlotEnv) (opc : Nat) (o : Op) : Bool :=
  let e := (vg v.fuse o.shape 0).toNat
  let h := Shape.of (vg v.fuse o.shape 0)
  let af := e / 16 % 16
  let bf := e % 16
  let same := container h.af h.aw = container h.bf h.bw
  let wide : Nat → Bool := fun w => w = 3 || w = 4 || w = 5
  let n := v.width % h.span = 0
  match opc with
  | 0x00 | 0x01 | 0x03 | 0x04 => same && n
  | 0x02 => af ≤ 1 && bf ≤ 1 && same && h.span = 1
  | 0x06 => same && h.span = 1 && (wide (e / 8192) || wide (e / 1024 % 8))
  | 0x07 => o.bmd % 4 < h.na && o.bmd / 4 < 32 / container h.bf h.bw && n
  | 0x0F => h.span = 1
  | _ => o.shape = 0

/-- A brick-class word. -/
def SlotEnv.brickOk (v : SlotEnv) (guard opc : Nat) (o : Op) : Bool :=
  let a := o.a.toNat
  let b := o.b.toNat
  let d := o.dst.toNat
  let m := o.bmd
  let anyA := v.anyOk guard a
  let anyB := v.anyOk guard b
  let acc := 12 ≤ d
  let deqs := deqOk o.dqa a && deqOk o.dqb b
  let noDeq := !o.dqa && !o.dqb
  match opc with
  | 0x00 | 0x06 | 0x0F => acc && anyA && anyB && v.shapeOk opc o && m = 0 && deqs
  | 0x01 | 0x03 => acc && anyA && anyB && v.shapeOk opc o && m < 8 && deqs
  | 0x02 => d < 8 && anyA && anyB && v.shapeOk opc o && m = 0 && deqs
  | 0x04 =>
    let emit := bit b 4
    let fwd := bit m 3
    acc && anyA && v.shapeOk opc o && v.systolic && deqOk o.dqa a && !o.dqb
      && (emit || b = 0) && (fwd || m / 2 % 4 = 0)
      && (!emit || v.outBound guard (b / 4 % 4)) && (!fwd || v.outBound guard (m / 2 % 4))
      && !(emit && fwd && b / 4 % 4 = m / 2 % 4)
  | 0x05 =>
    d < 2 && anyA && b = 0 && o.shape = 0 && (!bit m 3 || m % 8 = 0) && v.systolic && deqOk o.dqa a && !o.dqb
  | 0x07 => acc && anyA && anyB && v.shapeOk opc o && deqs
  | 0x08 =>
    v.dstOk guard d && 12 ≤ a && a < 16 && anyB && o.shape < 4 && !o.dqa && deqOk o.dqb b
      && !(bit m 1 && m / 4 != 0) && !(d < 8 && o.shape != 0)
  | 0x09 => d = 0 && a = 0 && b = 0 && o.shape = 0 && m != 0 && noDeq
  | 0x0A => acc && anyA && b = 0 && o.shape = 0 && m % 4 = 0 && deqOk o.dqa a && !o.dqb
  | 0x0B =>
    acc && o.shape = 0 && m % 4 = 0 && deqs
      && (if m / 4 < 2 then anyA else 12 ≤ a && a < 16)
      && (if m / 4 = 3 then anyB else b = 0 && !o.dqb)
  | 0x0C =>
    let i := o.imm
    d = 0 && a = 0 && noDeq && i / 16 % 4 = 0 && i % 16 != 0 && !(bit i 12 && i / 64 % 64 != 0)
  | 0x0D => v.dstOk guard d && anyA && b = 0 && o.shape = 0 && !bit m 3 && m / 2 % 4 != 3 && deqOk o.dqa a && !o.dqb
  | 0x0E => d = 0 && anyA && b = 0 && o.shape = 0 && m < 2 && deqOk o.dqa a && !o.dqb
  | 0x10 => d = 0 && anyA && b = 0 && o.shape = 0 && m = 0 && deqOk o.dqa a && !o.dqb
  | _ => false

/-! ### The trigger class (R219, R235) -/

/-- Whether a slot is a `REP` (R226). -/
def isRep (w : Nat) : Bool := w / 2 ^ 40 = 0x8B

/-- The target of a `REP` in slot `k` (R226). -/
def SlotEnv.repOk (v : SlotEnv) (guard k imm : Nat) : Bool :=
  let t := imm % 32
  imm / 32 != 0 && t < v.slots.length && t != k
    && (let w := (lget v.slots t 0).toNat
        !isRep w && (enabledOf guard).all (fun c => bit w (12 + c)))

/-- The immediate of `MOVC` (R233). -/
def movcOk (i : Nat) : Bool :=
  if bit i 12 then !bit i 11 && i % 256 = 0
  else if bit i 11 then i % 32 = 0
  else i / 2 % 1024 = 0

/-- A trigger-class word. -/
def SlotEnv.triggerOk (v : SlotEnv) (guard k opc : Nat) (o : Op) : Bool :=
  let a := o.a.toNat
  let b := o.b.toNat
  let d := o.dst.toNat
  let ty := o.ty.toNat
  let m := o.md.toNat
  let i := o.imm
  let anyA := v.anyOk guard a
  let noDeq := !o.dqa && !o.dqb
  let deqA := deqOk o.dqa a && !o.dqb
  let zero := a = 0 && b = 0 && ty = 0 && m = 0 && noDeq
  match opc with
  | 0x00 | 0x14 => d = 0 && zero
  | 0x01 => d < 8 && a = 0 && noDeq && i / 2048 != 3 && i / 256 % 8 = 0
  | 0x02 => d < 8 && a < 8 && b < 8 && ty = 0 && m < 8 && noDeq && (m < 5 || b = 0)
  | 0x03 | 0x10 => v.outOk guard d && anyA && b = 0 && ty = 0 && m = 0 && deqA
  | 0x04 =>
    d = 0 && ty = 0 && m % 8 = 0 && (o.dqa || o.dqb)
      && (if o.dqa then v.headOk guard a else a = 0) && (if o.dqb then v.headOk guard b else b = 0)
  | 0x05 => v.outOk guard d && anyA && i < 4 && deqA
  | 0x06 =>
    d = 0 && v.headOk guard a && ty < 2 && (ty = 1 || b = 0) && o.dqa && !o.dqb
      && (List.range 4).all (fun n => !bit m n || v.outBound guard n)
  | 0x07 => v.outOk guard d && a = 0 && ty < 2 && (ty = 1 || b = 0) && m < 2 && noDeq
  | 0x08 => v.outOk guard d && zero
  | 0x09 =>
    d < 2 && (if bit i 12 then anyA && i % 4096 = 0 && deqA else a = 0 && noDeq)
  | 0x0A => d < 8 && a < 2 && b = 0 && ty = 0 && m = 0 && noDeq
  | 0x0B => d = 0 && a = 0 && noDeq && v.repOk guard k i
  | 0x0C => v.outOk guard d && anyA && b = 0 && ty < 3 && deqA
  | 0x0D => v.outOk guard d && anyA && v.anyOk guard b && ty % 4 < 3 && deqOk o.dqa a && deqOk o.dqb b
  | 0x0E => v.dstOk guard d && anyA && !bit i 7 && deqA
  | 0x0F => (bit d 3 || d = 0) && anyA && !bit i 7 && deqA
  | 0x11 => d = 0 && a = 0 && noDeq && i < v.targets
  | 0x12 => anyA && b = 0 && ty = 0 && m = 0 && deqA
  | 0x13 => d < 2 && a = 0 && noDeq && movcOk i && v.ctlBound guard (if bit i 12 then d % 2 else 2 + d % 2)
  | 0x15 => d = 0 && a = 0 && noDeq && i < 4096
  | _ => false

/-- The LSID that a trigger-class word must have in a mask (R224, R227, R228, R235): whether it keeps it. -/
def SlotEnv.lsidOk (v : SlotEnv) (opc : Nat) (o : Op) : Bool :=
  match opc with
  | 0x06 => !bit o.ty.toNat 0 || bit v.storeMask o.b.toNat
  | 0x07 => !bit o.ty.toNat 0 || bit v.storeMask o.b.toNat
  | 0x0C => bit v.loadMask o.md.toNat
  | 0x0D => bit v.storeMask o.md.toNat
  | 0x0E => bit v.loadMask (o.imm / 256)
  | 0x0F => bit v.storeMask (o.imm / 256)
  | _ => true

/-! ### A whole slot -/

/-- Whether an operation word is legal in slot `k` of a node. -/
def SlotEnv.opOk (v : SlotEnv) (guard k w : Nat) : Bool :=
  let o := decodeOp w
  let opc := w / 16777216 % 64
  (match decodeOpWord w with | .ok _ => true | .error _ => false)
    && (match w / 1073741824 with
        | 0 => v.vectorOk guard opc o
        | 1 => v.brickOk guard opc o
        | 2 => v.triggerOk guard k opc o
        | _ => v.outOk guard o.dst.toNat && v.anyOk guard o.a.toNat && v.anyOk guard o.b.toNat
                && deqOk o.dqa o.a.toNat && deqOk o.dqb o.b.toNat)

/-- The failure code of slot `k` (R235): 0x0A for an LSID, else 0x11. -/
def SlotEnv.slotFail (v : SlotEnv) (k : Nat) : Option Nat :=
  let s := (lget v.slots k 0).toNat
  let guard := s % 65536
  let w := s / 65536
  if w / 1073741824 = 2 && !v.lsidOk (w / 16777216 % 64) (decodeOp w) then some 0x0A
  else if v.guardOk guard && v.opOk guard k w then none
  else some 0x11

/-- The lowest failure code of a node's slots, and of its round-free bits (R90). -/
def SlotEnv.nodeFail (v : SlotEnv) (rfree : Nat) : Option Nat :=
  let codes := (List.range v.slots.length).filterMap v.slotFail
  let free := (List.range 16).all (fun n => !bit rfree n || bit v.dbind (8 * (n / 4) + n % 4))
  let codes := if free then codes else 0x11 :: codes
  match codes with
  | [] => none
  | c :: r => some (r.foldl min c)

end Sys2Proof.Machine
end

