-- ==== Sys2Proof/Machine/SwitchCheck.lean ====
section
/-!
DEFINITION. Switch words: their fields and their checks within a region (R19, R86, R187 to R193, R202, R204).
-/
namespace Sys2Proof.Machine
open Sys2Proof

/-! ### Fields of a switch word (R86) -/

/-- The kind: 0 data route, 1 control route, 2 delay node, 3 channel node, 4 ready-delay count. -/
def swKind (w : Nat) : Nat := w / 8192
/-- The destination of a route or delay node. -/
def swDst (w : Nat) : Nat := w / 1024 % 8
/-- The source of a route or delay node. -/
def swSrc (w : Nat) : Nat := w / 128 % 8
/-- The delay of a delay node. -/
def swDelay (w : Nat) : Nat := w / 2 % 64
/-- The die-edge port of a channel node. -/
def swPort (w : Nat) : Nat := w / 128 % 64
/-- Whether a channel node is inbound. -/
def swIn (w : Nat) : Bool := bit w 6
/-- The local side of a channel node. -/
def swSide (w : Nat) : Nat := w / 8 % 8
/-- The inbound port of a ready-delay count. -/
def swReadyPort (w : Nat) : Nat := w / 2048 % 4
/-- The count of a ready-delay word. -/
def swReadyCount (w : Nat) : Nat := w / 16 % 128

/-- Whether a word takes data from a source: a route, a delay node or an outbound channel node. -/
def swTakes (src w : Nat) : Bool :=
  w != 0 && (((swKind w = 0 || swKind w = 2) && swSrc w = src) || (swKind w = 3 && !swIn w && swSide w = src))
/-- Whether a word feeds a data destination: a route, a delay node or an inbound channel node. -/
def swFeeds (dst w : Nat) : Bool :=
  w != 0 && (((swKind w = 0 || swKind w = 2) && swDst w = dst) || (swKind w = 3 && swIn w && swSide w = dst))
/-- Whether a control route takes from a source. -/
def swCtlTakes (src w : Nat) : Bool := w != 0 && swKind w = 1 && swSrc w = src
/-- Whether a control route feeds a destination. -/
def swCtlFeeds (dst w : Nat) : Bool := w != 0 && swKind w = 1 && swDst w = dst

/-- Whether a word keeps R86 by itself. -/
def swFieldsOk (w : Nat) : Bool :=
  w = 0 ||
  (match swKind w with
   | 0 => w % 128 = 0
   | 1 => w % 128 = 0 && swDst w < 6 && swSrc w < 6
   | 2 => w % 2 = 0 && swDelay w != 0
   | 3 => w % 8 = 0
   | 4 => w % 16 = 0
   | _ => false)

/-! ### A region's routers as they are checked -/

/-- The sets and bindings of a region that a check reads: `set e` the words of the router of element `e` (global number),
`dbind`/`cbind` the union of its contexts' bindings, and the region's bands. -/
structure Fabric where
  lead : Nat
  bands : Nat
  sets : Tbl (Vector (BitVec 16) 16)
  dbind : Tbl Nat
  cbind : Tbl Nat
  deriving DecidableEq, Repr

/-- The words of a router. -/
def Fabric.words (f : Fabric) (e : Nat) : List Nat :=
  (tget f.sets e (Vector.replicate 16 0)).toList.map (fun w => w.toNat)

/-- The data inputs (bits [3:0]) and outputs (bits [7:4]) that some context of a node binds. -/
def boundData (dbind : Nat) : Nat :=
  (List.range 8).foldl (fun m i => m + b2n ((List.range 4).any (fun c => bit dbind (8 * c + i))) * 2 ^ i) 0
/-- The control ports that some context binds. -/
def boundCtl (cbind : Nat) : Nat :=
  (List.range 4).foldl (fun m i => m + b2n ((List.range 4).any (fun c => bit cbind (4 * c + i))) * 2 ^ i) 0

/-- The neighbour of an element on a side, inside the region. -/
def Fabric.neighbour (f : Fabric) (e side : Nat) : Option Nat :=
  let c := colOf e
  let r := rowOf e
  match side with
  | 0 => if r = 0 then none else some (elemAt c (r - 1))
  | 1 => if c + 1 < 8 * (f.lead + f.bands) then some (elemAt (c + 1) r) else none
  | 2 => if r = 127 then none else some (elemAt c (r + 1))
  | _ => if c > 8 * f.lead then some (elemAt (c - 1) r) else none

/-- The far side's port number of a link. -/
def facing (side : Nat) : Nat := (side + 2) % 4

/-- The die column of an element (R14). -/
def dieCol (e : Nat) : Nat := colOf e % 64
/-- The die of an element. -/
def dieOf (e : Nat) : Nat := colOf e / 64

/-- Whether the destination of a data word is legal (R189): inside the region, or the edge unit beyond row 0 or 127, and
taken from at its far end. -/
def Fabric.dataDstOk (f : Fabric) (e d : Nat) : Bool :=
  if d ≥ 4 then bit (tget f.dbind e 0) (d - 4)
  else if (d = 0 && rowOf e = 0) || (d = 2 && rowOf e = 127) then true
  else
    match f.neighbour e d with
    | some n => (f.words n).any (swTakes (facing d))
    | none => false

/-- Whether the destination of a control word is legal (R188, R189). -/
def Fabric.ctlDstOk (f : Fabric) (e d : Nat) : Bool :=
  if d ≥ 4 then bit (tget f.cbind e 0) (d - 4)
  else
    match f.neighbour e d with
    | some n => (f.words n).any (swCtlTakes (facing d))
    | none => false

/-- Whether a data source is legal: a link, or an output that some context binds. -/
def Fabric.dataSrcOk (f : Fabric) (e x : Nat) : Bool := x < 4 || bit (tget f.dbind e 0) x
/-- Whether a control source is legal: a link, or `q2`, `q3` that some context binds. -/
def Fabric.ctlSrcOk (f : Fabric) (e x : Nat) : Bool := x < 4 || bit (tget f.cbind e 0) (x - 2)

/-- Whether a channel node is legal where it stands (R86, R192, R193): `join` says whether the strips on both sides of
the die edge belong to one partition (R19). -/
def Fabric.chanOk (f : Fabric) (join : Bool) (e w : Nat) : Bool :=
  let west := dieCol e = 0
  let east := dieCol e = 63
  (west || east) && rowOf e / 2 = swPort w
    && !(west && swSide w = 3) && !(east && swSide w = 1)
    && !(west && dieOf e = 0) && !(east && dieOf e = 5) && join
    && (if swIn w then (if swSide w ≥ 4 then bit (tget f.dbind e 0) (swSide w - 4) else f.dataDstOk e (swSide w))
        else f.dataSrcOk e (swSide w))
    && ([elemAt (colOf e) (2 * swPort w), elemAt (colOf e) (2 * swPort w + 1)].flatMap f.words).countP
        (fun x => x != 0 && swKind x = 3 && swIn x = swIn w) ≤ 1

/-- Whether one word of a router is legal in its place. -/
def Fabric.wordOk (f : Fabric) (join : Nat → Bool) (e w : Nat) : Bool :=
  w = 0 || (swFieldsOk w &&
  (match swKind w with
   | 0 | 2 => f.dataDstOk e (swDst w) && f.dataSrcOk e (swSrc w)
   | 1 => f.ctlDstOk e (swDst w) && f.ctlSrcOk e (swSrc w)
   | 3 => f.chanOk (join e) e w
   | _ => true))

/-- Whether the set of a router is legal as a whole: no two words feed one destination, every bound port is fed or
drained (R86, R187, R189). -/
def Fabric.setOk (f : Fabric) (e : Nat) : Bool :=
  let l := f.words e
  let db := tget f.dbind e 0
  let cb := tget f.cbind e 0
  (List.range 8).all (fun d => l.countP (swFeeds d) ≤ 1 && l.countP (swCtlFeeds d) ≤ 1)
    && (List.range 4).all (fun i => (!bit db i || l.any (swFeeds (4 + i))) && (!bit db (4 + i) || l.any (swTakes (4 + i))))
    && (List.range 2).all (fun i => (!bit cb i || l.any (swCtlFeeds (4 + i)))
        && (!bit cb (2 + i) || l.any (swCtlTakes (4 + i))))

/-- Whether a router keeps every rule. -/
def Fabric.routerOk (f : Fabric) (join : Nat → Bool) (e : Nat) : Bool :=
  (f.words e).all (f.wordOk join e) && f.setOk e

/-- The elements of the region in column-then-row order. -/
def Fabric.elems (f : Fabric) : List Nat := (List.range (f.bands * 1024)).map (fun i => f.lead * 1024 + i)

/-- The first router that breaks a rule. -/
def Fabric.firstBad (f : Fabric) (join : Nat → Bool) : Option Nat := f.elems.find? (fun e => !f.routerOk join e)

/-- Whether the strips on both sides of the die edge at an element belong to one partition (R19). -/
def State.joined (s : State) (e : Nat) : Bool :=
  let st := stripOf (colOf e)
  if dieCol e = 0 then s.partOf st != 255 && st ≥ 1 && s.partOf st = s.partOf (st - 1)
  else s.partOf st != 255 && s.partOf st = s.partOf (st + 1)

/-! ### Records (R87) -/

/-- A switch-section record from its 64 bits, with whether its zero fields are zero. -/
def swRecOf (w : Nat) : SwRec × Bool :=
  ({ word := w % 65536, reg := bits w 16 4, col0 := bits w 24 6, row0 := bits w 32 7, w := bits w 40 6 + 1,
     h := bits w 48 7 + 1 },
   bits w 20 4 = 0 && bits w 30 2 = 0 && bits w 39 1 = 0 && bits w 46 2 = 0 && bits w 55 9 = 0)

/-- Whether a record names a router (by column and row within the region). -/
def SwRec.names (r : SwRec) (c y : Nat) : Bool :=
  r.col0 ≤ c && c < r.col0 + r.w && r.row0 ≤ y && y < r.row0 + r.h

/-- The routers of a record in column-then-row order. -/
def SwRec.routers (r : SwRec) (lead : Nat) : List Nat :=
  (List.range r.w).flatMap (fun c => (List.range r.h).map (fun y => elemAt (8 * lead + r.col0 + c) (r.row0 + y)))

/-- Whether the word of a record keeps R86 by itself in a router, whatever the rest of its set holds. -/
def swAlone (e w : Nat) : Bool :=
  swFieldsOk w && (w = 0 || swKind w != 3 || ((dieCol e = 0 || dieCol e = 63) && rowOf e / 2 = swPort w))

/-- The first router in which the word of a record breaks R86 by itself. -/
def SwRec.firstBad (r : SwRec) (lead : Nat) : Option Nat := (r.routers lead).find? (fun e => !swAlone e r.word)

/-- A set with the records of a list written in order. -/
def writeRecs (recs : List SwRec) (c y : Nat) (v : Vector (BitVec 16) 16) : Vector (BitVec 16) 16 :=
  recs.foldl (fun v r => if r.names c y then vs v r.reg (BitVec.ofNat 16 r.word) else v) v

end Sys2Proof.Machine
end

