-- ==== Sys2Proof/Machine/Image.lean ====
section
/-!
DEFINITION. Block images: fetching, reading the fields, and the checks of a launch or load (R71, R87 to R91, R164, R189,
R192, R193, R204, R235, R274). The lowest failing code is reported (R91).
-/
namespace Sys2Proof.Machine
open Sys2Proof

/-- The little-endian field of `n` bytes at an offset. -/
def rd (l : List Byte) (o n : Nat) : Nat := fromLe ((l.drop o).take n)

/-- One byte of a CRC-32C (reflected polynomial 0x82F63B78, log 10). -/
def crcStep : Nat → BitVec 32 → BitVec 32
  | 0, c => c
  | n + 1, c => crcStep n (if c.getLsbD 0 then (c >>> 1) ^^^ 0x82F63B78#32 else c >>> 1)

/-- CRC-32C of a byte string (R87; initial value and final inversion all ones, log 10). -/
def crc32c (l : List Byte) : BitVec 32 :=
  ~~~ (l.foldl (fun c b => crcStep 8 (c ^^^ b.zeroExtend 32)) (BitVec.allOnes 32))

/-- A fetch of granules at a virtual address of a VD (R331, R143): the bytes, or the cause of R171 with the cell whose
line failed (0 for none). -/
def State.fetch (s : State) (vd va : Nat) : Nat → Except (Nat × Nat) (List Byte)
  | 0 => .ok []
  | n + 1 =>
    let go : Nat → Except (Nat × Nat) (List Byte) := fun c =>
      if s.viewBad c then .error (5, c)
      else
        match State.fetch s vd (va + 32) n with
        | .ok r => .ok (s.view c 32 ++ r)
        | .error x => .error x
    match s.place vd va false false [] with
    | .cell c _ => go c
    | .tarn c => go c
    | .window _ c => go c
    | .peer _ _ => .error (1, 0)
    | .noWindow => .error (1, 0)
    | .fault c bad => .error (c, bad)

/-! ### Fields -/

/-- A stream binding record at an offset (R89). -/
def bindRecAt (l : List Byte) (o : Nat) : BindRec :=
  { base := rd l o 8, target := rd l (o + 8) 1, dir := rd l (o + 9) 1, lsid := rd l (o + 10) 1,
    mode := rd l (o + 11) 1 % 16, bufs := rd l (o + 11) 1 / 16, col := rd l (o + 12) 1 % 64,
    side := rd l (o + 12) 1 / 64, gen := rd l (o + 13) 1, depth := rd l (o + 14) 1, fmt := rd l (o + 15) 1,
    strides := Vector.ofFn (fun k : Fin 4 => signed (rd l (o + 16 + 4 * k.val) 4) 32) }

/-- A node record at an offset (R90). -/
def nodeRecAt (l : List Byte) (o : Nat) : NodeRec :=
  let n := rd l (o + 4) 1
  { col0 := rd l o 1, row0 := rd l (o + 1) 1, w := rd l (o + 2) 1 + 1, h := rd l (o + 3) 1 + 1, count := n,
    dbind := rd l (o + 8) 4, cbind := rd l (o + 12) 2, rfree := rd l (o + 14) 2, seed := rd l (o + 16) 4,
    consts := Vector.ofFn (fun k : Fin 16 => BitVec.ofNat 32 (rd l (o + 32 + 4 * k.val) 4)),
    slots := (List.range (min n 32)).map (fun k => BitVec.ofNat 48 (rd l (o + 0x60 + 6 * k) 6)) }

/-- A channel-node record (R87). -/
def chanRecOf (w : Nat) : ChanRec :=
  { port := w % 64, dir := bits w 6 1, edge := bits w 7 1, key := bits w 8 8 }

/-- The image read from its bytes (R87). -/
def Image.read (addr : Nat) (l : List Byte) : Image :=
  let so := rd l 0x1C 4
  let no := rd l 0x20 4
  let wo := rd l 0x24 4
  let co := rd l 0x2C 4
  let dv := rd l 0x34 4
  { addr := addr, check := rd l 0x38 4, flags := rd l 6 2, bands := rd l 8 1, targets := rd l 10 1, wbMask := rd l 12 2,
    storeMask := rd l 0x10 4, loadMask := rd l 0x14 4,
    loops := Vector.ofFn (fun k : Fin 4 => rd l (0x60 + 4 * k.val) 4),
    fuse := Vector.ofFn (fun k : Fin 16 => BitVec.ofNat 16 (rd l (0x40 + 2 * k.val) 2)),
    streams := (List.range (rd l 11 1)).map (fun k => bindRecAt l (so + 32 * k)),
    nodes := (List.range (rd l 9 1)).map (fun k => nodeRecAt l (no + 288 * k)),
    sws := (List.range (rd l 0x28 4)).map (fun k => (swRecOf (rd l (wo + 8 * k) 8)).1),
    chans := (List.range (rd l 0x30 2)).map (fun k => chanRecOf (rd l (co + 4 * k) 4)),
    div := Vector.ofFn (fun k : Fin 16 => rd l (dv + k.val) 1) }

/-! ### The header's checks -/

/-- The sections of an image: offset and size. -/
def sectionsOf (l : List Byte) : List (Nat × Nat) :=
  [(rd l 0x1C 4, 32 * rd l 11 1), (rd l 0x20 4, 288 * rd l 9 1), (rd l 0x24 4, 8 * rd l 0x28 4),
   (rd l 0x2C 4, 4 * rd l 0x30 2), (rd l 0x34 4, 16)]

/-- Whether no two sections of a list overlap. -/
def apart : List (Nat × Nat) → Bool
  | [] => true
  | x :: r => r.all (fun y => x.2 = 0 || y.2 = 0 || x.1 + x.2 ≤ y.1 || y.1 + y.2 ≤ x.1) && apart r

/-- Whether the length and the section offsets are legal (R87, code 0x04). -/
def layoutOk (l : List Byte) : Bool :=
  let n := rd l 0x18 4
  n % 64 = 0 && 0x80 ≤ n && n ≤ 2 ^ 20
    && (sectionsOf l).all (fun x => x.1 % 8 = 0 && 0x80 ≤ x.1 && x.1 + x.2 ≤ n) && apart (sectionsOf l)

/-- Whether the image check agrees (R87). -/
def checkOk (l : List Byte) : Bool :=
  (crc32c (l.take 0x38 ++ [0, 0, 0, 0] ++ l.drop 0x3C)).toNat = rd l 0x38 4

/-- Whether a used loop level stands above an unused one (R87). -/
def loopGap (v : Vector Nat 4) : Bool :=
  (List.range 3).any (fun k => vg v k 0 = 0 && (List.range 4).any (fun j => k < j && vg v j 0 != 0))

/-! ### Stream records (R89, R164, R274) -/

/-- The number of indices of a level (R162). -/
def levels (v : Vector Nat 4) (k : Nat) : Nat := max 1 (vg v k 0)

/-- The largest and the smallest of a stride's offsets. -/
def offMax (v : Vector Nat 4) (b : BindRec) (k : Nat) : Int := max 0 (vg b.strides k 0 * ((levels v k : Nat) - 1 : Int))
/-- The smallest offset of a stride. -/
def offMin (v : Vector Nat 4) (b : BindRec) (k : Nat) : Int := min 0 (vg b.strides k 0 * ((levels v k : Nat) - 1 : Int))

/-- The byte range of a tarn or reservoir that a binding may touch: lowest and one past the highest. -/
def BindRec.range (b : BindRec) (v : Vector Nat 4) : Int × Int :=
  let qmax := offMax v b 0 + offMax v b 1 + offMax v b 2
  let qmin := offMin v b 0 + offMin v b 1 + offMin v b 2
  let base : Int := b.base
  if b.target = 1 then
    if b.mode = 0 then
      let j := vg b.strides 3 0 * ((b.bufs : Nat) - 1 : Int)
      (base + qmin + min 0 j, base + qmax + max 0 j + 32)
    else (base, 0x40000)
  else (base + qmin + offMin v b 3, base + qmax + offMax v b 3 + 32)

/-- Whether one record keeps the limits of R89 and R164. -/
def BindRec.ok (b : BindRec) (v : Vector Nat 4) (bands layers : Nat) : Bool :=
  let aligned := b.base % 32 = 0 && (List.range 4).all (fun k => vg b.strides k 0 % 32 = 0)
  let fields := b.target ≤ 2 && b.dir ≤ 1 && b.lsid ≤ 31 && b.col < 8 * bands && b.side ≤ 1 && b.gen ≤ 3 && b.depth ≤ 7
    && b.fmt ≤ 9 && b.mode ≤ 2
  let size : Int := 0x40000 - (b.base : Nat)
  let q := offMax v b 0 + offMax v b 1 + offMax v b 2
  let r := b.range v
  aligned && fields && 2 * b.depth + b.side < layers &&
  (if b.target = 1 then
    b.base < 0x40000 &&
    (match b.mode with
     | 0 => 2 ≤ b.bufs && b.bufs ≤ 4 && 0 ≤ r.1 && r.2 ≤ 0x40000
     | 1 => b.bufs = 0 && (List.range 4).all (fun k => vg b.strides k 0 = 0)
     | _ => b.bufs = 0 && b.dir = 0 && (List.range 3).all (fun k => 0 ≤ vg b.strides k 0)
              && vg b.strides 3 0 ≤ size && q + 32 ≤ size)
   else
    b.mode = 1 && b.bufs = 0 && (if b.target = 0 then b.base < 2 ^ 52 else b.base < 2 ^ 24 && 0 ≤ r.1 && r.2 ≤ 0x1000000))

/-- Whether two records clash: one generator of one tarn, or of one column end in one direction (R89, R274); or a range in
the staging ring of a direct binding (R164). -/
def BindRec.clash (v : Vector Nat 4) (a b : BindRec) : Bool :=
  let sameEnd := a.col = b.col && a.side = b.side
  let ring : BindRec → BindRec → Bool := fun x y =>
    x.target = 1 && y.target != 1 && x.depth = y.depth &&
      (let r := x.range v
       let lo : Int := 0x38000 + 0x2000 * (y.gen : Nat)
       r.1 < lo + 0x2000 && lo < r.2)
  sameEnd && ((a.gen = b.gen && (a.depth = b.depth || a.dir = b.dir)) || ring a b || ring b a)

/-- Whether some two of the records clash. -/
def anyClash (v : Vector Nat 4) : List BindRec → Bool
  | [] => false
  | b :: r => r.any (fun c => b.clash v c) || anyClash v r

/-! ### The region's tables that an image gives -/

/-- The node of an image that holds an element (column and row within the region). -/
def Image.nodeOf (m : Image) (c y : Nat) : Option NodeRec :=
  m.nodes.find? (fun n => n.col0 ≤ c && c < n.col0 + n.w && n.row0 ≤ y && y < n.row0 + n.h)

/-- The switch set that an image gives a router. -/
def Image.setOf (m : Image) (c y : Nat) : Vector (BitVec 16) 16 := writeRecs m.sws c y (Vector.replicate 16 0)

/-- The fabric of an image placed at a lead band. -/
def Image.fabric (m : Image) (lead bands : Nat) : Fabric :=
  let els := (List.range (bands * 1024)).map (fun i => lead * 1024 + i)
  { lead := lead, bands := bands,
    sets := els.map (fun e => (e, m.setOf (colOf e - 8 * lead) (rowOf e))),
    dbind := els.map (fun e => (e, match m.nodeOf (colOf e - 8 * lead) (rowOf e) with
      | some n => boundData n.dbind | none => 0)),
    cbind := els.map (fun e => (e, match m.nodeOf (colOf e - 8 * lead) (rowOf e) with
      | some n => boundCtl n.cbind | none => 0)) }

/-! ### All checks (R91, R204) -/

/-- A failed check: its code, and the element that it names (column and row within the region). -/
structure Fail where
  code : Nat
  col : Nat
  row : Nat
  deriving DecidableEq, Repr

/-- The failures that the header shows. -/
def headerFails (l : List Byte) (bands : Nat) : List Fail :=
  let f : Nat → Bool → List Fail := fun c bad => if bad then [{ code := c, col := 0, row := 0 }] else []
  f 1 (rd l 0 4 != 0x39424B43) ++ f 2 (rd l 4 2 != 1)
    ++ f 3 (rd l 6 2 ≥ 8 || rd l 0x0E 2 != 0 || rd l 0x32 2 != 0 || rd l 0x3C 4 != 0 || rd l 0x70 16 != 0)
    ++ f 4 (!layoutOk l) ++ f 6 (rd l 8 1 != bands)
    ++ f 7 (rd l 9 1 = 0 || rd l 9 1 > 128) ++ f 8 (rd l 10 1 = 0 || rd l 10 1 > 4) ++ f 9 (rd l 11 1 > 32)
    ++ f 0x13 (rd l 0x30 2 > 128)

/-- What slots of a node are checked against. -/
def Image.slotEnv (m : Image) (n : NodeRec) : SlotEnv :=
  { dbind := n.dbind, cbind := n.cbind, fuse := m.fuse, systolic := bit m.flags 0, targets := m.targets,
    wbMask := m.wbMask, storeMask := m.storeMask, loadMask := m.loadMask, width := n.w, slots := n.slots }

/-- Whether a node record is legal in its own (R90). -/
def nodeOk (l : List Byte) (o bands : Nat) : Bool :=
  let n := nodeRecAt l o
  n.col0 + n.w ≤ 8 * bands && n.row0 + n.h ≤ 128 && 1 ≤ n.count && n.count ≤ 32
    && rd l (o + 5) 3 = 0 && rd l (o + 0x14) 12 = 0
/-- Whether slots past a node's count are zero (R90). -/
def slackOk (l : List Byte) (o : Nat) : Bool :=
  let n := rd l (o + 4) 1
  (List.range (32 - n)).all (fun k => rd l (o + 0x60 + 6 * (n + k)) 6 = 0)

/-- Whether two node rectangles share an element. -/
def NodeRec.meets (a b : NodeRec) : Bool :=
  a.col0 < b.col0 + b.w && b.col0 < a.col0 + a.w && a.row0 < b.row0 + b.h && b.row0 < a.row0 + a.h

/-- Whether some two nodes share an element. -/
def anyMeet : List NodeRec → Bool
  | [] => false
  | n :: r => r.any n.meets || anyMeet r

/-- Whether channel words and channel records match one to one (R193). -/
def Image.chansMatch (m : Image) (f : Fabric) : Bool :=
  let words := f.elems.flatMap (fun e => ((f.words e).filter (fun w => w != 0 && swKind w = 3)).map
    (fun w => (swPort w, b2n (swIn w), b2n (dieCol e = 63))))
  let recs := m.chans.map (fun r => (r.port, r.dir, r.edge))
  words.all (fun w => recs.count w = 1) && recs.all (fun r => words.count r = 1)

/-- The failures of the rest of an image placed at a band (R91, R204): every switch record is checked, whether or not a later one
overwrites it. DESIGN CHOICE (log 30), where R91 does not say: a stream record whose direction is neither 0 nor 1 has no mask that its
direction requires, and fails with 0x0D only; code 0x11 names the first element of the node's rectangle; a record whose word breaks R86
by itself is named after the final sets. -/
def State.bodyFails (s : State) (vd lead bands : Nat) (l : List Byte) (m : Image) : List Fail :=
  let f : Nat → Bool → List Fail := fun c bad => if bad then [{ code := c, col := 0, row := 0 }] else []
  let no := rd l 0x20 4
  let wo := rd l 0x24 4
  let co := rd l 0x2C 4
  let fab := m.fabric lead bands
  let recOk : Nat → Bool := fun k =>
    let r := swRecOf (rd l (wo + 8 * k) 8)
    r.2 && r.1.col0 + r.1.w ≤ 8 * bands && r.1.row0 + r.1.h ≤ 128
  let endOk : BindRec → Bool := fun b =>
    b.dir = 1 || (fab.words (elemAt (8 * lead + b.col) (if b.side = 0 then 0 else 127))).any
      (swTakes (if b.side = 0 then 0 else 2))
  f 5 (!checkOk l)
    ++ f 0x0A (m.streams.any (fun b => b.dir ≤ 1 && !bit (if b.dir = 1 then m.storeMask else m.loadMask) b.lsid))
    ++ f 0x0B (m.fuse.toList.any (fun e => !fuseOk e.toNat))
    ++ f 0x0C (loopGap m.loops)
    ++ f 0x0D (m.streams.any (fun b => !(b.ok m.loops bands (s.vd vd).layers.length) || !endOk b)
        || anyClash m.loops m.streams)
    ++ f 0x0E ((List.range m.nodes.length).any (fun k => !nodeOk l (no + 288 * k) bands) || anyMeet m.nodes)
    ++ f 0x0F ((List.range m.sws.length).any (fun k => !recOk k))
    ++ f 0x10 (m.div.toList.any (fun d => d = 0 || d > 4))
    ++ (List.range m.nodes.length).flatMap (fun k =>
        let n := nodeRecAt l (no + 288 * k)
        match (m.slotEnv n).nodeFail n.rfree with
        | some c => [{ code := c, col := n.col0, row := n.row0 }]
        | none => if slackOk l (no + 288 * k) then [] else [{ code := 0x11, col := n.col0, row := n.row0 }])
    ++ (match fab.firstBad s.joined with
        | some e => [{ code := 0x12, col := colOf e - 8 * lead, row := rowOf e }]
        | none => [])
    ++ m.sws.flatMap (fun r => match r.firstBad lead with
        | some e => [{ code := 0x12, col := colOf e - 8 * lead, row := rowOf e }]
        | none => [])
    ++ f 0x13 ((List.range m.chans.length).any (fun k => rd l (co + 4 * k) 4 ≥ 65536) || !m.chansMatch fab)

/-- The failure that is reported: the lowest code, the first named. -/
def lowestFail : List Fail → Option Fail
  | [] => none
  | x :: r =>
    match lowestFail r with
    | some y => if y.code < x.code then some y else some x
    | none => some x

/-- The elements of a region that load a slot or a switch word of an image that fails its check (R71, R235, R236): those of the rectangles
of the nodes that fail, and those whose switch words do. -/
def State.illegalElems (s : State) (lead bands : Nat) (l : List Byte) (m : Image) : List Nat :=
  let no := rd l 0x20 4
  let fab := m.fabric lead bands
  let nodes := ((List.range m.nodes.length).filter (fun k => nodeOk l (no + 288 * k) bands
    && (((m.slotEnv (nodeRecAt l (no + 288 * k))).nodeFail (nodeRecAt l (no + 288 * k)).rfree).isSome || !slackOk l (no + 288 * k)))).map
      (fun k => nodeRecAt l (no + 288 * k))
  nodes.flatMap (fun n => (List.range n.w).flatMap (fun i => (List.range n.h).map (fun j => elemAt (8 * lead + n.col0 + i) (n.row0 + j))))
    ++ fab.elems.filter (fun e => !fab.routerOk s.joined e) ++ m.sws.flatMap (fun r => (r.routers lead).filter (fun e => !swAlone e r.word))

/-- How a load comes out. -/
inductive Loaded where
  /-- Every check passed. -/
  | image (m : Image)
  /-- A check failed. -/
  | fail (f : Fail)
  /-- The fetch failed: cause of R171, and the cell whose line failed its check (0 for none). -/
  | fetch (cause bad : Nat)
  deriving DecidableEq, Repr

/-- The failure of an image whose header is fetched and whose layout is legal, or the image: every check of the whole
competes by its code. -/
def State.checkImage (s : State) (vd lead bands addr : Nat) (l : List Byte) : Loaded :=
  let m := Image.read addr l
  match lowestFail (headerFails l bands ++ s.bodyFails vd lead bands l m) with
  | some f => .fail f
  | none => .image m

/-- The elements that the load of an image blocks (R235, R236): where the failure that is reported is one of slots or switch words. -/
def State.loadBlocks (s : State) (vd lead bands addr : Nat) (f : Fail) : List Nat :=
  match s.fetch vd addr 4 with
  | .error _ => []
  | .ok h =>
    match s.fetch vd addr (rd h 0x18 4 / 32) with
    | .error _ => []
    | .ok l => if f.code = 0x0A || f.code = 0x11 || f.code = 0x12 then s.illegalElems lead bands l (Image.read addr l) else []

/-- An image fetched and checked for a region (R331, R143): the header first, and the rest where its layout is legal. -/
def State.loadImage (s : State) (vd lead bands addr : Nat) : Loaded :=
  match s.fetch vd addr 4 with
  | .error x => .fetch x.1 x.2
  | .ok h =>
    match (lowestFail (headerFails h bands)).filter (fun f => f.code ≤ 4) with
    | some f => .fail f
    | none =>
      match s.fetch vd addr (rd h 0x18 4 / 32) with
      | .error x => .fetch x.1 x.2
      | .ok l => s.checkImage vd lead bands addr l

end Sys2Proof.Machine
end

