-- ==== Sys2Proof/Machine/RegionOps.lean ====
section
/-!
DEFINITION. Operations on regions, shared by the pilot, the Helm and the anchor: installing an image in the shadow slots,
launching it, ending a block by commit or fault, releasing the bands (R23, R34, R35, R39, R53, R150, R206, R216, R217,
R330 to R335, R342), and the convoy record at its home unit (R37, R38, R345, R365, R366).
-/
namespace Sys2Proof.Machine
open Sys2Proof

/-! ### Every element, edge and pilot of a region -/

/-- Whether an element lies in a region. -/
def Region.hasElem (r : Region) (e : Nat) : Bool := r.holds (pilotOfCol (colOf e))
/-- Whether an edge unit lies at an end of a region. -/
def Region.hasEnd (r : Region) (g : Nat) : Bool := r.holds (pilotOfCol (g / 2))

/-- Every element of a region changed. -/
def State.mapElems (s : State) (r : Region) (f : Nat → Elem → Elem) : State :=
  { s with elems := r.elems.map (fun e => (e, f e (s.elem e))) ++ s.elems.filter (fun x => !r.hasElem x.1) }

/-- Every element of a region that the state lists, changed: an unlisted one is as at reset. -/
def State.touchElems (s : State) (r : Region) (f : Nat → Elem → Elem) : State :=
  { s with elems := s.elems.map (fun x => if r.hasElem x.1 then (x.1, f x.1 x.2) else x) }

/-- Every listed edge unit of a region changed. -/
def State.touchEdges (s : State) (r : Region) (f : Nat → Edge → Edge) : State :=
  { s with edges := s.edges.map (fun x => if r.hasEnd x.1 then (x.1, f x.1 x.2) else x) }

/-- Every listed pilot of a region changed. -/
def State.touchPilots (s : State) (r : Region) (f : Nat → Pilot → Pilot) : State :=
  { s with pilots := s.pilots.map (fun x => if r.holds x.1 then (x.1, f x.1 x.2) else x) }

/-- Every pilot of a region changed. -/
def State.mapPilots (s : State) (r : Region) (f : Nat → Pilot → Pilot) : State :=
  (List.range r.bands).foldl (fun t i => t.modPilot (r.lead + i) (f (r.lead + i))) s

/-! ### Loading and activating slots -/

/-- The configuration that an image gives an element (R185, R206): one without a node holds no slot. -/
def Image.cfg (m : Image) (lead e : Nat) : ElemCfg :=
  let c := colOf e - 8 * lead
  let y := rowOf e
  let base : ElemCfg := { ElemCfg.empty with
    loaded := true, fuse := m.fuse, systolic := bit m.flags 0, chainSwap := bit m.flags 1, sw := m.setOf c y }
  match m.nodeOf c y with
  | none => base
  | some n => { base with slots := n.slots, consts := n.consts, dbind := BitVec.ofNat 32 n.dbind,
                          cbind := BitVec.ofNat 16 n.cbind, rfree := BitVec.ofNat 16 n.rfree,
                          seed := BitVec.ofNat 32 n.seed, ox := c - n.col0, oy := y - n.row0, width := n.w }

/-- An image put in the shadow slot of every element of a region (R331), each word with its parity bit (R205, R236). -/
def State.install (s : State) (r : Region) (m : Image) : State :=
  s.mapElems r (fun e x => { x with core := { x.core with
    cfg := vs x.core.cfg (1 - x.core.active) (m.cfg r.lead e),
    parity := x.core.parity.filter (fun k => k / 64 != 1 - x.core.active) } })

/-- A slot becomes active: its contexts take their activation values, their group adders are empty, and the arbiter pointer is 3
(R206, R289). -/
def ElemCore.activate (k : ElemCore) (b : Nat) : ElemCore :=
  let cfg := vg k.cfg b ElemCfg.empty
  { k with
    active := b, ptr := 3, idle := 0, array := 0, endSent := [], spoilt := k.spoilt.filter (fun x => x / 512 != b),
    group := k.group.filter (fun x => x.1 % 8 / 4 != b),
    ctx := k.ctx.mapIdx (fun i c => if i / 4 = b then
      Ctx.activated (srSeed cfg.seed (cfg.oy * cfg.width + cfg.ox) (i % 4)) else c) }

/-- The tokens and requests that an element holds, discarded (R334). -/
def ElemCore.discard (k : ElemCore) : ElemCore :=
  { k with inp := Vector.replicate 4 [], out := Vector.replicate 4 [], qin := Vector.replicate 2 [],
           qout := Vector.replicate 2 [], group := [], pendCounts := [], reqs := [], endSent := [] }

/-- The tokens that a router holds, discarded. -/
def Router.discard (r : Router) : Router := { Router.reset with rset := r.rset }

/-- The tokens that an element and its router hold, and the marks that they have taken, discarded. -/
def Elem.discard (e : Elem) : Elem :=
  { e with core := e.core.discard, router := e.router.discard, swapIn := 0, tideClosed := 0,
           snap := none, snapRouter := none, caught := [], marksFrom := [], upFrom := [] }

/-- The commands, requests, responses and tokens of an edge unit, discarded; its watches and flags stay (R277, R283). -/
def Edge.discard (g : Edge) : Edge :=
  { Edge.reset with watches := g.watches, eflags := g.eflags, rr := g.rr }

/-- The tokens of a region discarded, except those in channel-node FIFOs (R334). -/
def State.discardTokens (s : State) (r : Region) : State :=
  ((s.touchElems r (fun _ x => x.discard)).touchEdges r (fun _ g => g.discard)).touchPilots r
    (fun _ p => { p with injq := Vector.replicate 16 [] })

/-! ### A block at its launch -/

/-- The elements of a node placed at a lead band. -/
def NodeRec.elems (n : NodeRec) (lead : Nat) : List Nat :=
  (List.range n.w).flatMap (fun c => (List.range n.h).map (fun y => elemAt (8 * lead + n.col0 + c) (n.row0 + y)))

/-- Whether a slot is an `MFWD` or `MGEN` that counts, with its LSID (R217). -/
def countLsid (w : Nat) : Option Nat :=
  let o := decodeOp w
  match decodeOpWord w with
  | .ok (.mfwd _) => if bit o.ty.toNat 0 then some o.b.toNat else none
  | .ok (.mgen _) => if bit o.ty.toNat 0 then some o.b.toNat else none
  | _ => none

/-- Whether a slot is a `DEQ` or `MFWD` with its sink flag (R216). -/
def isSinkSlot (w : Nat) : Bool :=
  let o := decodeOp w
  match decodeOpWord w with
  | .ok (.deq _) => bit o.md.toNat 4
  | .ok (.mfwd _) => bit o.md.toNat 4
  | _ => false

/-- The emitters of an image (R217): store bindings, and element contexts that count. -/
def Image.emitters (m : Image) (lead : Nat) : List (Nat × Nat) :=
  let binds := (List.range m.streams.length).filterMap (fun b =>
    match m.streams[b]? with | some r => if r.dir = 1 then some (b, r.lsid) else none | none => none)
  let slots := m.nodes.flatMap (fun n => n.slots.flatMap (fun x =>
    match countLsid (x.toNat / 65536) with
    | some l => (n.elems lead).flatMap (fun e => (enabledOf (x.toNat % 65536)).map (fun c => (emitterOf e c, l)))
    | none => []))
  (binds ++ slots).eraseDups

/-- The sinks of an image (R216). -/
def Image.sinks (m : Image) (lead : Nat) : List Nat :=
  (m.nodes.flatMap (fun n => n.slots.flatMap (fun x =>
    if isSinkSlot (x.toNat / 65536) then
      (n.elems lead).flatMap (fun e => (enabledOf (x.toNat % 65536)).map (fun c => sinkOf e c))
    else []))).eraseDups

/-- A binding before its first iteration (R163). -/
def BindSt.start (b : BindRec) : BindSt :=
  let bufs := if b.target = 1 && b.mode = 0 then List.range b.bufs else []
  { br := b, it := 0, adv := [], te := none, park := none, gens := if b.dir = 1 then bufs else [],
    softs := if b.dir = 1 then [] else bufs, filled := 0, removed := 0, rho := 0, sendq := [], takeq := [],
    unperformed := 0, endTaken := false, counted := false, swapped := false }

/-- A block as it is launched (R23, R34). -/
def Image.block (m : Image) (lead inc : Nat) : Block :=
  { inc := inc, img := m, emitters := m.emitters lead, counted := [], sinks := m.sinks lead, sunk := [], wbs := [], wbIn := [],
    branch := none, binds := m.streams.map BindSt.start, accesses := [] }

/-- A fresh incarnation number (R23). -/
def State.freshInc (s : State) : State := { s with incs := s.incs + 1 }

/-- A completion-queue entry of a block that has started. -/
def Comp.open (inc : Nat) : Comp := { inc := inc, status := none, wbs := [] }

/-- A block enters the completion queue, which holds two entries at most: the oldest makes room (R335, log 37). -/
def enterQueue (l : List Comp) (inc : Nat) : List Comp := (l ++ [Comp.open inc]).drop (l.length - 1)

/-- The shadow image of a region launched as a new block (R39 stage 7, R332): the slots are activated, the block takes a
fresh incarnation number and enters the completion queue, the injection counters return to 0. -/
def State.launch (s : State) (r : Region) (m : Image) : State :=
  let inc := s.incs
  let t := (s.freshInc.discardTokens r).mapElems r (fun _ x =>
    let b := 1 - x.core.active
    let k := { x.core with cfg := vs x.core.cfg b { vg x.core.cfg b ElemCfg.empty with inc := inc } }
    { x with core := { k.activate b with blocked := false }, router := { x.router with rset := b } })
  let t := t.mapPilots r (fun _ p => { p with inj := Vector.replicate 16 0 })
  let t := r.ends.foldl (fun t g => t.modEdge g (fun x => { x with endInc := inc })) t
  t.modRegion r.lead (fun q => { q with
    running := .running, cur := some (m.block r.lead inc), succ := none, prev := none, actImg := some m, shImg := q.actImg,
    shadow := if q.actImg.isSome then .loaded else .empty, compQ := enterQueue q.compQ inc, div := m.div.map id,
    faults := [], stopped := false, ending := false, efrep := none })

/-- Whether the eddy units have applied every command that has arrived from a region's column ends (R350, R357). -/
def State.unitsIdle (s : State) (r : Region) : Bool := r.ends.all (fun g => (s.edge g).cmds.all (fun c => c.unit.isNone))

/-- Whether the header of a running block of a region asks for `SYSTEM` scope: flag [2] (R87, R111). -/
def Region.sysScope (r : Region) : Bool := [r.cur, r.succ].any (fun o => o.any (fun b => bit b.img.flags 2))

/-- Whether a fault may end the blocks of a region (R35, R111): what has reached the eddy units has performed, and, where a header asks
for it, every store has performed at `SYSTEM` scope. -/
def State.mayEnd (s : State) (r : Region) : Bool := s.unitsIdle r && (!r.sysScope || s.sysReady r.vd)

/-! ### The end of a block -/

/-- The completion entry of a block written (R335). -/
def Region.complete (r : Region) (inc : Nat) (status : BitVec 34) (wbs : Tbl DWord) : Region :=
  { r with compQ := r.compQ.map (fun c => if c.inc = inc && c.status.isNone then
      { c with status := some status, wbs := wbs } else c) }

/-- The status of a commit: the branch index above 0x0000_0001 (R335). -/
def commitStatus (branch : Nat) : BitVec 34 := BitVec.ofNat 34 (branch % 4 * 2 ^ 32 + 1)
/-- The status of a fault: its cause with bit 31 set (R335). -/
def faultStatus (cause : Nat) : BitVec 34 := BitVec.ofNat 34 (0x80000000 + cause)

/-- Whether every element of a region has swapped into the successor (R330), by what a tide has saved of it where one has. -/
def State.allSwapped (s : State) (r : Region) (inc : Nat) : Bool :=
  r.elems.all (fun e =>
    let k := (s.elem e).snap.getD (s.elem e).core
    (vg k.cfg k.active ElemCfg.empty).inc = inc)

/-- The end of a block by a block fault, or by an element fault that is ended (R330, R334, R335, R342): with the shadow
SWAPPING both blocks end and the shadow is EMPTY. -/
def Region.fail (r : Region) (cause : Nat) : Region :=
  let wbs : Option Block → Tbl DWord := fun b => match b with | some b => b.wbs | none => []
  let inc : Option Block → Nat := fun b => match b with | some b => b.inc | none => 0
  let q := r.complete (inc r.cur) (faultStatus cause) (wbs r.cur)
  let q := if r.shadow = .swapping then q.complete (inc r.succ) (faultStatus cause) (wbs r.succ) else q
  { q with
    cur := none, succ := none, prev := none, running := .none, faults := [], stopped := false, ending := false, efrep := none,
    shadow := if r.shadow = .swapping then .empty else r.shadow,
    shImg := if r.shadow = .swapping then none else r.shImg,
    actImg := if r.shadow = .swapping then none else r.actImg }

/-- The step that the graph of a region takes next: a `BLOCK` node completes with its block (R143), a `PILOT` node whose lead
pilot has parked once no block runs (R144). -/
def State.afterBlock (s : State) (r : Region) : State :=
  match r.kind with
  | .block => s.soon .nodeBlock r.vd r.graph 0
  | .pilot => if (s.pilot r.lead).run = .parked then s.soon .nodePilot r.vd r.graph 0 else s

/-- The entries of a region's column ends whose responses a block's end discards: no token acknowledges them any more, and they retire
(R361, R362). -/
def State.retireEnds (s : State) (r : Region) : State :=
  ((s.liveTags r.vd).filter (fun t => r.ownsTag t && tagSource t < 0x80)).foldl
    (fun (u : State) t => u.soon .suppressionRetire r.vd t 0) s

/-- A block fault ends the block or blocks of a region (R35, R330). -/
def State.failBlock (s : State) (r : Region) (cause : Nat) : State :=
  (((s.discardTokens r).retireEnds r).modRegion r.lead (fun q => q.fail cause)).afterBlock r

/-! ### Convoys at the home unit (R365, R366) -/

/-- A convoy with no phase completed and one member (R345). -/
def Convoy.create (g : Nat) : Convoy :=
  { phase := 0, members := [g], later := [g], arrived := [], done := [], here := [], waits := [], held := [], slackOn := false, seeded := false, lastDone := 0,
    period := 0, slacks := [] }

/-- Whether every member of the open phase has arrived. -/
def Convoy.full (c : Convoy) : Bool := c.members.all (fun g => c.arrived.contains g)

/-- The home module's own number among the modules of a convoy, and a member's module (R457). -/
def moduleOf (g : Nat) : Nat := g / 2 ^ 40

/-- A member of another module: the module and the VD and incarnation of its tag. -/
def remoteMember (far tag : Nat) : Nat := (far + 1) * 2 ^ 40 + tag / 2 ^ 41 % 2 ^ 40

/-- An arrival of a member in the open phase. -/
def Convoy.arrive (c : Convoy) (g now : Nat) : Convoy :=
  let k := tget c.slacks (moduleOf g) { high := 0, low := 0, step := 0, latest := 0 }
  { c with arrived := c.arrived ++ [g], done := (c.done.filter (fun d => d.1 != g)) ++ [(g, c.phase)],
           slacks := tset c.slacks (moduleOf g) { k with latest := now } }

/-- A member leaves: it counts as arrived in the open phase and is in no later one. A `CVWAIT` may still wait for its arrival
(R345). -/
def Convoy.leave (c : Convoy) (g now : Nat) : Convoy :=
  let c := if c.members.contains g && !c.arrived.contains g then c.arrive g now else c
  { c with later := c.later.filter (· != g) }

/-- What waits for the arrivals of a member that is gone is forgotten. -/
def Convoy.forget (c : Convoy) (g : Nat) : Convoy :=
  { c with done := c.done.filter (fun d => d.1 != g), here := c.here.filter (· != g) }

/-- The step that a convoy holds for a module (R457). -/
def Convoy.stepOf (v : Convoy) (m : Nat) : Nat := (tget v.slacks m { high := 0, low := 0, step := 0, latest := 0 }).step

/-- A convoy of a VD. -/
def State.convoy (s : State) (vd c : Nat) : Option Convoy := tfind (s.vd vd).convoys c
/-- A convoy replaced. -/
def State.setConvoy (s : State) (vd c : Nat) (v : Convoy) : State :=
  s.modVd vd (fun d => { d with convoys := tset d.convoys c v })

/-- A convoy made, with no phase completed, one member and no step in force (R345, R458). -/
def State.newConvoy (s : State) (vd c g : Nat) : State :=
  (s.setConvoy vd c (Convoy.create g)).modVd vd (fun d => { d with steps := tdel d.steps c })

/-- An answer of the home unit to an operation of another module (R456): it goes out on the port, and stands in the suppression
table, with the operation and the convoy, until the sender retires it (R361, R453). -/
def State.convoyReply (s : State) (port vd : Nat) (k : FlitRec) (what : Nat) : State :=
  let e : PeerSupp := { module := (s.port port).far, vc := 24, tag := k.tag, status := k.op + 256 * k.step + 65536 * k.phase, what := what }
  let s := { s with hb := { s.hb with received := s.hb.received.filter (fun (x : PeerSupp) => !(x.tag = e.tag && x.module = e.module)) ++ [e] } }
  s.enqueue port { Flit.blank with typ := 3, vc := 24, dst := tagVd k.tag, src := vd, recs := [k] }

/-- What a convoy operation asks, by which a replay of its tag is known: the operation and the convoy (R361). -/
def convoyWhat (op c : Nat) : Nat := op * 65536 + c

/-- A convoy that no member holds any more: it stops being live. With its last member its last phase has completed: the `CVWAIT`s of
other modules are answered, what they held is judged again, and the other arrivals stay until they are waited for (R345). -/
def State.endConvoy (s : State) (vd c : Nat) (v : Convoy) : State :=
  let t := v.waits.foldl (fun (t : State) w => t.convoyReply w.2.2 vd
    { tag := w.2.1, op := 5, step := v.stepOf (moduleOf w.1), phase := v.phase.toNat } (convoyWhat 3 c)) s
  let t := v.held.foldl (fun (t : State) (x : Nat × Flit) => t.soon (.convoyFlit x.2) x.1 1 0) t
  t.modVd vd (fun d => { d with
    convoys := tdel d.convoys c,
    ended := d.ended.filter (fun x => !(x.1 = c && v.done.any (fun y => y.1 = x.2.1)))
      ++ (v.done.filter (fun y => !v.waits.any (fun w => w.1 = y.1))).map (fun y => (c, y)) })

/-- After an arrival the phase completes where it was the last (R366); a convoy that no member holds stops being live. A member that has
arrived waits for that arrival and no earlier one. -/
def State.settleConvoy (s : State) (vd c : Nat) (v : Convoy) : State :=
  if v.later.isEmpty then s.endConvoy vd c v
  else
    let t := (s.setConvoy vd c v).modVd vd (fun d => { d with
      ended := d.ended.filter (fun x => !(x.1 = c && v.done.any (fun y => y.1 = x.2.1))) })
    if v.full then t.soon .convoyPhaseComplete vd c 0 else t

/-- The convoys of other modules that a pilot has asked to join and has no answer of (R456). -/
def Pilot.joining (p : Pilot) : List Nat :=
  p.pend.filterMap (fun x => if decide (x.kind = .convoy 1) && !x.fault then some x.va else none)

/-- The leaves of a region that is a member of convoys of other modules, or has asked to become one, sent to their homes under its own
tags, behind its joins (R38, R456). -/
def State.leaveFar (s : State) (r : Region) (asked : List Nat) : State :=
  let src := r.pilotSource r.lead
  let n := tget r.seqs (seqKey r.inc src 0) 0
  (r.joined ++ asked).zipIdx.foldl (fun t x =>
    match tfind (t.vd r.vd).routes (x.1 / 65536) with
    | some q => t.sendConvoyRec r.vd q (mkTag r.vd r.inc src 0 (n + x.2)) 4 x.1
    | none => t) s

/-- A region leaves every convoy of which it is a member, or has `asked` of another module to become one, and nothing of it waits any
more (R38, R345). -/
def State.leaveAll (s : State) (r : Region) (asked : List Nat) : State :=
  let t := ((s.vd r.vd).convoys.filter (fun x => x.2.later.contains r.graph)).foldl
    (fun t x => t.settleConvoy r.vd x.1 (x.2.leave r.graph t.chron.toNat)) s
  (t.modVd r.vd (fun d => { d with
    convoys := d.convoys.map (fun x => (x.1, x.2.forget r.graph)), ended := d.ended.filter (fun x => x.2.1 != r.graph) })).leaveFar r asked

/-- The stores of a region's pilots that have issued and not performed, which perform still as its pilots stop (R317), and the tags of
their atomics, which retire. -/
def State.settlePend (s : State) (r : Region) : State :=
  (List.range r.bands).foldl (fun t i => ((t.pilot (r.lead + i)).pend ++ (t.pilot (r.lead + i)).redo).foldl (fun (u : State) (x : PAcc) =>
    match x.kind, x.window with
    | .store n _, none => if x.parked.isSome then u else u.write r.vd x.cell (toLe n x.data.toNat) false
    | .store n _, some _ =>
      (match u.windowPlace r.vd x.va with
       | .window _ a => (u.windowStore x.tag a (toLe n x.data.toNat) false).soon .suppressionRetire r.vd x.tag 0
       | _ => u)
    | .atom, _ => u.soon .suppressionRetire r.vd x.tag 0
    | _, _ => u) t) s

/-! ### Placing and releasing bands -/

/-- Kept images whose bands meet a run of bands are lost (R150). -/
def State.dropKept (s : State) (lead bands : Nat) : State :=
  { s with kept := s.kept.filter (fun x => !(overlap x.1 x.2.bands lead bands)) }
where
  /-- Whether two runs of bands meet. -/
  overlap (a n b m : Nat) : Bool := a < b + m && b < a + n

/-- A region as it is placed (R23, R330). -/
def Region.start (lead bands vd graph inc : Nat) (kind : Placed) : Region :=
  { lead := lead, bands := bands, vd := vd, kind := kind, graph := graph, inc := inc, shadow := .empty,
    running := .none, cur := none, succ := none, prev := none, shImg := none, actImg := none, loadAddr := 0, failInfo := 0, failSub := 0,
    compQ := [], lastWbs := [], sfq := [], efrep := none, faults := [], rewrites := [], lastRewrite := 0,
    div := Vector.replicate 16 1, seqs := [], joined := [], stopped := false, ending := false, faultAt := 0, armedAt := 0, orig := inc, seen := 0 }

/-- A region placed on free bands: its pilots are at their reset values (R23, R149). -/
def State.placeRegion (s : State) (r : Region) : State :=
  ({ s with regions := s.regions ++ [{ r with seen := s.chron.toNat }] }).mapPilots r (fun _ _ => Pilot.reset)

/-- A region released (R23, R34, R144): its image stays in the shadow slots (R150), its pilots stop once their stores have performed
(R317), its elements are no longer blocked, and a convoy member leaves (R345). -/
def State.releaseRegion (s : State) (r : Region) : State :=
  let t := (((s.settlePend r).discardTokens r).retireEnds r).touchElems r (fun _ x => { x with core := { x.core with
    active := 1 - x.core.active, blocked := false } })
  let t := t.touchPilots r (fun _ _ => Pilot.reset)
  let t := { t with regions := t.regions.filter (fun q => q.lead != r.lead) }
  let t := match r.actImg with
    | some m => { t with kept := tset t.kept r.lead { vd := r.vd, bands := r.bands, img := m } }
    | none => t
  t.leaveAll r (s.pilot r.lead).joining

end Sys2Proof.Machine
end

