-- ==== Sys2Proof/Machine/PilotCtl.lean ====
section
/-!
DEFINITION. The pilot's control registers and system instructions: `CTLRD`, `CTLWR`, `RGNCTL`, `SFCTL`, `SFRESUME`,
`CHRON`, `TRAP`, `ERET`, `PARK`, and the asynchronous traps (R315, R318 to R321, R342 to R344, R348).
-/
namespace Sys2Proof.Machine
open Sys2Proof

/-- Whether the acting pilot leads its region. -/
def State.isLead (s : State) : Bool :=
  match s.myRegion with
  | some r => r.lead = s.cur.pilot
  | none => false

/-! ### Views (R315) -/

/-- The shadow code of `FABSTAT`. -/
def Shadow.code : Shadow → Nat
  | .empty => 0
  | .loading => 1
  | .loaded => 2
  | .failed => 3
  | .armed => 4
  | .swapping => 5

/-- The running code of `FABSTAT`. -/
def Running.code : Running → Nat
  | .none => 0
  | .running => 1
  | .frozen => 2

/-- `FABSTAT`. -/
def Region.fabstat (r : Region) : DWord :=
  BitVec.ofNat 64 (min 2 r.compQ.length * 64 + r.running.code * 16 + r.shadow.code)

/-- `PILOTID`. -/
def Region.pilotid (r : Region) (p : Nat) : DWord :=
  BitVec.ofNat 64 (b2n (p = r.lead) * 4096 + p / 8 * 512 + p % 8 * 64 + (r.bands - 1) * 8 + (p - r.lead))

/-- `INCARN`: the running block's incarnation, 0 when none. -/
def Region.incarn (r : Region) : DWord :=
  match r.cur with
  | some b => BitVec.ofNat 64 (b.inc % 2 ^ 32)
  | none => 0

/-- A word of the element-fault report; 0 while none stands. -/
def Region.efWord (r : Region) (k : Nat) : DWord :=
  match r.efrep with
  | some e => if k = 0 then e.w0 else e.w1
  | none => 0

/-- A word of the head stream-fault report; 0 when the queue is empty (R343). -/
def Region.sfWord (r : Region) (k : Nat) : DWord :=
  match r.sfq with
  | e :: _ => match k with
    | 0 => e.w0
    | 1 => e.w1
    | 2 => e.w2
    | _ => e.w3
  | [] => 0

/-- A field of the acting pilot's region, 0 without one. -/
def State.ofRegion (s : State) (f : Region → DWord) : DWord :=
  match s.myRegion with
  | some r => f r
  | none => 0

/-- A field that only the lead pilot sees. -/
def State.ofLead (s : State) (f : Region → DWord) : DWord := if s.isLead then s.ofRegion f else 0

/-- The value that `CTLRD` reads (R315): none for an unassigned number. Write-only registers read zero (R6). -/
def State.ctlValue (s : State) (n : Nat) : Option DWord :=
  match n with
  | 0x000 => some s.me.pstatus
  | 0x001 => some s.me.trapcause
  | 0x002 => some s.me.trapaddr
  | 0x003 => some s.me.trapval
  | 0x004 => some s.me.tvec
  | 0x005 => some s.me.pscratch
  | 0x008 => some s.chron
  | 0x009 => some (s.ofRegion (fun r => (s.vd r.vd).guest))
  | 0x00A => some (s.ofRegion (fun r => (s.vd r.vd).stolen))
  | 0x010 => some (s.ofRegion (fun r => r.pilotid s.cur.pilot))
  | 0x011 => some (s.ofRegion Region.incarn)
  | 0x012 => some (s.ofRegion Region.fabstat)
  | 0x020 => some (s.ofLead (fun r => r.efWord 0))
  | 0x021 => some (s.ofLead (fun r => r.efWord 1))
  | 0x022 => some 0
  | 0x028 => some (s.ofLead (fun r => r.sfWord 0))
  | 0x029 => some (s.ofLead (fun r => r.sfWord 1))
  | 0x02A => some (s.ofLead (fun r => r.sfWord 2))
  | 0x02B => some (s.ofLead (fun r => r.sfWord 3))
  | 0x02C => some 0
  | 0x02D => some 0
  | _ => none

/-! ### Writes -/

/-- `PSTATUS` written (R315): IE, PIE, EFE and SFE take the value, CPSN is cleared by 1, the rest stays. -/
def writePstatus (old v : DWord) : DWord :=
  ((old &&& ~~~ 0x63#64) ||| (v &&& 0x63)) &&& ~~~ (v &&& 0x80)

/-- A control register with storage of its own written, by its fields' access types (R315); none for an unassigned number.
Registers that are read-only ignore the write (R6). -/
def Pilot.ctlWrite (p : Pilot) (n : Nat) (v : DWord) : Option Pilot :=
  match n with
  | 0x000 => some { p with pstatus := writePstatus p.pstatus v }
  | 0x001 => some { p with trapcause := v &&& 0xFFFFFF }
  | 0x002 => some { p with trapaddr := v }
  | 0x003 => some { p with trapval := v }
  | 0x004 => some { p with tvec := v &&& 0xFFFC }
  | 0x005 => some { p with pscratch := v }
  | 0x008 | 0x009 | 0x00A | 0x010 | 0x011 | 0x012 | 0x020 | 0x021 | 0x028 | 0x029 | 0x02A | 0x02B => some p
  | _ => none

/-- `RGNCTL` (R342): writing 1 while FROZEN ends the frozen block with the report's cause; its accumulators, registers and
ponds are discarded. What a discarded pond then reads is not given: free values (log 2). -/
def State.endFrozen (s : State) (v : DWord) : State :=
  match s.myRegion with
  | some r =>
    if v.getLsbD 0 && r.running = .frozen then
      let cause := match r.efrep with | some e => (e.w0 >>> 48).toNat | none => 0
      let ponds := r.elems.flatMap (fun e => (List.range 128).map (fun g => pondCell e (32 * g)))
      let t := (List.zip ponds (List.range ponds.length)).foldl
        (fun t x => (t.cleanUnit x.1).put x.1 (toLe 32 (Config.freeKey (s.draws + x.2)).toNat)) s
      let t := { t with draws := s.draws + ponds.length }
      let t := t.touchElems r (fun _ x => { x with core := { x.core with
        ctx := x.core.ctx.mapIdx (fun _ _ => Ctx.activated 0) } })
      t.failBlock r cause
    else s
  | none => s

/-- `SFCTL` (R343): writing 1 removes the head report. -/
def State.popReport (s : State) (v : DWord) : State :=
  match s.myRegion with
  | some r => if v.getLsbD 0 then s.modRegion r.lead (fun q => { q with sfq := q.sfq.tail }) else s
  | none => s

/-- A parked binding of a block resumed: it walks again from its faulting iteration (R170). -/
def Block.resume (b : Block) (k : Nat) : Block :=
  { b with binds := lmod b.binds k (fun x => if x.park.isSome then { x with park := none, te := none } else x) }

/-- The end router of an edge unit, numbered 2 · column + side. -/
def endRouter (g : Nat) : Nat := elemAt (g / 2) (if g % 2 = 0 then 0 else 127)

/-- The element and context (bank · 4 + context) that sent a packet taken at an edge unit; the end router where no element
sent it. -/
def Token.sender (t : Token) (g : Nat) : Nat × Nat :=
  if srcPath t.src = 0 then (endRouter g, 0) else (srcElem t.src, srcCtx t.src)

/-- The element and context that `SFREP0` names for a command: those that sent it. -/
def Cmd.path (g : Nat) (c : Cmd) : Nat × Nat := ((c.tok.sender g).1, (c.tok.sender g).2 % 4)

/-- Parked commands of an element's path resumed. -/
def Edge.resume (k : Nat) (g : Edge) (e c : Nat) : Edge :=
  { g with cmds := g.cmds.map (fun x => if x.park.isSome && x.path k = (e, c) then
      { x with park := none, te := none, te2 := none } else x) }

/-- `SFRESUME` (R344): bits [55:32] name the binding, or the element and context of the edge path; as in `SFREP0`, the bits of the
other form are 0 (R343). A value that names no parked stream has no effect. -/
def State.resumeStream (s : State) (v : DWord) : State :=
  match s.myRegion with
  | some r =>
    let n := v.toNat
    if bits n (if bit n 55 then 50 else 32) (if bit n 55 then 5 else 18) ≠ 0 then s
    else if bit n 55 then s.touchEdges r (fun k g => g.resume k (elemAt (bits n 41 9) (bits n 34 7)) (bits n 32 2))
    else
      let k := bits n 50 5
      let f : Option Block → Option Block := fun o => o.map (fun b => b.resume k)
      s.modRegion r.lead (fun q => { q with cur := f q.cur, succ := f q.succ, prev := f q.prev })
  | none => s

/-- Whether a write to `RGNCTL` waits: it ends a frozen block, whose completion store comes after every access that the block has
performed (R111, R342). -/
def State.rgnctlWaits (s : State) (v : DWord) : Bool :=
  match s.myRegion with
  | some r => v.getLsbD 0 && r.running = .frozen && !s.mayEnd r
  | none => false

/-- A write to `RGNCTL`. -/
def State.writeRgnctl (s : State) (v : DWord) : Out := if s.rgnctlWaits v then .next s else (s.endFrozen v).done

/-- `CTLWR` to `RGNCTL` (R342, R348). -/
def execRgnctlEnd (a : Reg) (s : State) : Out := s.writeRgnctl (s.me.get a)
/-- `CTLWR` to `SFCTL` (R343, R348). -/
def execSfctlPop (a : Reg) (s : State) : Out := (s.popReport (s.me.get a)).done
/-- `CTLWR` to `SFRESUME` (R344, R348). -/
def execSfresume (a : Reg) (s : State) : Out := (s.resumeStream (s.me.get a)).done

/-- `CTLRD` (R315, R348). -/
def execCtlrd (d : Reg) (r : BitVec 12) (s : State) : Out :=
  match s.ctlValue r.toNat with
  | some v => s.result d v
  | none => s.illegal

/-- `CTLWR` (R315, R348). The three registers whose write acts on the region have meanings of their own. -/
def execCtlwr (a : Reg) (r : BitVec 12) (s : State) : Out :=
  match r.toNat with
  | 0x022 => s.writeRgnctl (s.me.get a)
  | 0x02C => (s.popReport (s.me.get a)).done
  | 0x02D => (s.resumeStream (s.me.get a)).done
  | n =>
    match s.me.ctlWrite n (s.me.get a) with
    | some p => .next (s.setMe p.step)
    | none => s.illegal

/-! ### System instructions (R348) -/

/-- `CHRON` (R348): `GUESTTIME`. -/
def execChron (d : Reg) (s : State) : Out := s.result d (s.ofRegion (fun r => (s.vd r.vd).guest))

/-- `TRAP` (R320, R348): `TRAPADDR` is the next instruction's address. -/
def execTrap (imm : BitVec 16) (s : State) : Out :=
  .next (s.setMe (s.me.takeTrap 8 0 (imm.zeroExtend 64) (s.me.pc + 4)))

/-- `ERET` (R348): illegal outside a handler. -/
def execEret (s : State) : Out := if s.me.th then .next (s.setMe s.me.eret) else s.illegal

/-- `PARK` (R348): the pilot halts. In the lead pilot it completes the node once no block runs (R144). -/
def execPark (s : State) : Out :=
  let t := s.setMe { s.me.step with run := .parked }
  match s.myRegion with
  | some r => if s.isLead then .next (t.soon .nodePilot r.vd r.graph 0) else .next t
  | none => .next t

/-! ### Asynchronous traps (R321) -/

/-- The asynchronous trap that a pilot would take: its cause. -/
def State.asyncCause (s : State) (p : Nat) : Option Nat :=
  match s.regionAt p with
  | some r =>
    let q := s.pilot p
    if r.lead = p && q.run = .running && q.ie && !q.th && !(q.pend.any PAcc.isLoad)
        && !(r.rewrites.any (fun x => x.pilot = p)) then
      if q.efe && r.running = .frozen && r.efrep.isSome then some 0x10
      else if q.sfe && !r.sfq.isEmpty then some 0x11
      else none
    else none
  | none => none

/-- ASYNC_TRAP at pilot `x` (R321): between instructions, or in an instruction that waits, which has had no effect;
`TRAPADDR` is the address of the instruction that executes next. -/
def execAsyncTrap (s : State) : Out :=
  match (if s.acts s.cur.x then s.asyncCause s.cur.x else none) with
  | some c =>
    let q := s.pilot s.cur.x
    .next (s.setPilot s.cur.x (q.takeTrap c 0 0 q.pc))
  | none => .next s

end Sys2Proof.Machine
end

