-- ==== Sys2Proof/Machine/Layout.lean ====
section
/-!
DEFINITION. How a save record, and what a VD spills besides its storage, lie in the lines of its save area (R386, R404, R405, R431;
spec/15_anchor.md, spec/16_cipher.md). Where the spec gives the size of a record and not the places of its fields, the fields follow one
another in the order in which it names them (DESIGN CHOICE, log 23).
-/
namespace Sys2Proof.Machine
open Sys2Proof

/-! ### Parts of a layout -/

/-- Fields one after another: size and value. -/
def laid (l : List (Nat × Nat)) : List Byte := l.flatMap (fun x => toLe x.1 x.2)

/-- The byte at an offset of a layout whose parts are offsets with bytes: zero where no part holds one. -/
def partByte (l : List (Nat × List Byte)) (o : Nat) : Byte :=
  (l.findSome? (fun x => if x.1 ≤ o then x.2[o - x.1]? else none)).getD 0

/-- The line at an offset of a layout. -/
def partLine (l : List (Nat × List Byte)) (o : Nat) : List Byte := (List.range 64).map (fun i => partByte l (o + i))

/-- Parts moved by an offset. -/
def partsAt (o : Nat) (l : List (Nat × List Byte)) : List (Nat × List Byte) := l.map (fun x => (o + x.1, x.2))

/-! ### Tokens and elements (R26, R405) -/

/-- The 13-bit sideband of a token (R26). -/
def Token.sideband (t : Token) : Nat := t.kind.toNat * 2048 + t.round.toNat * 8 + t.tag.toNat * 2 + b2n t.poison

/-- The 40 bytes of a token (R405): payload, sideband, input, order of arrival, zero. -/
def Token.bytes (t : Token) (input order : Nat) : List Byte :=
  laid [(32, t.payload.toNat), (2, t.sideband), (1, input), (1, order), (4, 0)]

/-- Tokens one after another, in their order. -/
def tokenBytes (l : List Token) : List Byte := (l.zipIdx).flatMap (fun x => x.1.bytes 0 x.2)

/-- Bits as a number, the first the least significant. -/
def bitsNat (l : List Bool) : Nat := ((l.zipIdx).map (fun x => b2n x.1 * 2 ^ x.2)).sum

/-- The configuration of a slot, 0x200 bytes (R405): a record of the form of R90, the fusing table, the switch words, and the block's
incarnation and flags. -/
def ElemCfg.bytes (c : ElemCfg) : List Byte :=
  laid [(1, c.ox), (1, c.oy), (1, c.width - 1), (1, 0), (1, c.slots.length), (3, 0), (4, c.dbind.toNat), (2, c.cbind.toNat),
    (2, c.rfree.toNat), (4, c.seed.toNat), (12, 0)]
    ++ c.consts.toList.flatMap (fun w => toLe 4 w.toNat) ++ (List.range 32).flatMap (fun i => toLe 6 (c.slots.getD i 0).toNat)
    ++ c.fuse.toList.flatMap (fun w => toLe 2 w.toNat) ++ c.sw.toList.flatMap (fun w => toLe 2 w.toNat)
    ++ laid [(4, c.inc), (1, bitsNat [c.loaded, c.systolic, c.chainSwap])]

/-- An accumulator: eight lanes, their sticky bits, mode and fraction length. -/
def Acc.bytes (a : Acc) : List Byte :=
  a.lanes.toList.flatMap (fun l => toLe 8 l.a.toNat) ++ a.lanes.toList.flatMap (fun l => toLe 1 (bitsNat [l.ai, l.ao, l.av, l.ap]))
    ++ laid [(1, b2n a.f32), (1, a.frac.toNat)]

/-- A context block, within 0x800 bytes (R206, R289, R405), with its results that are outstanding. -/
def Ctx.bytes (c : Ctx) : List Byte :=
  c.v.toList.flatMap (fun r => toLe 32 r.val.toNat)
    ++ laid [(1, bitsNat (c.v.toList.map (fun r => r.null))), (1, bitsNat (c.v.toList.map (fun r => r.poison)))]
    ++ c.p.toList.flatMap (fun p => toLe 1 p.toNat) ++ c.acc.toList.flatMap Acc.bytes ++ c.l.toList.flatMap (fun l => toLe 2 l.toNat)
    ++ laid [(1, c.cround.toNat), (1, c.rep.slot.toNat), (1, c.rep.count.toNat), (1, c.rep.lanes.toNat), (4, c.sr.toNat),
      (4, c.aflags.toNat), (1, b2n c.yielded)]
    ++ c.tiles.toList.flatMap (fun t => t.rows.toList.flatMap (fun r => toLe 32 r.toNat)
      ++ laid [(1, t.valid.toNat), (1, t.poison.toNat), (1, t.ptr.toNat)])
    ++ c.perms.toList.flatMap (fun q => q.ent.toList ++ toLe 1 (b2n q.poison))
    ++ laid [(4, c.gate.toNat), (1, b2n c.gatePoison)]
    ++ (c.outst.take 32).flatMap (fun o => laid [(2, o.left), (2, o.dests.length), (4, o.flags.toNat), (4, o.key)])

/-- The port buffers and pipeline stages of an element, within 0x400 bytes (R405): inputs of four tokens, outputs of two, control
tokens, and the element's own state. -/
def ElemCore.portBytes (k : ElemCore) : List (Nat × List Byte) :=
  (List.range 4).map (fun i => (160 * i, tokenBytes ((vg k.inp i []).take 4)))
    ++ (List.range 4).map (fun i => (640 + 80 * i, tokenBytes (((vg k.out i []).take 2).map (fun x => x.tok))))
    ++ [(960, (k.qin.toList ++ k.qout.toList).flatMap (fun q => laid [(1, q.length), (1, bitsNat q)])
      ++ laid [(1, k.active), (1, k.ptr), (1, b2n k.blocked), (8, k.idle), (8, k.array), (8, k.nextReq)])]

/-- The element record of an element, 0x3800 bytes, but for its pond (R405): both slots' configuration, the context blocks of its active
slot, port buffers. -/
def ElemCore.parts (k : ElemCore) : List (Nat × List Byte) :=
  [(0, (vg k.cfg 0 ElemCfg.empty).bytes), (0x200, (vg k.cfg 1 ElemCfg.empty).bytes)]
    ++ (List.range 4).map (fun c => (0x400 + 0x800 * c, (vg k.ctx (4 * k.active + c) (Ctx.activated 0)).bytes))
    ++ partsAt 0x3400 k.portBytes

/-- The caught log of an element, 0x280 bytes (R405). -/
def Elem.caughtBytes (m : Elem) : List Byte := (m.caught.zipIdx).flatMap (fun x => x.1.2.bytes x.1.1 x.2)

/-- The router record of an element, 0x5400 bytes (R405): the header of 256 bytes, then the tokens of inbound buffers and delay
lines. -/
def Elem.routerParts (m : Elem) : List (Nat × List Byte) :=
  let ctl := m.router.rcin.toList ++ m.core.qin.toList ++ m.core.qout.toList
  [(0, (m.core.cfg.toList.flatMap (fun c => c.sw.toList)).flatMap (fun w => toLe 2 w.toNat)
      ++ toLe 1 m.router.rset ++ ctl.flatMap (fun q => laid [(1, q.length), (1, bitsNat q)])
      ++ m.router.lowUntil.toList.flatMap (fun n => toLe 8 n)),
    (0x100, tokenBytes ((m.router.rin.toList.flatten ++ m.router.delay.flatMap (fun x => x.2.map (fun t => t.1))).take 512))]

/-! ### Pilots and column ends (R405) -/

/-- A norm watch, 64 bytes (R282). -/
def Watch.bytes (w : Watch) : List Byte :=
  laid [(1, b2n w.armed), (1, w.tag), (1, b2n w.outward), (1, w.k), (4, w.ratio.toNat), (4, w.s.toNat), (4, w.a.toNat), (4, w.last.toNat),
    (4, w.rounds.toNat), (4, w.trips.toNat), (1, w.lasttrip.toNat), (1, b2n w.sawNonFinite), (1, w.seen.toNat), (1, 0), (4, w.skipped),
    (28, 0)]

/-- What a column end keeps between blocks: watches and flags (R277, R283). -/
def Edge.keptBytes (g : Edge) : List Byte := g.watches.toList.flatMap Watch.bytes ++ toLe 4 g.eflags.toNat

/-- The edge record of a column end, 1 KiB (R405): closed sides, transforms, held tokens, with its watches and flags. -/
def Edge.parts (g : Edge) : List (Nat × List Byte) :=
  let held := g.xouts.map (fun x => x.1) ++ g.xhand ++ g.springs ++ g.halfSte.toList ++ g.rsps.filterMap (fun p => p.tok)
  [(0, laid [(1, b2n g.inClosed), (1, b2n g.outClosed), (1, g.opens.length), (5, 0)]
      ++ (g.opens.take 4).flatMap (fun o => laid [(4, o.id), (1, o.tag), (3, 0), (8, o.taken)])),
    (0x48, g.keptBytes), (0x150, tokenBytes ((held ++ g.opens.flatMap (fun o => o.group)).take 16))]

/-- The code of a pilot's run state (R313). -/
def PRun.code : PRun → Nat
  | .idle => 0
  | .running => 1
  | .stopped => 2
  | .parked => 3

/-- The block-control state of a region (R330, R335). -/
def Region.controlBytes (r : Region) : List Byte :=
  laid [(1, r.shadow.code), (1, r.running.code), (1, b2n r.stopped), (1, b2n r.ending), (4, (r.cur.elim 0 (fun b => b.inc))),
    (8, r.loadAddr), (8, r.failInfo.toNat), (1, r.failSub), (1, r.compQ.length), (6, 0)]
    ++ r.compQ.flatMap (fun c => laid [(4, c.inc), (8, (c.status.elim 0 (fun w => w.toNat)))])

/-- The pilot record of a band, but for its chart memory (R405): registers, `pc`, control registers, block-control state in the lead
band's, injection counters and queues. -/
def Pilot.parts (p : Pilot) (r : Option Region) : List (Nat × List Byte) :=
  [(0x10000, dwBytes p.x.toList ++ dwBytes [p.pc, p.pstatus, p.trapcause, p.trapaddr, p.trapval, p.tvec, p.pscratch]
      ++ laid [(1, p.run.code), (1, b2n p.waitSince.isSome), (8, p.waitSince.getD 0)]),
    (0x10200, r.elim [] Region.controlBytes), (0x10400, p.inj.toList)]
    ++ (List.range 16).map (fun i => (0x10440 + 80 * i, tokenBytes ((vg p.injq i []).take 2)))

/-! ### The record (R386, R387, R404, R405) -/

/-- The code of a kind (R387). -/
def OpKind.code : OpKind → Nat
  | .loadBinding => 0x01
  | .storeBinding => 0x02
  | .lde => 0x03
  | .ste => 0x04
  | .stream => 0x05
  | .edgeUnit => 0x06
  | .eddy => 0x07
  | .spring => 0x08
  | .pilotLoad => 0x09
  | .pilotStore => 0x0A
  | .atom => 0x0B
  | .cpy => 0x0C
  | .convoy => 0x0D
  | .winrel => 0x0E
  | .peerSend => 0x0F

/-- The 64 bytes of an entry (R386). -/
def RecEntry.bytes (e : RecEntry) : List Byte :=
  toLe 1 e.kind.code ++ toLe 1 e.state ++ toLe 1 e.lsid ++ toLe 1 (b2n e.i1) ++ toLe 2 (e.source % 512) ++ toLe 2 (e.stamp % 2 ^ 16)
    ++ toLe 4 (e.seq % 2 ^ 24 + e.cause * 2 ^ 24) ++ toLe 4 (e.inc % 2 ^ 32) ++ toLe 8 (e.addr % 2 ^ 52 + e.round % 256 * 2 ^ 52)
    ++ toLe 8 e.progress ++ toLe 32 e.operands

/-- The size of one region's record (R403). -/
def recordSize (bands : Nat) : Nat := 0x20000 + bands * 0x2400000

/-- The offset of a band section (R404). -/
def bandSection (b : Nat) : Nat := 0x20000 + b * 0x2400000

/-- The place in a record of byte `o` of the region's ponds, element by element (R404, R405). -/
def pondPlace (o : Nat) : Nat :=
  bandSection (o / 4096 / 1024) + 0x15000 + o / 4096 % 1024 * 0x3800 + 0x2400 + o % 4096

/-- The place in a record of byte `o` of the region's chart memories (R404, R405). -/
def chartPlace (o : Nat) : Nat := bandSection (o / 65536) + o % 65536

/-- The place in a record of a byte of ponds, or, from 2^40 on, of chart memories. -/
def savedPlace (o : Nat) : Nat := if o < 2 ^ 40 then pondPlace o else chartPlace (o - 2 ^ 40)

/-- The header of a record without its digest, 64 bytes (R404). -/
def SaveRec.header (k : SaveRec) (vd : Nat) : List Byte :=
  laid [(4, 0x4B434E41), (1, vd), (3, 0), (4, k.inc), (1, k.bands), (1, k.lead / 8), (1, k.lead % 8), (1, k.kind),
    (4, bitsNat [k.unrestartable, k.faultFrozen]), (4, k.snapNo), (8, k.node), (8, k.time.toNat), (24, 0)]

/-- The parts of a record but for its digest (R404, R405). -/
def SaveRec.body (k : SaveRec) (vd : Nat) : List (Nat × List Byte) :=
  [(0, k.header vd), (0x1000, k.entries.flatMap RecEntry.bytes)]
    ++ k.pilots.flatMap (fun x => partsAt (bandSection x.1) (x.2.parts (if x.1 = 0 then some k.region else none)))
    ++ k.edges.flatMap (fun x => partsAt (bandSection (x.1 / 16) + 0x11000 + (x.1 % 2 * 8 + x.1 % 16 / 2) * 0x400) x.2.parts)
    ++ k.elems.flatMap (fun x => partsAt (bandSection (x.1 / 1024) + 0x15000 + x.1 % 1024 * 0x3800) x.2.core.parts)
    ++ k.elems.map (fun x => (bandSection (x.1 / 1024) + 0xE15000 + x.1 % 1024 * 0x280, x.2.caughtBytes))
    ++ k.elems.flatMap (fun x => partsAt (bandSection (x.1 / 1024) + 0xEB5000 + x.1 % 1024 * 0x5400) x.2.routerParts)
    ++ k.bytes.map (fun x => (savedPlace x.1, [x.2]))

/-- A record as it lies in the save area: its parts, with the SHA-512 of the rest of the record at 0x40 of its header (R404). -/
def SaveRec.parts (k : SaveRec) (vd : Nat) : List (Nat × List Byte) :=
  let body := k.body vd
  (0x40, hashBytes (Config.sha512 ((List.range (recordSize k.bands)).map (partByte body)))) :: body

/-! ### What a VD spills besides its storage (R158, R363, R403, R431) -/

/-- A suppression entry, 64 bytes (R361). -/
def Supp.bytes (e : Supp) : List Byte := laid [(16, e.tag), (8, e.loc), (8, e.op), (8, e.result.toNat), (1, e.status), (1, e.flags), (22, 0)]

/-- A token of a channel FIFO, 64 bytes (R194). -/
def FifoTok.bytes (x : FifoTok) : List Byte := x.tok.bytes 0 0 ++ laid [(8, x.due), (1, x.vd), (1, x.key), (14, 0)]

/-- The place of a suppression entry in the spill of what is not storage. -/
def suppPlace (i : Nat) : Nat := 64 * i

/-- The place of a token of a channel FIFO in the spill of what is not storage. -/
def fifoPlace (q i : Nat) : Nat := 0x40000 + (32 * q + i) * 64

/-- The place of what a column end keeps in the spill of what is not storage. -/
def edgePlace (g : Nat) : Nat := 0x180000 + g * 0x140

/-- The lines of a VD's spill that hold no storage: its suppression entries, channel tokens and edge state. -/
def Vd.spillParts (d : Vd) : List (Nat × List Byte) :=
  (d.spilledSupp.zipIdx).map (fun x => (suppPlace x.2, x.1.bytes))
    ++ d.spilledFifos.flatMap (fun x => (x.2.toks.zipIdx).map (fun y => (fifoPlace x.1 y.2, y.1.bytes)))
    ++ d.spilledEdges.map (fun x => (edgePlace x.1, x.2.keptBytes))

end Sys2Proof.Machine
end

