-- ==== Sys2Proof/Machine/Switch.lean ====
section
/-!
DEFINITION. The switch network at run time: routes, delay and channel nodes, ready-delay counts, link failures, swaps of
elements, routers and column ends, and run-time rewrites (R28, R31, R36, R182 to R205, R241, R330, R333; spec/07_switch.md).
-/
namespace Sys2Proof.Machine
open Sys2Proof

/-! ### The set that a router acts on (R185) -/

/-- The configuration slot whose set a router acts on. -/
def Elem.swCfg (e : Elem) : ElemCfg := vg e.core.cfg e.router.rset ElemCfg.empty

/-- The switch words of a router, as numbers. -/
def State.swWords (s : State) (e : Nat) : List Nat := (s.elem e).swCfg.sw.toList.map (fun w => w.toNat)

/-- A word of a router's set. -/
def State.swWord (s : State) (e k : Nat) : Nat := lget (s.swWords e) k 0

/-- Whether a router moves tokens: its region is alive and its element is not blocked (R236). -/
def State.routes (s : State) (e : Nat) : Bool :=
  match s.regionOfElem e with
  | some r => s.alive r && !(s.elem e).core.blocked
  | none => false

/-- The destinations of a data source: ports 0 to 7, the delay line of register k as 16 + k, the outbound channel node of
register k as 32 + k (R187). -/
def State.targets (s : State) (e src : Nat) : List Nat :=
  let l := s.swWords e
  (List.range 16).filterMap (fun k =>
    let w := lget l k 0
    if !swTakes src w then none
    else match swKind w with
      | 0 => some (swDst w)
      | 2 => some (16 + k)
      | _ => some (32 + k))

/-- The slot whose control routes are in force: in a tide, the one in force when the element's snapshot was taken, until the readout
(R394). -/
def Elem.ctlCfg (m : Elem) : ElemCfg :=
  match m.snap, m.snapRouter with
  | some k, some w => vg k.cfg w.rset ElemCfg.empty
  | _, _ => m.swCfg

/-- The destinations of a control source (R188). -/
def State.ctlTargets (s : State) (e src : Nat) : List Nat :=
  ((s.elem e).ctlCfg.sw.toList.map (fun w => w.toNat)).filterMap (fun w => if swCtlTakes src w then some (swDst w) else none)

/-! ### Sources -/

/-- Whether an output token may leave: its result has completed, and a counted mark waits for no request (R217, R245). -/
def OutTok.free (x : OutTok) : Bool :=
  x.ready && (match x.counts with | some h => h.2.isEmpty | none => true)

/-- The token at the head of a data source: an inbound link, or an output of the element. While the element has changed
slot and the router has not, its outputs send only tide marks (R200, R394). A path that a swap or tide mark has passed
sends nothing until the router changes set. A token leaves an inbound link no earlier than the cycle after the one in which it was
taken (R183). -/
def State.srcHead (s : State) (e src : Nat) : Option Token :=
  let m := s.elem e
  if m.router.swapPassed.getLsbD src || m.router.tidePassed.getLsbD src then none
  else if src < 4 then
    let q := vg m.router.rin src []
    if q.length = 1 && s.cycle < vg m.router.hold src 0 then none else q.head?
  else
    match (vg m.core.out (src - 4) []).head? with
    | some x =>
      if x.free && (m.core.active = m.router.rset || (x.tok.isMark && x.tok.mark = 2)) then some x.tok else none
    | none => none

/-- The control token at the head of a control source, which leaves an inbound link after the cycle of its arrival (R183). -/
def State.ctlHead (s : State) (e src : Nat) : Option Bool :=
  let m := s.elem e
  if src < 4 then
    let q := vg m.router.rcin src []
    if q.length = 1 && s.cycle < vg m.router.chold src 0 then none else q.head?
  else (vg m.core.qout (src - 4) []).head?

/-- The incarnation that swapping elements pass to, while a swap is in progress (R330, R334). -/
def Region.newInc (r : Region) : Option Nat :=
  match r.succ with
  | some b => some b.inc
  | none => if r.shadow = .swapping then r.cur.map (fun b => b.inc) else none

/-- Whether a router still acts on the set of the block that is being left, or of the only block (R200). -/
def State.oldSet (s : State) (e : Nat) : Bool :=
  match s.regionOfElem e with
  | some r => r.newInc != some (s.elem e).swCfg.inc
  | none => true

/-- The head of a data source removed. A counted end mark counts as it leaves (R217); a swap mark that leaves an inbound
link under the old set, and a tide mark, hold their path (R200, R394). -/
def State.popSrc (s : State) (e src : Nat) (t : Token) : State :=
  let s := if t.isMark && t.mark = 3 && src < 4 && s.oldSet e then
      s.modElem e (fun m => { m with router := { m.router with swapPassed := m.router.swapPassed ||| (1#8 <<< src) } })
    else if t.isMark && t.mark = 2 then
      s.modElem e (fun m => { m with router := { m.router with tidePassed := m.router.tidePassed ||| (1#8 <<< src) } })
    else s
  let s := s.modElem e (fun m => { m with router := { m.router with
    taken := vs m.router.taken src [], offers := vs m.router.offers src [] } })
  if src < 4 then
    s.modElem e (fun m => { m with router := { m.router with rin := vs m.router.rin src (vg m.router.rin src []).tail } })
  else
    let n := src - 4
    match (vg (s.elem e).core.out n []).head? with
    | none => s
    | some x =>
      let ends := t.isMark && t.mark = 1 && t.src != 0
      let u := s.modElem e (fun m => { m with core := { m.core with
        out := vs m.core.out n (vg m.core.out n []).tail,
        endSent := if ends then m.core.endSent ++ [srcCtx t.src * 4 + n] else m.core.endSent } })
      match x.counts with
      | some h => u.modBlockOf e (srcCtx t.src) (fun b => b.count (emitterOf e (srcCtx t.src)) h.1)
      | none => u

/-- The port that a destination of `targets` feeds, by which `taken` names it: that of its delay line's word (R203). -/
def State.fed (s : State) (e d : Nat) : Nat := if 16 ≤ d && d < 32 then swDst (s.swWord e (d - 16)) else d

/-- Whether a destination has taken the head of a source (R187). -/
def State.hasTaken (s : State) (e src d : Nat) : Bool := (vg (s.elem e).router.taken src []).contains (s.fed e d)

/-- The head of a data source taken by one destination, which is offered it no more: it leaves when the last has taken it (R187,
R203). -/
def State.took (s : State) (e src d : Nat) (t : Token) : State :=
  let done := s.fed e d :: vg (s.elem e).router.taken src []
  if (s.targets e src).all (fun x => done.contains (s.fed e x)) then s.popSrc e src t
  else s.modElem e (fun m => { m with router := { m.router with
    taken := vs m.router.taken src done,
    offers := vs m.router.offers src ((vg m.router.offers src []).filter (· != d)) } })

/-! ### Destinations -/

/-- The neighbour of an element on a side. -/
def neighbourOf (e side : Nat) : Option Nat :=
  match side with
  | 0 => if rowOf e = 0 then none else some (e - 1)
  | 1 => some (e + 128)
  | 2 => if rowOf e = 127 then none else some (e + 1)
  | _ => if e < 128 then none else some (e - 128)

/-- The ready-delay count of an inbound port (R197): the largest of its words. -/
def State.readyCount (s : State) (e p : Nat) : Nat :=
  (((s.swWords e).filter (fun w => swKind w = 4 && swReadyPort w = p)).map swReadyCount).foldl max 0

/-- Whether a row domain is hot (R198). -/
def State.isHot (s : State) (e : Nat) : Bool := s.hot.getLsbD (domainOf e)

/-- Whether an inbound link of a router is ready: it holds fewer than two tokens, has taken none in this cycle, and no
ready-delay count holds it low (R183, R197). -/
def State.linkReady (s : State) (e p : Nat) : Bool :=
  let r := (s.elem e).router
  s.routes e && (vg r.rin p []).length < 2 && vg r.hold p 0 ≤ s.cycle && (!s.isHot e || vg r.lowUntil p 0 ≤ s.cycle)

/-- Whether a token is malformed (R28). -/
def Token.malformed (t : Token) : Bool :=
  t.kind = 3 || (t.isMark && (t.tag != 0 || t.poison ||
    (if t.mark = 2 then t.payload.toNat ≥ 2 ^ 18 else t.payload.toNat ≥ 4)))

/-- An element fault that names an element and no firing (R237). -/
def State.elemFault (s : State) (e cause : Nat) (detail : Nat) : State :=
  match s.regionOfElem e with
  | some r => s.fault r.lead { cause := cause, elem := some e, ctx := 0, slot := 0, bank := (s.elem e).core.active,
                               detail := BitVec.ofNat 64 detail }
  | none => s

/-- A block fault of the region that holds an element (R35). -/
def State.blockFaultAt (s : State) (e cause detail : Nat) : State :=
  match s.regionOfElem e with
  | some r => s.fault r.lead { cause := cause, elem := none, ctx := 0, slot := 0, bank := 0,
                               detail := BitVec.ofNat 64 detail }
  | none => s

/-- A token taken at an inbound link of a router: a malformed one is discarded and freezes the region (R28); in a hot
router the ready-delay count starts (R197). -/
def State.intoLink (s : State) (e p : Nat) (t : Token) : State :=
  let s := s.modElem e (fun m => { m with router := { m.router with hold := vs m.router.hold p (s.cycle + 1) } })
  if t.malformed then s.elemFault e 0x12 p
  else
    let s := s.modElem e (fun m => { m with router := { m.router with rin := vs m.router.rin p (vg m.router.rin p [] ++ [t]) } })
    if s.isHot e && s.readyCount e p != 0 then s.soon .readyDelayCount e p 0 else s

/-- A token taken at a data input of an element, at most one in a cycle (R183): none where the input withholds ready. The trigger unit takes a swap mark
itself (R214); one that the block does not permit is block fault 0x0004 (R35). Tide marks and tokens that reach a saved
element are taken by TIDE_MARK_SNAPSHOT and CAUGHT_TOKEN. -/
def State.intoInput (s : State) (e i : Nat) (t : Token) : Option State :=
  let m := s.elem e
  let held := vs m.router.hold (4 + i) (s.cycle + 1)
  if m.core.blocked || m.swapIn.getLsbD i || m.tideClosed.getLsbD i || m.snap.isSome || (t.isMark && t.mark = 2)
      || s.cycle < vg m.router.hold (4 + i) 0 then none
  else if t.isMark && t.mark = 3 then
    if (vg m.core.cfg m.core.active ElemCfg.empty).chainSwap then
      some (s.modElem e (fun m => { m with
        swapIn := m.swapIn ||| (1#4 <<< i), marksFrom := if t.src = 0 then m.marksFrom else m.marksFrom ++ [srcElem t.src],
        router := { m.router with hold := held } }))
    else some (s.blockFaultAt e 4 0)
  else if (vg m.core.inp i []).length < 4 then
    some (s.modElem e (fun m => { m with
      core := { m.core with inp := vs m.core.inp i (vg m.core.inp i [] ++ [t]) }, router := { m.router with hold := held } }))
  else none

/-- A token given to a data destination of a router: none where it is not ready, or where the destination is an edge
unit, which takes its tokens itself (R272). -/
def State.giveTo (s : State) (e d : Nat) (t : Token) : Option State :=
  if d ≥ 4 then s.intoInput e (d - 4) t
  else
    match neighbourOf e d with
    | none => none
    | some n => if s.linkReady n (facing d) then some (s.intoLink n (facing d) t) else none

/-! ### What feeds a destination -/

/-- The word that feeds a data destination: a source, a delay node, or an inbound channel node, by register. -/
inductive Feed where
  | src (n : Nat)
  | delay (k : Nat)
  | chan (k : Nat)
  deriving DecidableEq, Repr

/-- What feeds a data destination (R86: at most one word). -/
def State.feeder (s : State) (e d : Nat) : Option Feed :=
  let l := s.swWords e
  (List.range 16).findSome? (fun k =>
    let w := lget l k 0
    if !swFeeds d w then none
    else match swKind w with
      | 0 => some (.src (swSrc w))
      | 2 => some (.delay k)
      | _ => some (.chan k))

/-- The number of a FIFO direction: die west of the edge, port, 0 eastward or 1 westward. -/
def fifoKey (die port dir : Nat) : Nat := (die * 64 + port) * 2 + dir

/-- The FIFO that a channel node uses (R194): an outbound node on the east edge sends eastward. -/
def chanFifo (e w : Nat) : Nat :=
  let east := dieCol e = 63
  fifoKey (if east then dieOf e else dieOf e - 1) (swPort w) (b2n (east = swIn w))

/-- A FIFO. -/
def State.fifo (s : State) (f : Nat) : Fifo := tget s.fifos f { toks := [], next := 0 }

/-- The pairing key of a channel node: that of the record of its block (R193). -/
def State.chanKey (s : State) (e w : Nat) : Option Nat :=
  match s.regionOfElem e with
  | none => none
  | some r =>
    match r.blockOf (s.elem e).swCfg.inc with
    | none => none
    | some b => (b.img.chans.find? (fun c => c.port = swPort w && c.dir = b2n (swIn w) && c.edge = b2n (dieCol e = 63))).map
        (fun c => c.key)

/-- The VD of an element. -/
def State.vdOfElem (s : State) (e : Nat) : Nat :=
  match s.regionOfElem e with
  | some r => r.vd
  | none => 96

/-- The head of an inbound channel node's FIFO, where its cycle has come and it belongs to the node's VD (R194, R195). -/
def State.chanHead (s : State) (e w : Nat) : Option FifoTok :=
  ((s.fifo (chanFifo e w)).toks.head?).filter (fun x => x.due ≤ s.cycle && x.vd = s.vdOfElem e)

/-- Whether a tide snapshot of an element's region is in progress: its inbound channel nodes send only the tide mark (R397). -/
def State.tiding (s : State) (e : Nat) : Bool :=
  match s.regionOfElem e with
  | some r => s.snaps.any (fun o => o.region = r.lead && !o.freeze)
  | none => false

/-- The token that is offered at a data destination. -/
def State.incoming (s : State) (e d : Nat) : Option (Feed × Token) :=
  if !s.routes e then none
  else
    match s.feeder e d with
    | none => none
    | some (.src n) =>
      if (vg (s.elem e).router.offers n []).contains d && !s.hasTaken e n d then (s.srcHead e n).map (fun t => (.src n, t)) else none
    | some (.delay k) =>
      match (tget (s.elem e).router.delay k []).head? with
      | some x => if x.2 ≤ s.cycle then some (.delay k, x.1) else none
      | none => none
    | some (.chan k) =>
      let w := s.swWord e k
      match s.chanHead e w with
      | some x =>
        if s.chanKey e w = some x.key && (!s.tiding e || (x.tok.isMark && x.tok.mark = 2)) then some (.chan k, x.tok) else none
      | none => none

/-- The offered token removed from where it stood. -/
def State.removeFeed (s : State) (e d : Nat) (f : Feed) (t : Token) : State :=
  match f with
  | .src n => s.took e n d t
  | .delay k => s.modElem e (fun m => { m with router := { m.router with
      delay := tset m.router.delay k (tget m.router.delay k []).tail } })
  | .chan k =>
    let q := chanFifo e (s.swWord e k)
    { s with fifos := tset s.fifos q { s.fifo q with toks := (s.fifo q).toks.tail } }

/-- A transfer to a data destination: the token is taken when it is offered and the destination is ready (R31). -/
def State.transfer (s : State) (e d : Nat) : State :=
  match s.incoming e d with
  | none => s
  | some (f, t) =>
    match (s.removeFeed e d f t).giveTo e d t with
    | none => s
    | some u => u.touch (pilotOfCol (colOf e))

/-! ### Delay lines and outbound channel nodes as destinations -/

/-- The rewrite of a region that applies next, where it writes a register of a router. -/
def State.awaits (s : State) (e k : Nat) : Bool :=
  match s.regionOfElem e with
  | some r => match r.rewrites.head? with
    | some x => x.recs.any (fun c => c.reg = k && c.names (colOf e - 8 * r.lead) (rowOf e))
    | none => false
  | none => false

/-- A delay line takes a token, which it offers `d` cycles later (R190); it takes none while a rewrite of its register
waits for it to empty (R203). -/
def State.intoDelay (s : State) (e k : Nat) (t : Token) : Option State :=
  let w := s.swWord e k
  let l := tget (s.elem e).router.delay k []
  if l.length < swDelay w && !s.awaits e k then
    some (s.modElem e (fun m => { m with router := { m.router with
      delay := tset m.router.delay k (l ++ [(t, s.cycle + swDelay w)]) } }))
  else none

/-- An outbound channel node takes a token into its FIFO, which belongs to one VD (R194, R195); a tide mark ends there (R397). -/
def State.intoChannel (s : State) (e k : Nat) (t : Token) : Option State :=
  let w := s.swWord e k
  let q := chanFifo e w
  let f := s.fifo q
  if t.isMark && t.mark = 2 then some s
  else
    match s.chanKey e w with
    | none => none
    | some key =>
      if f.toks.length < 32 && f.next ≤ s.cycle && f.toks.all (fun x => x.vd = s.vdOfElem e) then
        let x : FifoTok := { tok := t, due := s.cycle + 24, vd := s.vdOfElem e, key := key }
        some { s with fifos := tset s.fifos q { toks := f.toks ++ [x], next := s.cycle + 2 } }
      else none

/-- A source's head given to a delay line or an outbound channel node. -/
def State.transferInner (s : State) (e src d : Nat) : State :=
  if !s.routes e || !(vg (s.elem e).router.offers src []).contains d || s.hasTaken e src d then s
  else
    match s.srcHead e src with
    | none => s
    | some t =>
      match (if d < 32 then s.intoDelay e (d - 16) t else s.intoChannel e (d - 32) t) with
      | none => s
      | some u => (u.took e src d t).touch (pilotOfCol (colOf e))

/-! ### Control tokens (R188) -/

/-- The head of a control source removed. -/
def Elem.popCtl (m : Elem) (src : Nat) : Elem :=
  let m := { m with router := { m.router with ctaken := vs m.router.ctaken src [] } }
  if src < 4 then { m with router := { m.router with rcin := vs m.router.rcin src (vg m.router.rcin src []).tail } }
  else { m with core := { m.core with qout := vs m.core.qout (src - 4) (vg m.core.qout (src - 4) []).tail } }

/-- A control token given to a destination, at most one in a cycle: none where it has no room (four control tokens, R183, R206). -/
def State.giveCtl (s : State) (e d : Nat) (v : Bool) : Option State :=
  if d ≥ 4 then
    if (vg (s.elem e).core.qin (d - 4) []).length < 4 && !(s.elem e).core.blocked && vg (s.elem e).router.chold d 0 ≤ s.cycle then
      some (s.modElem e (fun m => { m with
        core := { m.core with qin := vs m.core.qin (d - 4) (vg m.core.qin (d - 4) [] ++ [v]) },
        router := { m.router with chold := vs m.router.chold d (s.cycle + 1) } }))
    else none
  else
    match neighbourOf e d with
    | none => none
    | some n =>
      let p := facing d
      if s.routes n && (vg (s.elem n).router.rcin p []).length < 4 && vg (s.elem n).router.chold p 0 ≤ s.cycle then
        some (s.modElem n (fun m => { m with router := { m.router with
          rcin := vs m.router.rcin p (vg m.router.rcin p [] ++ [v]), chold := vs m.router.chold p (s.cycle + 1) } }))
      else none

/-- A transfer of a control token from a source to a destination that it is offered to (offers of control tokens stand at
64 + destination). -/
def State.transferCtl (s : State) (e src d : Nat) : State :=
  if !s.routes e || !(vg (s.elem e).router.offers src []).contains (64 + d) then s
  else
    match s.ctlHead e src with
    | none => s
    | some v =>
      match s.giveCtl e d v with
      | none => s
      | some u =>
        (u.touch (pilotOfCol (colOf e))).modElem e (fun m =>
          let done := d :: vg m.router.ctaken src []
          let m := { m with router := { m.router with
            offers := vs m.router.offers src ((vg m.router.offers src []).filter (· != 64 + d)) } }
          if (s.ctlTargets e src).all (fun x => done.contains x) then m.popCtl src
          else { m with router := { m.router with ctaken := vs m.router.ctaken src done } })

/-! ### The steps of a router -/

/-- TOKEN_TAKEN at element `x`: source `y` (8 more for control), destination `z` (R31, R187). -/
def execTokenTaken (s : State) : Out :=
  let e := s.cur.x
  let src := s.cur.y % 8
  let d := s.cur.z
  .next (
    if s.cur.y ≥ 8 then s.transferCtl e src d
    else if 16 ≤ d && d < 48 then (if (s.targets e src).contains d then s.transferInner e src d else s)
    else if s.feeder e d = some (.src src) then s.transfer e d
    else s)

/-- The offers of a data source renewed (R187, R203): every destination of the words in force that has not taken the head.
A head that all of them have taken leaves. -/
def State.offer (s : State) (e src : Nat) : State :=
  match s.srcHead e src with
  | none => s
  | some t =>
    let l := s.targets e src
    let left := l.filter (fun d => !s.hasTaken e src d)
    if !l.isEmpty && left.isEmpty then s.popSrc e src t
    else s.modElem e (fun m => { m with router := { m.router with
      offers := vs m.router.offers src (left ++ (vg m.router.offers src []).filter (fun d => 64 ≤ d)) } })

/-- The offers of a control source renewed. -/
def State.offerCtl (s : State) (e src : Nat) : State :=
  match s.ctlHead e src with
  | none => s
  | some _ =>
    let done := vg (s.elem e).router.ctaken src []
    let l := s.ctlTargets e src
    let left := l.filter (fun d => !done.contains d)
    if !l.isEmpty && left.isEmpty then s.modElem e (fun m => m.popCtl src)
    else s.modElem e (fun m => { m with router := { m.router with
      offers := vs m.router.offers src (left.map (fun d => 64 + d) ++ (vg m.router.offers src []).filter (fun d => d < 64)) } })

/-- ROUTE_FORWARD at element `x`, source `y` (8 more for control) (R187, R188). -/
def execRouteForward (s : State) : Out :=
  .next (
    if !s.routes s.cur.x then s
    else if s.cur.y ≥ 8 then s.offerCtl s.cur.x (s.cur.y % 8) else s.offer s.cur.x (s.cur.y % 8))

/-- DELAY_NODE_OFFER at element `x`, register `y`: the oldest token of the line moves on once its cycle has come and its
destination is ready (R190). -/
def execDelayNodeOffer (s : State) : Out :=
  let e := s.cur.x
  let d := swDst (s.swWord e s.cur.y)
  .next (if s.feeder e d = some (.delay s.cur.y) then s.transfer e d else s)

/-- CHANNEL_NODE_DELIVER at element `x`, register `y` (R194, R195): a token of the same VD and key is delivered; another
key is element fault 0x0015. -/
def execChannelNodeDeliver (s : State) : Out :=
  let e := s.cur.x
  let w := s.swWord e s.cur.y
  .next (
    if s.feeder e (swSide w) = some (.chan s.cur.y) && s.routes e then
      match s.chanHead e w, s.chanKey e w with
      | some x, some key => if x.key = key then s.transfer e (swSide w) else s.elemFault e 0x15 (swPort w)
      | _, _ => s
    else s)

/-- The regions on the two sides of a die-edge port: those that hold the column west and the column east of it. One region that
spans the edge is on both. -/
def State.sidesOf (s : State) (die : Nat) : List Region :=
  match s.regionAt (8 * die + 7), s.regionAt (8 * die + 8) with
  | some r, some q => if r.lead = q.lead then [r] else [r, q]
  | some r, none => [r]
  | none, some q => [q]
  | none, none => []

/-- DIE_LINK_FAILURE at the port `y` of the edge east of die `x` (R196): eight successive retries have failed. Five edges have 64
ports each (R193). -/
def execDieLinkFailure (s : State) : Out :=
  if 5 ≤ s.cur.x || 64 ≤ s.cur.y then .next s else
  let t := (s.sidesOf s.cur.x).foldl (fun t r => t.fault r.lead
    { cause := 0x16, elem := none, ctx := 0, slot := 0, bank := 0, detail := BitVec.ofNat 64 s.cur.y }) s
  .next (t.raise (0x80 + s.cur.x) 0x0020 255 [BitVec.ofNat 64 s.cur.y])

/-- READY_DELAY_COUNT at element `x`, inbound port `y` (R197): after the cycle in which the port took a token its ready is
low for the next `n` cycles. -/
def execReadyDelayCount (s : State) : Out :=
  let e := s.cur.x
  let p := s.cur.y
  .next (
    if s.isHot e && s.cycle < vg (s.elem e).router.hold p 0 then
      s.modElem e (fun m => { m with router := { m.router with
        lowUntil := vs m.router.lowUntil p (vg m.router.hold p 0 + s.readyCount e p) } })
    else s)

/-- Whether the parity check of a slot or of a switch register fails (R205, R236): a slot of the active bank, or a register of the
set in force that holds a word. -/
def State.badParity (s : State) (e : Nat) (register : Bool) (z : Nat) : Bool :=
  let m := s.elem e
  if register then z < 16 && s.swWord e z != 0 && m.core.parity.contains (m.router.rset * 64 + 32 + z)
  else z < 32 && m.core.parity.contains (m.core.active * 64 + z)

/-- CONFIGURATION_PARITY at element `x`: the slot `z` that it is about to fire (`y` = 0, with the firing context in `cur.ctx`) or the
switch register `z` that it uses (`y` = 1) fails its parity (R205, R236): the element is blocked, the region freezes, and an event
tells of it. -/
def execConfigurationParity (s : State) : Out :=
  let e := s.cur.x
  let slot := s.cur.y = 0
  match s.regionOfElem e with
  | none => .next s
  | some r =>
    if (if slot then s.fires r else s.alive r) && !(s.elem e).core.blocked && s.badParity e (!slot) s.cur.z then
      .next (((s.fault r.lead { cause := 0x11, elem := some e, ctx := if slot then s.cur.ctx % 4 else 0,
                                slot := if slot then s.cur.z else 0, bank := (s.elem e).core.active,
                                detail := BitVec.ofNat 64 s.cur.z }).modElem e
        (fun m => { m with core := { m.core with blocked := true } })).raise
          (0x40 + pilotOfCol (colOf e)) 0x0022 r.vd [BitVec.ofNat 64 e])
    else .next s

/-- A token with an error that the check code of its hop cannot correct (R205): handled as a malformed one. -/
def State.linkError (s : State) (e p : Nat) : State :=
  match (vg (s.elem e).router.rin p []).head? with
  | none => s
  | some _ =>
    (s.modElem e (fun m => { m with router := { m.router with
      rin := vs m.router.rin p (vg m.router.rin p []).tail } })).elemFault e 0x13 p

/-! ### Swaps (R36, R200, R241, R330, R333) -/

/-- The data ports that some context of a slot binds: inputs in bits [3:0], outputs in bits [7:4]. -/
def ElemCfg.bound (c : ElemCfg) : Nat := boundData c.dbind.toNat

/-- Whether every context of the active slot has sent an end mark on each data output that it binds (R36). -/
def ElemCore.endsSent (k : ElemCore) : Bool :=
  let c := vg k.cfg k.active ElemCfg.empty
  (List.range 4).all (fun x => (List.range 4).all (fun n =>
    !bit (c.dbindOf x) (4 + n) || k.endSent.contains ((k.active * 4 + x) * 4 + n)))

/-- Whether a repeat can never fire again at a swap: it is idle, or its slot reads a head (R241). -/
def ElemCore.repeatsDone (k : ElemCore) : Bool :=
  let c := vg k.cfg k.active ElemCfg.empty
  (List.range 4).all (fun x =>
    let r := (vg k.ctx (k.active * 4 + x) (Ctx.activated 0)).rep
    r.count = 0 ||
      (match c.instr r.slot.toNat with
       | some i => (useOf i (fun n => vg c.fuse n 0) c.ox).srcs.any (fun a => 8 ≤ a && a < 12)
       | none => false))

/-- Whether an element meets the conditions of R36, R206 and R241: its ports, control inputs included, are empty, and no firing of the
old slot has a write outstanding. -/
def Elem.swapReady (m : Elem) : Bool :=
  let k := m.core
  let c := vg k.cfg k.active ElemCfg.empty
  let ins := (List.range 4).filter (fun i => bit c.bound i)
  (if ins.isEmpty then k.endsSent
   else ins.all (fun i => m.swapIn.getLsbD i && (vg k.inp i []).isEmpty))
    && (List.range 4).all (fun x => (vg k.ctx (k.active * 4 + x) (Ctx.activated 0)).outst.isEmpty)
    && k.out.toList.all (fun q => q.isEmpty) && k.qin.toList.all (fun q => q.isEmpty) && k.qout.toList.all (fun q => q.isEmpty)
    && k.repeatsDone

/-- Whether a router may change to its element's slot (R200, R394): its delay lines are empty; in a tide, each path of the
old set, the element's outputs among them, has passed a tide mark; otherwise, where the old slot binds no data input,
each inbound link of the old set has passed a swap mark. -/
def Elem.mayChange (m : Elem) (words : List Nat) : Bool :=
  let used := fun src => words.any (swTakes src)
  m.router.delay.all (fun x => x.2.isEmpty) &&
    (if m.router.tidePassed != 0 || m.snap.isSome then
      (List.range 8).all (fun src => !used src || m.router.tidePassed.getLsbD src)
     else (List.range 4).any (fun i => bit m.swCfg.bound i)
       || (List.range 4).all (fun src => !used src || m.router.swapPassed.getLsbD src))

/-- A router changes to the set of its element's active slot. -/
def Elem.changeSet (m : Elem) : Elem :=
  { m with router := { m.router with rset := m.core.active, swapPassed := 0, tidePassed := 0,
                                     offers := Vector.replicate 8 [] } }

/-- ROUTER_SET_CHANGE at element `x` (R200, R394). -/
def execRouterSetChange (s : State) : Out :=
  let m := s.elem s.cur.x
  .next (
    if m.core.active != m.router.rset && s.routes s.cur.x && m.mayChange (s.swWords s.cur.x) then
      s.setElem s.cur.x m.changeSet
    else s)

/-- A swap mark, whose round number is not given (it is 0, log 21). -/
def swapMark : Token := markToken 3 0

/-- Element `e` passes to its shadow slot and sends a swap mark, which names it, on each bound output of the new slot (R36, R241). What
switched it is noted (R121). Its router changes in the same cycle unless something holds it (R200). -/
def Elem.swap (m : Elem) (e : Nat) (words : List Nat) : Elem :=
  let b := 1 - m.core.active
  let outs := (vg m.core.cfg b ElemCfg.empty).bound / 16
  let hold := (List.range 4).all (fun i => !bit m.swCfg.bound i)
  let k := m.core.activate b
  let k := { k with
    out := Vector.ofFn (fun n => if bit outs n.val then
      [{ tok := { swapMark with src := 1 + (e * 8 + b * 4) * 4 + n.val }, ready := true, counts := none }] else []),
    ctx := k.ctx.mapIdx (fun _ c => { c with yielded := false }) }
  let m' : Elem := { m with core := k, swapIn := 0, marksFrom := [], upFrom := m.marksFrom.eraseDups }
  if !hold && m.mayChange words then m'.changeSet else m'

/-- Whether a token at a source of a router is on its way to a column end of its region: by a route or a delay line, router by
router. -/
def State.toEnd (s : State) : Nat → Nat → Nat → Bool
  | 0, _, _ => false
  | n + 1, e, src => (s.targets e src).any (fun d =>
      let p := s.fed e d
      p < 4 && (match neighbourOf e p with
        | none => true
        | some f => State.toEnd s n f (facing p)))

/-- How many routers a path of one region may pass. -/
def pathBound : Nat := 49152

/-- The elements upstream of a list of elements, themselves among them (R121): those whose swap marks switched them, directly or
through others. -/
def State.upTiles (s : State) (front seen : List Nat) : Nat → List Nat
  | 0 => seen
  | n + 1 =>
    match front with
    | [] => seen
    | x :: l =>
      if seen.contains x then State.upTiles s l seen n else State.upTiles s ((s.elem x).upFrom ++ l) (x :: seen) n

/-- An element with those upstream of it in its region (R121). -/
def State.upstream (s : State) (r : Region) (e : Nat) : List Nat :=
  s.upTiles [e] [] (1 + r.elems.length + (r.elems.map (fun x => (s.elem x).upFrom.length)).sum)

/-- Whether a token was emitted by one of some elements under a block (R121). -/
def State.tileToken (s : State) (inc : Nat) (tiles : List Nat) (t : Token) : Bool :=
  srcPath t.src != 0 && !t.isMark && tiles.contains (srcElem t.src)
    && (vg ((s.elem (srcElem t.src)).snap.getD (s.elem (srcElem t.src)).core).cfg (srcCtx t.src / 4) ElemCfg.empty).inc = inc

/-- Whether a store of some elements' under a block has still to perform (R121): its data token is on its way to a column end, in the
hands of a store binding or of an outbound transform, or it is an `STE` in hand. A binding whose tagged store has left its hands
counts. -/
def State.storesOut (s : State) (r : Region) (inc : Nat) (tiles : List Nat) : Bool :=
  let own : Token → Bool := s.tileToken inc tiles
  s.elems.any (fun x => r.hasElem x.1 && ((List.range 4).any (fun src =>
      (vg x.2.router.rin src []).any own && s.toEnd pathBound x.1 src)
    || x.2.router.delay.any (fun l => l.2.any (fun y => own y.1)
        && (match neighbourOf x.1 (swDst (s.swWord x.1 l.1)) with
            | none => true
            | some f => s.toEnd pathBound f (facing (swDst (s.swWord x.1 l.1)))))))
    || r.ends.any (fun g =>
      let x := s.edge g
      x.xhand.any own || x.opens.any (fun o => o.group.any own) || x.halfSte.any own
        || x.cmds.any (fun c => c.op = 65 && c.inc = inc && own c.tok))
    || (match r.blockOf inc with
        | some b => b.binds.any (fun x => x.takeq.any own || (x.takeq.isEmpty && x.unperformed != 0))
        | none => false)

/-- The block that the elements of a block of a region left by a swap. -/
def Region.predecessor (r : Region) (inc : Nat) : Option Block :=
  if r.succ.any (fun b => b.inc = inc) then r.cur else if r.cur.any (fun b => b.inc = inc) then r.prev else none

/-- Whether a command of an element waits for the old-block stores of the element and of those upstream of it (R121). -/
def State.wavefront (s : State) (r : Region) (c : Cmd) : Bool :=
  match r.predecessor c.inc with
  | some k => c.op != 65 && srcPath c.tok.src != 0 && s.storesOut r k.inc (s.upstream r (srcElem c.tok.src))
  | none => false

/-- Whether an element passes to its shadow slot in this cycle (R36, R241): its row domain's cycle has come, the shadow is armed or a
swap is in progress in which it has still to take part, and it meets the conditions. An element that binds no data port waits for
the element cycle after the arming. -/
def State.swapsNow (s : State) (r : Region) (e : Nat) : Bool :=
  let m := s.elem e
  let c := vg m.core.cfg m.core.active ElemCfg.empty
  s.elemCycle r e && !s.slackHolds r e && !m.core.blocked && m.snap.isNone
    && ((r.shadow = .armed && r.shImg.isSome) || (r.shadow = .swapping && r.newInc != some c.inc))
    && (c.bound != 0 || r.armedAt < s.cycle)
    && m.swapReady

/-- The first swap of a region (R330): the shadow is SWAPPING, the successor takes a fresh incarnation number and enters
the completion queue. -/
def State.firstSwap (s : State) (r : Region) (m : Image) : State :=
  let inc := s.incs
  (s.freshInc.mapElems r (fun _ x => { x with core := { x.core with
      cfg := vs x.core.cfg (1 - x.core.active) { vg x.core.cfg (1 - x.core.active) ElemCfg.empty with inc := inc } } })).modRegion
      r.lead (fun q => { q with shadow := .swapping, succ := some (m.block r.lead inc), compQ := enterQueue q.compQ inc })

/-- The shadow after the last swap (R330): with the predecessor committed it is that block's image, as LOADED. -/
def Region.lastSwap (r : Region) : Region :=
  if r.succ.isNone then
    { r with shadow := .loaded, shImg := r.actImg, actImg := r.cur.map (fun b => b.img) }
  else r

/-- A committed predecessor is kept until every element has swapped and every column end has passed from its bindings (R333). -/
def State.prevPassed (s : State) (lead : Nat) : State :=
  match s.region lead with
  | none => s
  | some r =>
    match r.cur with
    | none => s
    | some b =>
      if r.succ.isNone && r.shadow ≠ .swapping && r.ends.all (fun g => (s.edge g).endInc = b.inc) then
        s.modRegion lead (fun q => { q with prev := none })
      else s

/-- ELEMENT_SWAP at element `x` (R36, R241, R330): it takes the element's cycle. -/
def execElementSwap (s : State) : Out :=
  let e := s.cur.x
  match s.regionOfElem e with
  | none => .next s
  | some r =>
    if !s.swapsNow r e then .next s
    else
      let t := match r.shadow, r.shImg with
        | .armed, some img => s.firstSwap r img
        | _, _ => s
      let t := t.setElem e { (t.elem e).swap e (s.swWords e) with last := s.cycle + 1 }
      match t.regionOfElem e with
      | none => .next t
      | some q =>
        match q.newInc with
        | some inc => .next (if t.allSwapped q inc then (t.modRegion q.lead Region.lastSwap).prevPassed q.lead else t)
        | none => .next t

/-- The bindings of a block at a column end. -/
def Block.bindsAt (b : Block) (lead g : Nat) : List BindSt :=
  b.binds.filter (fun x => 2 * (8 * lead + x.br.col) + x.br.side = g)

/-- The incarnation that the column ends of a region pass to: the successor's, or, when the predecessor has gone, the running
block's (R333, R334). -/
def Region.endTarget (r : Region) : Option Nat := r.newInc.or (r.cur.map (fun b => b.inc))

/-- Whether a column end may pass from the predecessor to the successor (R333): its bindings have sent and taken their swap marks; where
it has none, a swap mark has crossed it, or the last element has swapped. -/
def State.endPasses (s : State) (r : Region) (g inc : Nat) : Bool :=
  let old := match r.blockOf (s.edge g).endInc with | some b => b.bindsAt r.lead g | none => []
  if old.isEmpty then (s.edge g).swapCrossed || s.allSwapped r inc else old.all (fun x => x.swapped)

/-- COLUMN_END_PASSES at region `x`, edge unit `y` (R333). -/
def execColumnEndPasses (s : State) : Out :=
  let g := s.cur.y
  match s.region s.cur.x with
  | none => .next s
  | some r =>
    match r.endTarget with
    | none => .next s
    | some inc =>
      .next (if r.hasEnd g && (s.edge g).endInc != inc && s.endPasses r g inc then
        (s.modEdge g (fun x => { x with endInc := inc, swapCrossed := false })).prevPassed r.lead else s)

/-! ### Run-time rewrites (R201 to R203) -/

/-- The slot into which a rewrite writes a router's words. -/
def Rewrite.bank (w : Rewrite) (e d : Nat) : Nat := tget w.banks e d

/-- The fabric of a region as a rewrite leaves it. -/
def State.rewritten (s : State) (r : Region) (w : Rewrite) : Fabric :=
  let cfgOf : Nat → ElemCfg := fun e => vg (s.elem e).core.cfg (w.bank e (s.elem e).core.active) ElemCfg.empty
  { lead := r.lead, bands := r.bands,
    sets := r.elems.map (fun e => (e, writeRecs w.recs (colOf e - r.col0) (rowOf e) (cfgOf e).sw)),
    dbind := r.elems.map (fun e => (e, (cfgOf e).bound)),
    cbind := r.elems.map (fun e => (e, boundCtl (cfgOf e).cbind.toNat)) }

/-- Whether a record's word is legal at a router: the rules of R86 and R189, no channel node named or replaced (R202). -/
def State.recLegal (s : State) (f : Fabric) (w : Rewrite) (c : SwRec) (e : Nat) : Bool :=
  let old := (vg (vg (s.elem e).core.cfg (w.bank e 0) ElemCfg.empty).sw c.reg 0).toNat
  let l := f.words e
  let single := (List.range 8).all (fun d => (!swFeeds d c.word || l.countP (swFeeds d) ≤ 1)
    && (!swCtlFeeds d c.word || l.countP (swCtlFeeds d) ≤ 1))
  f.wordOk s.joined e c.word && single && (c.word = 0 || swKind c.word != 3) && (old = 0 || swKind old != 3)

/-- The first illegal word of a rewrite, with its router; or the first router whose set is illegal as a whole (R202). -/
def State.rewriteBad (s : State) (r : Region) (w : Rewrite) : Option (Nat × Nat) :=
  let f := s.rewritten r w
  let pairs := w.recs.flatMap (fun c => (c.routers r.lead).map (fun e => (c, e)))
  match pairs.find? (fun x => !s.recLegal f w x.1 x.2) with
  | some x => some (x.2, x.1.word)
  | none =>
    match pairs.find? (fun x => !f.routerOk s.joined x.2) with
    | some x => some (x.2, x.1.word)
    | none =>
      match f.firstBad s.joined with
      | some e => some (e, match w.recs with | c :: _ => c.word | [] => 0)
      | none => none

/-- Whether the delay lines that a rewrite writes are empty (R203). -/
def State.linesEmpty (s : State) (r : Region) (w : Rewrite) : Bool :=
  w.recs.all (fun c => (c.routers r.lead).all (fun e =>
    let m := s.elem e
    w.bank e m.router.rset != m.router.rset || (tget m.router.delay c.reg []).isEmpty))

/-- The words of a rewrite written, with their parity bits, in every router named. -/
def State.applyRewrite (s : State) (r : Region) (w : Rewrite) : State :=
  w.banks.foldl (fun t x => t.modElem x.1 (fun m =>
    let c := vg m.core.cfg x.2 ElemCfg.empty
    { m with core := { m.core with
        cfg := vs m.core.cfg x.2 { c with sw := writeRecs w.recs (colOf x.1 - r.col0) (rowOf x.1) c.sw },
        parity := m.core.parity.filter (fun k => !w.recs.any (fun y =>
          y.names (colOf x.1 - r.col0) (rowOf x.1) && k = x.2 * 64 + 32 + y.reg)) },
             router := { m.router with offers := Vector.replicate 8 [] } })) s

/-- SWITCH_REWRITE_APPLY at region `x` (R201 to R203): the oldest rewrite, 16 cycles or more after its issue and after the
one before. An illegal word blocks an element and freezes the region (cause 0x0010); otherwise every word is applied. The
pilot's instruction completes. -/
def execSwitchRewriteApply (s : State) : Out :=
  match s.region s.cur.x with
  | none => .next s
  | some r =>
    match r.rewrites with
    | [] => .next s
    | w :: l =>
      if s.cycle < w.issued + 16 || s.cycle ≤ r.lastRewrite || s.gated r || !s.linesEmpty r w then .next s
      else
        let t := (s.modRegion r.lead (fun q => { q with rewrites := l, lastRewrite := s.cycle })).modPilot w.pilot Pilot.step
        match s.rewriteBad r w with
        | some x => .next (t.soon .elementBlocked x.1 x.2 0)
        | none => .next (t.applyRewrite r w)

end Sys2Proof.Machine
end

