-- ==== Sys2Proof/Machine/CmdCheck.lean ====
section
/-!
DEFINITION. Packets of the command path: their fields, and the refusals of the edge units, stream engines, eddy units and
spring decoders that are found when the edge port takes a packet (R85, R172, R176, R229, R275, R276, R351, R352, R355,
R374, R375).
-/
namespace Sys2Proof.Machine
open Sys2Proof

/-! ### Fields of a packet (R172) -/

/-- Lane `k` of a packet, W0 to W7. -/
def Token.w (t : Token) (k : Nat) : Nat := (lane t.payload k).toNat
/-- The 64-bit value of lanes `k + 1` and `k`. -/
def Token.w2 (t : Token) (k : Nat) : Nat := t.payload.toNat / 2 ^ (32 * k) % 2 ^ 64
/-- The class of the command word. -/
def Token.cls (t : Token) : Nat := bits (t.w 7) 30 2
/-- The opcode of the command word. -/
def Token.opc (t : Token) : Nat := bits (t.w 7) 24 6
/-- Bits [9:7] of the command word. -/
def Token.sub3 (t : Token) : Nat := bits (t.w 7) 7 3
/-- The LSID of the command word. -/
def Token.lsid (t : Token) : Nat := bits (t.w 7) 2 5
/-- Whether a run of lanes is zero. -/
def Token.zeros (t : Token) (l : List Nat) : Bool := l.all (fun k => t.w k = 0)
/-- Whether W6 is zero outside a list of fields (low bit, width). -/
def Token.w6only (t : Token) (l : List (Nat × Nat)) : Bool :=
  (List.range 32).all (fun i => !bit (t.w 6) i || l.any (fun f => f.1 ≤ i && i < f.1 + f.2))

/-! ### Ranges -/

/-- The cell of byte `a` of the reservoir quarter that a column end uses (R161). -/
def resCell (g a : Nat) : Nat :=
  resBase + stackOf (g / 2) (g % 2) * 0x4000000 + stripOf (g / 2) % 4 * 0x1000000 + a

/-- Whether a range of an address kind can be used at a column end: kind 0 is judged as it is translated; kinds 1 and 2 lie
in one tarn of the VD's allocation, or in a quarter that it holds (R159, R172, R176, R493; log 40). -/
def State.rangeOk (s : State) (vd g kind a n : Nat) : Bool :=
  match kind with
  | 0 => true
  | 1 => a < 2 ^ 21 && a % 2 ^ 18 + n ≤ 2 ^ 18 && (s.layerCell vd (g / 2) (g % 2) (a / 2 ^ 18) 0).isSome
  | 2 => a + n ≤ 2 ^ 24 && s.holdsQuarter vd (resCell g 0)
  | _ => false

/-- The bindings of a block at a column end, with their indices. -/
def Image.at (m : Image) (lead g : Nat) : List (Nat × BindRec) :=
  ((List.range m.streams.length).filterMap (fun b => (m.streams[b]?).map (fun r => (b, r)))).filter
    (fun x => 2 * (8 * lead + x.2.col) + x.2.side = g)

/-- Whether a tag is the generator of a binding of a direction at a column end. -/
def Image.genAt (m : Image) (lead g dir tag : Nat) : Bool := (m.at lead g).any (fun x => x.2.dir = dir && x.2.gen = tag)

/-! ### Formats of the edge unit (R275) -/

/-- The element width of a block kind, in bits. -/
def blockWidth (k : Nat) : Nat :=
  match k with
  | 0 => 4
  | 1 | 2 => 6
  | 3 | 4 => 8
  | 5 => 4
  | _ => 2
/-- Whether a block kind is affine. -/
def isAffine (k : Nat) : Bool := k ≥ 5
/-- The bytes of a block's elements: 32 of them (R51). -/
def blockBytes (k : Nat) : Nat := 4 * blockWidth k
/-- The bytes of a block's scale entry. -/
def scaleBytes (k : Nat) : Nat := if isAffine k then 2 else 1
/-- The element format of an MX block kind. -/
def blockFmt (k : Nat) : Fmt :=
  match k with
  | 0 => .e2m1
  | 1 => .e2m3
  | 2 => .e3m2
  | 3 => .e4m3
  | _ => .e5m2
/-- The format of a `CVTIN` or `CVTOUT` code. -/
def cvtFmt (k : Nat) : Fmt :=
  match k with
  | 0 => .bf16
  | 1 => .f16
  | 2 => .e4m3
  | 3 => .e5m2
  | 4 => .e2m3
  | 5 => .e3m2
  | _ => .e2m1
/-- The element width of a `CVTIN` command: its mode and code. -/
def cvtinWidth (mode code : Nat) : Nat := if mode = 2 then (if code = 0 then 4 else 2) else (cvtFmt code).width
/-- The element width of a `CVTOUT` command. -/
def cvtoutWidth (code : Nat) : Nat := if code = 7 then 8 else (cvtFmt code).width

/-! ### What is legal, by engine -/

/-- `XSPLIT`. -/
def State.xsplitOk (s : State) (vd lead g : Nat) (m : Image) (t : Token) : Bool :=
  let k := t.sub3
  let n := t.w 4
  let w := t.w 6
  k != 7 && 1 ≤ n && n ≤ 65536 && t.zeros [5] && w / 2 ^ 12 = 0 && bit m.loadMask t.lsid
    && t.w2 0 % 8 = 0 && (!isAffine k || t.w2 2 % 2 = 0)
    && s.rangeOk vd g (bits w 0 4) (t.w2 0) (n * blockBytes k) && s.rangeOk vd g (bits w 4 4) (t.w2 2) (n * scaleBytes k)
    && bits w 8 2 != bits w 10 2 && !m.genAt lead g 0 (bits w 8 2) && !m.genAt lead g 0 (bits w 10 2)

/-- `XJOIN`. -/
def State.xjoinOk (s : State) (vd lead g : Nat) (m : Image) (t : Token) : Bool :=
  let k := t.sub3
  let n := t.w 4
  let w := t.w 6
  k != 7 && 1 ≤ n && n ≤ 65536 && t.w 5 ≤ 3 && w / 2 ^ 10 = 0 && bit m.storeMask t.lsid
    && t.w2 0 % 8 = 0 && (!isAffine k || t.w2 2 % 2 = 0)
    && s.rangeOk vd g (bits w 0 4) (t.w2 0) (n * blockBytes k) && s.rangeOk vd g (bits w 4 4) (t.w2 2) (n * scaleBytes k)
    && bits w 8 2 != 0 && !m.genAt lead g 1 (bits w 8 2)

/-- `XSCALE`. -/
def xscaleOk (t : Token) : Bool :=
  let q := signed (t.w 6) 32
  !bit (t.w 7) 9 && t.lsid = 0 && -300 ≤ q && q ≤ 300

/-- `NWATCH`. -/
def nwatchOk (t : Token) : Bool :=
  let r := decodeF .f32 (t.w 0)
  let w := t.w 1
  !bit (t.w 7) 9 && t.lsid = 0 && t.zeros [2, 3, 4, 5, 6] && bits w 3 5 = 0 && w / 2 ^ 11 = 0
    && !r.isNaN && !r.isInf && 0 ≤ r.cmp (.fin false 1 0)

/-- `NREAD`. -/
def nreadOk (t : Token) : Bool := !bit (t.w 7) 9 && t.lsid = 0 && t.zeros [0, 1, 2, 3, 4, 5, 6]
/-- `NCLR`. -/
def nclrOk (t : Token) : Bool := t.lsid = 0 && t.zeros [0, 1, 2, 3, 4, 5, 6]

/-- `CVTIN`. Its scale array has the source's address kind (log 24). -/
def State.cvtinOk (s : State) (vd lead g : Nat) (m : Image) (t : Token) : Bool :=
  let c := t.sub3
  let n := t.w 4
  let w := t.w 6
  let mode := bits w 16 2
  let kind := bits w 4 4
  (match mode with | 0 => c != 7 && t.w2 0 = 0 | 1 => 2 ≤ c && c ≤ 6 | 2 => c ≤ 1 | _ => false)
    && t.w6only [(4, 4), (8, 2), (16, 2)] && 1 ≤ n && n ≤ 2 ^ 20 && t.zeros [5] && t.w2 2 % 32 = 0
    && (mode = 0 || n % 32 = 0) && (mode != 2 || t.w2 0 % 2 = 0) && bit m.loadMask t.lsid
    && s.rangeOk vd g kind (t.w2 2) ((n * cvtinWidth mode c + 7) / 8)
    && (mode = 0 || s.rangeOk vd g kind (t.w2 0) (n / 32 * (if mode = 2 then 2 else 1)))
    && !m.genAt lead g 0 (bits w 8 2)

/-- `CVTOUT`. -/
def State.cvtoutOk (s : State) (vd lead g : Nat) (m : Image) (t : Token) : Bool :=
  let n := t.w 4
  let w := t.w 6
  t.zeros [2, 3] && 1 ≤ n && n ≤ 2 ^ 20 && bits (t.w 5) 0 3 ≤ 3 && bits (t.w 5) 5 3 = 0 && t.w 5 / 2 ^ 16 = 0
    && t.w6only [(0, 4), (8, 2)] && t.w2 0 % 32 = 0 && n * cvtoutWidth t.sub3 % 256 = 0 && bit m.storeMask t.lsid
    && s.rangeOk vd g (bits w 0 4) (t.w2 0) (n * cvtoutWidth t.sub3 / 8)
    && bits w 8 2 != 0 && !m.genAt lead g 1 (bits w 8 2)

/-- The binding that a stream command names: a record whose tarn lies in this stack (R176). -/
def Image.named (m : Image) (lead g : Nat) (t : Token) : Option BindRec :=
  ((m.at lead g).find? (fun x => x.1 = bits (t.w 6) 8 5)).map (fun x => x.2)

/-- Whether a binding is a multi-buffer. -/
def BindRec.multi (b : BindRec) : Bool := b.target = 1 && b.mode = 0

/-- Whether `.hand` is absent, or names a binding in multi-buffer mode. -/
def Image.handOk (m : Image) (lead g : Nat) (t : Token) : Bool :=
  !bit (t.w 7) 8 || (match m.named lead g t with | some b => b.multi | none => false)

/-- Whether a byte count is legal. -/
def countOk (n : Nat) : Bool := n != 0 && n % 32 = 0

/-- Whether a destination in the peer range carries at most six granules (R452). -/
def peerCountOk (kind a n : Nat) : Bool := kind != 0 || a < peerRange || peerRange + 2 ^ 44 ≤ a || n ≤ 192

/-- Stream-engine commands (R172, R176), by opcode less 8. -/
def State.streamOk (s : State) (vd lead g : Nat) (m : Image) (t : Token) : Bool :=
  let w := t.w 6
  let store := bit m.storeMask t.lsid
  let nohand := !bit (t.w 7) 8
  let aligned := t.w2 0 % 32 = 0 && t.w2 2 % 32 = 0
  let bd := m.named lead g t
  match t.opc with
  | 0x08 => nohand && t.zeros [3, 4, 5] && t.w6only [(8, 5)] && t.w2 0 % 32 = 0
      && (match bd with | some b => b.target = 0 && b.lsid = t.lsid | none => false)
  | 0x09 => nohand && t.zeros [0, 1, 2, 3, 4, 5] && t.w6only [(8, 5)]
      && (match bd with | some b => b.multi && b.lsid = t.lsid | none => false)
  | 0x0A => m.handOk lead g t && t.zeros [5] && t.w6only [(0, 4), (4, 4), (8, 5)] && aligned && countOk (t.w 4) && store
      && s.rangeOk vd g (bits w 0 4) (t.w2 0) (t.w 4) && s.rangeOk vd g (bits w 4 4) (t.w2 2) (t.w 4)
      && peerCountOk (bits w 0 4) (t.w2 0) (t.w 4)
  | 0x0B => nohand && t.zeros [0, 1, 5] && t.w6only [(4, 4), (8, 5)] && aligned && countOk (t.w 4)
      && s.rangeOk vd g (bits w 4 4) (t.w2 2) (t.w 4)
      && (match bd with | some b => b.target = 1 && b.mode != 0 && b.dir = 0 && b.lsid = t.lsid | none => false)
  | 0x0C => nohand && t.zeros [2, 3, 5] && t.w6only [(0, 4), (8, 5)] && aligned
      && (match bd with
          | some b => b.target = 1 && b.dir = 1 && b.lsid = t.lsid
              && (if b.multi then t.w 4 = 0 && s.rangeOk vd g (bits w 0 4) (t.w2 0) (vg b.strides 3 0).toNat
                  else countOk (t.w 4) && s.rangeOk vd g (bits w 0 4) (t.w2 0) (t.w 4))
          | none => false)
  | 0x0D => m.handOk lead g t && t.zeros [2, 3, 5] && t.w6only [(0, 4), (8, 5)] && aligned && countOk (t.w 4) && store
      && s.rangeOk vd g (bits w 0 4) (t.w2 0) (t.w 4) && peerCountOk (bits w 0 4) (t.w2 0) (t.w 4)
  | 0x0E => m.handOk lead g t && t.w6only [(0, 4), (4, 4), (8, 5)] && aligned && store
      && 1 ≤ t.w 5 && t.w 5 ≤ 65536 && t.w 4 % 32 = 0 && s.rangeOk vd g 1 (t.w 4) (4 * t.w 5)
      && s.rangeOk vd g (bits w 0 4) (t.w2 0) (32 * t.w 5) && s.rangeOk vd g (bits w 4 4) (t.w2 2) 32
  | _ => nohand && t.w6only [(0, 4), (4, 4)] && aligned && store
      && 1 ≤ t.w 5 && t.w 5 ≤ 65536 && t.w 4 % 32 = 0 && s.rangeOk vd g 1 (t.w 4) (4 * t.w 5)
      && s.rangeOk vd g (bits w 0 4) (t.w2 0) 32 && s.rangeOk vd g (bits w 4 4) (t.w2 2) (32 * t.w 5)

/-- The size of an eddy command's location (R352). -/
def eddySize (op ty : Nat) : Nat :=
  match op with
  | 0x11 => 4
  | 0x1A => 16
  | _ => if ty < 2 then 4 else 8

/-- Eddy commands (R352, R355): what is known before the address is translated. -/
def eddyOk (m : Image) (t : Token) : Bool :=
  let ty := bits (t.w 7) 8 2
  if t.opc = 0x1B then t.sub3 = 0 && t.lsid = 0
  else
    bit m.storeMask t.lsid && (t.opc != 0x11 || ty != 3) && (t.opc != 0x1A || ty = 0)
      && t.w2 4 % eddySize t.opc ty = 0
      && (if t.opc = 0x1A then bits (t.w 6) 1 15 = 0 else t.w 6 / 2 = 0)
      && (t.w2 4 < tarnWindow || 2 ^ 52 ≤ t.w2 4)

/-- Spring commands (R375). -/
def State.springOk (s : State) (vd lead g : Nat) (m : Image) (t : Token) : Bool :=
  let w := t.w 6
  let n := t.w 4
  let k := bits w 16 8
  let src := bits w 4 4
  !bit (t.w 7) 8 && 1 ≤ n && n ≤ 65536 && 1 ≤ k && k ≤ 128 && (src = 0 || src = 2) && t.w2 2 % 32 = 0
    && (src = 0 || t.w2 2 < 2 ^ 24)
    && (if t.opc = 0x1C then
          t.w6only [(0, 4), (4, 4), (16, 8)] && t.w2 0 % 32 = 0 && s.rangeOk vd g (bits w 0 4) (t.w2 0) (32 * k * n)
            && bit m.storeMask t.lsid
        else
          t.w6only [(4, 4), (8, 2), (16, 8)] && t.w2 0 = 0 && bits w 8 2 != 0 && !m.genAt lead g 0 (bits w 8 2)
            && bit m.loadMask t.lsid)

/-- Whether a virtual address is one that the port need not translate to know that nobody may use it: a window of which the VD is not a
member (R229, R355, R433), and for a store the tarn window outside the allocation (R160, R229). -/
def State.decodes (s : State) (vd a : Nat) (store : Bool) : Bool :=
  if aperture ≤ a && a < aperture + 2 ^ 40 then
    (match s.windowPlace vd a with | .noWindow => false | _ => true)
  else if store && tarnWindow ≤ a && a < 2 ^ 52 then
    (match s.tarnPlace vd a with | .tarn _ => true | _ => false)
  else true

/-- Class-11 packets (R85). Bits [23:20] and [1:0] of lane 7, which are 0 in a command word, are not looked at: whether a packet that
`CMDE` sends with others is refused R85 does not say (DESIGN CHOICE, log 36). -/
def State.engineOk (s : State) (vd lead g : Nat) (m : Image) (t : Token) : Bool :=
  match t.opc with
  | 0x00 => s.xsplitOk vd lead g m t
  | 0x01 => s.xjoinOk vd lead g m t
  | 0x02 => xscaleOk t
  | 0x03 => nwatchOk t
  | 0x04 => nreadOk t
  | 0x05 => nclrOk t
  | 0x06 => s.cvtinOk vd lead g m t
  | 0x07 => s.cvtoutOk vd lead g m t
  | n => if n < 0x10 then s.streamOk vd lead g m t else if n < 0x1C then eddyOk m t && (n = 0x1B || s.decodes vd (t.w2 4) false) else s.springOk vd lead g m t

/-- `LDE` and `STE` requests (R229): what is known before the address is translated. -/
def State.requestOk (s : State) (vd g : Nat) (t : Token) : Bool :=
  t.w2 0 % 32 = 0 && s.rangeOk vd g (bits (t.w 7) 7 2) (t.w2 0) 32
    && (bits (t.w 7) 7 2 != 0 || s.decodes vd (t.w2 0) (t.opc = 13))

/-! ### Which packets return a token -/

/-- Whether a packet's command returns a token (R85, R175, R229, R276, R354, R380). -/
def Token.returns (t : Token) : Bool :=
  if t.cls = 2 then t.opc = 12 || bit (t.w 7) 9
  else
    match t.opc with
    | 0x02 => true
    | 0x04 => true
    | n =>
      if n < 0x08 then false
      else if n < 0x10 then bit (t.w 7) 9
      else if n = 0x1B then true
      else if n < 0x1C then !bit (t.w 6) 0
      else bit (t.w 7) 9

/-- A token with given lanes that answers a packet: its round, tag 0 (R175, R229, R354, R380). -/
def Token.answer (t : Token) (l : List Nat) (poison : Bool) : Token :=
  { payload := ofLanes (fun k => BitVec.ofNat 32 (lget l k 0)), kind := 0, round := t.round, tag := 0, poison := poison,
    src := 0 }

/-- The null token that answers a null packet; its payload is not given (log 2). -/
def Token.nullAnswer (t : Token) (payload : Payload) : Token :=
  { payload := payload, kind := 1, round := t.round, tag := 0, poison := false, src := 0 }

/-- The answer to a poisoned packet (R177, R229, R276, R354, R379). -/
def Token.poisonAnswer (t : Token) : Token :=
  if t.cls = 2 then (if t.opc = 12 then t.answer [] true else t.answer [2] false)
  else if t.opc < 0x08 then t.answer [] true
  else if t.opc < 0x10 then t.answer [2] false
  else if t.opc < 0x1C then t.answer [0, 0, 1] true
  else t.answer [3, 0, 0, 0xFFFFFFFF] false

end Sys2Proof.Machine
end

