-- ==== Sys2Proof/Machine/EngineOps.lean ====
section
/-!
DEFINITION. What the engines behind an edge port share: the commands in hand and their order, what an address reaches, walks
and parking, answers and refusals (R85, R108 to R110, R119, R162, R166 to R170, R172, R174, R217, R229, R237, R343, R362,
R364, R433, R452).
-/
namespace Sys2Proof.Machine
open Sys2Proof

/-! ### Column ends -/

/-- The outbound link of an end router that leads to its edge unit: north 0, south 2. -/
def endLink (g : Nat) : Nat := if g % 2 = 0 then 0 else 2

/-- The region of a column end. -/
def State.endRegion (s : State) (g : Nat) : Option Region := s.regionAt (pilotOfCol (g / 2))

/-- The VD of a column end. -/
def State.endVd (s : State) (g : Nat) : Nat :=
  match s.endRegion g with
  | some r => r.vd
  | none => 96

/-- The block that a column end serves (R333). -/
def State.endBlock (s : State) (g : Nat) : Option (Region × Block) :=
  match s.endRegion g with
  | some r => (r.blockOf (s.edge g).endInc).map (fun b => (r, b))
  | none => none

/-! ### Stream bindings by requester -/

/-- A block of a region by place: 0 the running one, 1 the successor, 2 the predecessor that has committed. -/
def Region.place (r : Region) (y : Nat) : Option Block := if y = 0 then r.cur else if y = 1 then r.succ else r.prev

/-- A binding, with its region and block. -/
def State.binding (s : State) (lead place b : Nat) : Option (Region × Block × BindSt) :=
  match s.region lead with
  | some r => match r.place place with
    | some k => (k.binds[b]?).map (fun x => (r, k, x))
    | none => none
  | none => none

/-- A binding changed. -/
def State.modBinding (s : State) (lead place b : Nat) (f : BindSt → BindSt) : State :=
  s.modRegion lead (fun r =>
    let g : Option Block → Option Block := fun o => o.map (fun k => { k with binds := lmod k.binds b f })
    if place = 0 then { r with cur := g r.cur } else if place = 1 then { r with succ := g r.succ } else { r with prev := g r.prev })

/-- The column end of a binding. -/
def BindSt.endOf (x : BindSt) (lead : Nat) : Nat := 2 * (8 * lead + x.br.col) + x.br.side

/-- The iterations of a block's loop nest (R162). -/
def Image.iterations (m : Image) : Nat := levels m.loops 0 * levels m.loops 1 * levels m.loops 2 * levels m.loops 3

/-- The level indices of an iteration. -/
def Image.indexOf (m : Image) (n k : Nat) : Nat :=
  n / ((List.range k).map (fun j => levels m.loops j)).foldl (· * ·) 1 % levels m.loops k

/-! ### Commands in hand -/

/-- Whether a command is an `LDE` or `STE` request. -/
def Cmd.isRequest (c : Cmd) : Bool := c.op ≥ 64
/-- Whether it is a stream-engine command. -/
def Cmd.isStream (c : Cmd) : Bool := 0x08 ≤ c.op && c.op < 0x10
/-- Whether it is an eddy command. -/
def Cmd.isEddy (c : Cmd) : Bool := 0x10 ≤ c.op && c.op < 0x1C
/-- Whether it is a spring command. -/
def Cmd.isSpring (c : Cmd) : Bool := 0x1C ≤ c.op && c.op < 64
/-- Whether it carries `.ord` (R85, R172). -/
def Cmd.ordered (c : Cmd) : Bool := c.op ≥ 0x08 && c.op < 64 && c.op != 0x1B && bit (c.tok.w 7) 7

/-- The edge path of a packet: the element and bank context that sent it (R108). -/
def pathKey (t : Token) : Nat := if srcPath t.src = 0 then 2 ^ 24 else srcElem t.src * 8 + srcCtx t.src
/-- Whether two commands came by one path. -/
def samePath (a b : Cmd) : Bool := pathKey a.tok = pathKey b.tok

/-- A command in hand. -/
def Edge.find (x : Edge) (i : Nat) : Option Cmd := x.cmds.find? (fun c => c.id = i)
/-- The commands taken before one. -/
def Edge.before (x : Edge) (i : Nat) : List Cmd := x.cmds.takeWhile (fun c => c.id != i)
/-- One command changed. -/
def State.modCmd (s : State) (g i : Nat) (f : Cmd → Cmd) : State :=
  s.modEdge g (fun x => { x with cmds := x.cmds.map (fun c => if c.id = i then f c else c) })

/-! ### Answers and refusals -/

/-- An element fault 0x0014 for a packet (R85, R237, R272): it names the sender, with lane 7 as detail. -/
def State.refuseTok (s : State) (g : Nat) (t : Token) : State :=
  match s.endRegion g with
  | some r => s.fault r.lead { cause := 0x14, elem := some (t.sender g).1, ctx := (t.sender g).2 % 4, slot := 0,
                               bank := (t.sender g).2 / 4, detail := BitVec.ofNat 64 (t.w 7) }
  | none => s

/-- A command has performed: its place in the order of responses takes its token, its entry in the record is closed, and
nothing waits for it any more (R175, R217, R229, R362). -/
def State.finishCmd (s : State) (g i : Nat) (out : Option Token) : State :=
  match (s.edge g).find i with
  | none => s
  | some c =>
    let t := s.modEdge g (fun x => { x with
      cmds := x.cmds.filter (fun d => d.id != i),
      rsps := match out with
        | some t => x.rsps.map (fun p => if p.id = i then { p with tok := some t, tag := c.tag, orig := some c } else p)
        | none => x.rsps.filter (fun p => p.id != i) })
    let t := (t.requestDone c.tok.src).touch (pilotOfCol (g / 2))
    if out.isNone && c.tag != 0 then t.soon .suppressionRetire (tagVd c.tag) c.tag 0 else t

/-- A command refused when it is known to be impossible: nothing performed, no token (R85, R176, R229, R276, R355). -/
def State.refuseCmd (s : State) (g : Nat) (c : Cmd) : State := (s.refuseTok g c.tok).finishCmd g c.id none

/-! ### Walks and parking -/

/-- Whether two requesters are the same stack's (R167). -/
def State.stackOfReq (s : State) (q : Requester) : Nat :=
  match q with
  | .cmd g _ => stackOf (g / 2) (g % 2)
  | .pilot p _ => stackOf (8 * p) 0
  | .binding lead place b =>
    match s.binding lead place b with
    | some (r, _, x) => let g := x.endOf r.lead; stackOf (g / 2) (g % 2)
    | none => 0

/-- The VD of a requester. -/
def State.vdOfReq (s : State) (q : Requester) : Nat :=
  match q with
  | .cmd g _ => s.endVd g
  | .pilot p _ => (match s.regionAt p with | some r => r.vd | none => 96)
  | .binding lead _ _ => (match s.region lead with | some r => r.vd | none => 96)

/-- The entry of a requester put in place or dropped (R168, R169, R228). -/
def State.setEntry (s : State) (q : Requester) (second : Bool) (e : Option TEntry) : State :=
  match q with
  | .pilot _ _ => s
  | .binding lead place b => s.modBinding lead place b (fun x => { x with te := e })
  | .cmd g i =>
    match (s.edge g).find i with
    | none => s
    | some c =>
      if c.isRequest || c.isEddy then
        s.modEdge g (fun x => { x with entries := match e with
          | some e => tset x.entries (pathKey c.tok) e
          | none => tdel x.entries (pathKey c.tok) })
      else s.modCmd g i (fun c => if second then { c with te2 := e } else { c with te := e })

/-- The stream engine of a requester, by its column end: each tarn column has its own, which has one walk outstanding at most (R14,
R167). -/
def State.streamReq (s : State) (q : Requester) : Option Nat :=
  match q with
  | .cmd g i => (match (s.edge g).find i with | some c => if c.isStream then some g else none | none => none)
  | _ => none

/-- Whether a walk outstanding is that of a requester, or of its stream engine. -/
def State.walking (s : State) (q : Requester) : Bool :=
  s.walks.any (fun w => w.who = q || ((s.streamReq q).isSome && s.streamReq w.who = s.streamReq q))

/-- A walk started: the entry held is discarded, one walk for each generator and stream engine, 64 for each walker (R167, R168). -/
def State.needWalk (s : State) (q : Requester) (second : Bool) (va : Nat) (write : Bool) : State :=
  if s.walking q
      || (s.walks.filter (fun w => s.stackOfReq w.who = s.stackOfReq q)).length ≥ 64 then s
  else
    let t := s.setEntry q second none
    { t with walks := t.walks ++ [{ who := q, second := second, va := va, write := write }] }

/-- A requester parked with a cause and an address; its report follows (R170). -/
def State.park (s : State) (q : Requester) (cause va : Nat) : State :=
  let k : Option Park := some { cause := cause, va := va, reported := false }
  let t := match q with
    | .binding lead place b => s.modBinding lead place b (fun x => { x with park := k })
    | .cmd g i => s.modCmd g i (fun c => { c with park := k })
    | .pilot _ _ => s
  t.soon (.streamFault q) 0 0 0

/-! ### What an address reaches -/

/-- What a granule of an engine's access reaches. -/
inductive Spot where
  /-- A cell. -/
  | cell (a : Nat)
  /-- A cell of a window, with its slot. -/
  | window (slot a : Nat)
  /-- A peer range over a route. -/
  | peer (r o : Nat)
  /-- A page for which a walk must run. -/
  | walk
  /-- A window fault (R433). -/
  | noWindow
  /-- A translation fault: cause, and the table line that failed its check (0 for none). -/
  | fault (cause bad : Nat)
  /-- Outside a tarn, quarter or allocation. -/
  | refuse
  deriving DecidableEq, Repr

/-- What an address of a kind reaches from a column end, with the entry held (R161, R168, R172, R433, R452, R493). -/
def State.spot (s : State) (vd g kind a : Nat) (write send : Bool) (te : Option TEntry) : Spot :=
  match kind with
  | 0 =>
    if a < 2 ^ 52 && (a < peerRange || (peerRange + 2 ^ 44 ≤ a && a < aperture) || (aperture + 2 ^ 40 ≤ a && a < tarnWindow)) then
      match te with
      | some e =>
        if e.hits a && (!write || e.w) then
          (if s.mayReach vd (e.pa + a % 2 ^ e.size) then .cell (e.pa + a % 2 ^ e.size) else .fault 3 0)
        else .walk
      | none => .walk
    else
      match s.place vd a write send [] with
      | .cell c _ => .cell c
      | .tarn c => .cell c
      | .window k c => .window k c
      | .peer r o => .peer r o
      | .noWindow => .noWindow
      | .fault c bad => .fault c bad
  | 1 =>
    match (if a < 2 ^ 21 then s.layerCell vd (g / 2) (g % 2) (a / 2 ^ 18) (a % 2 ^ 18) else none) with
    | some c => .cell c
    | none => .refuse
  | 2 => if a < 2 ^ 24 && s.holdsQuarter vd (resCell g a) then .cell (resCell g a) else .refuse
  | _ => .refuse

/-- What an address reaches when its walk, where one is needed, runs at once. -/
def State.spotNow (s : State) (vd g kind a : Nat) (write : Bool) (te : Option TEntry) : Spot :=
  match s.spot vd g kind a write false te with
  | .walk =>
    match s.walk vd a write with
    | .ok e => .cell (e.pa + a % 2 ^ e.size)
    | .error c => .fault c.1 c.2
  | x => x

/-- The cell of a place that can be read or written as memory. -/
def Spot.cellOf : Spot → Option Nat
  | .cell a => some a
  | .window _ a => some a
  | _ => none

/-! ### The order of commands (R100, R108 to R110, R119, R170, R174, R357) -/

/-- The cell of a request or an eddy command: where its address leads now, or where it has arrived. -/
def State.cmdCell (s : State) (g : Nat) (c : Cmd) : Option Nat :=
  let te := tfind (s.edge g).entries (pathKey c.tok)
  if c.isRequest then (s.spotNow (s.endVd g) g (bits (c.tok.w 7) 7 2) (c.tok.w2 0) false te).cellOf
  else match c.unit with
    | some u => some u.2
    | none => (s.spotNow (s.endVd g) g 0 (c.tok.w2 4) false te).cellOf

/-- Whether two commands' cells meet a test; addresses that lead nowhere now count as one where they are equal. -/
def State.cellsMeet (s : State) (g : Nat) (c d : Cmd) (f : Nat → Nat → Bool) : Bool :=
  match s.cmdCell g c, s.cmdCell g d with
  | some a, some b => f a b
  | none, none => c.tok.w2 (if c.isRequest then 0 else 4) = d.tok.w2 (if d.isRequest then 0 else 4)
  | _, _ => false

/-- Whether two cells are of one location (R100). -/
def oneLocation (a b : Nat) : Bool := unitOf a = unitOf b
/-- Whether two cells are served by one eddy unit (R350). -/
def oneUnit (a b : Nat) : Bool := stackOfCell a = stackOfCell b && a / 64 % 16 = b / 64 % 16

/-- The binding index that a command names. -/
def Cmd.bindIx (c : Cmd) : Nat := bits (c.tok.w 6) 8 5
/-- Whether a command carries `.hand`. -/
def Cmd.hand (c : Cmd) : Bool := c.isStream && bit (c.tok.w 7) 8

/-- The binding that a command names. -/
def Cmd.binding (c : Cmd) (r : Region) : Option BindSt := (r.blockOf c.inc).bind (fun b => b.binds[c.bindIx]?)

/-- Whether a ring has room for one more granule (R163). -/
def BindSt.ringRoom (x : BindSt) : Bool :=
  if x.br.mode = 2 then (32 * x.filled : Nat) - x.rho + 32 ≤ (0x40000 - x.br.base : Nat)
  else 32 * (x.filled - x.removed) < 0x40000 - x.br.base

/-- Whether an earlier command in hand appends to, removes from or hands over on the same binding (R174). -/
def Edge.heldUp (x : Edge) (c : Cmd) : Bool :=
  (x.before c.id).any (fun d => d.isStream && d.bindIx = c.bindIx && d.inc = c.inc && d.ended.isNone
    && (d.hand || d.op = 0x09 || d.op = 0x0B || d.op = 0x0C))

/-- The software-side buffers that earlier commands with `.hand` work on: each waits for one of its own (R173). -/
def Edge.claimed (x : Edge) (c : Cmd) : Nat :=
  ((x.before c.id).filter (fun d => d.hand && d.begun && d.ended.isNone && d.bindIx = c.bindIx && d.inc = c.inc)).length

/-- Whether a stream command waits (R173, R174): for a buffer of its own before its first access, for its turn to hand over or to
append or remove, for room in a ring or for bytes of one. -/
def State.streamWaits (s : State) (r : Region) (g : Nat) (c : Cmd) : Bool :=
  let x := s.edge g
  let n := c.tok.w 4 / 32
  c.ended.isNone && (match c.binding r with
    | none => false
    | some b =>
      if c.hand then !c.begun && b.softs.length ≤ x.claimed c
      else if c.op = 0x09 then b.softs.isEmpty || x.heldUp c
      else if c.op = 0x0B then c.pos < n && (!b.ringRoom || x.heldUp c)
      else if c.op = 0x0C then
        x.heldUp c || (if b.br.target = 1 && b.br.mode = 0 then b.softs.isEmpty
          else c.pos < n && b.filled ≤ b.removed && !(b.endTaken && b.takeq.isEmpty))
      else false)

/-- Whether a command holds back the commands behind it at its edge port (R170, R174): a parked one of an engine, and a stream command
that waits or has not begun holds the stream commands. -/
def State.holdsBack (s : State) (r : Region) (g : Nat) (d c : Cmd) : Bool :=
  (d.park.isSome && !d.isRequest && !d.isEddy && !c.isRequest)
    || (c.isStream && !c.begun && d.isStream && (!d.begun || s.streamWaits r g d))

/-- Whether the commands taken before one let it act: nothing behind a parked command of its path (R229), or behind an atomic with the
order flag, which its edge port holds until all before it has performed and which holds what comes after, on every path of the
column end (R119, R357; DESIGN CHOICE, log 36); nothing of a new block before the old block's stores of its element and of those upstream
(R121); requests
of one path to one location in order, engine commands after its requests (R108 to R110); `.ord` and `EFLUSH` after everything (R174,
R353); eddy commands arrive at one unit in order (R350), and one that has arrived waits for nothing else; an entry of a restored record
waits until it has been re-issued (R389). -/
def State.mayRun (s : State) (r : Region) (g : Nat) (c : Cmd) : Bool :=
  let l := (s.edge g).before c.id
  c.park.isNone && !s.unissued r (r.endSource g, c.stamp) && (c.unit.isSome || (
    l.all (fun d => !(samePath d c && d.park.isSome) && !(d.isEddy && d.ordered) && !s.holdsBack r g d c
        && !(samePath d c && d.isRequest && (!c.isRequest || s.cellsMeet g d c oneLocation))
        && !(c.isEddy && c.unit.isNone && d.isEddy && d.unit.isNone && s.cellsMeet g d c oneUnit))
    && (!(c.ordered || c.op = 0x1B) || l.isEmpty) && !s.wavefront r c))

/-- Whether a command belongs to the column-end logic, which a freeze gates while the engines drain (R400): a request, a transform or a
watch command. -/
def Cmd.columnEnd (c : Cmd) : Bool := c.isRequest || c.op < 8

/-- Whether the column-end logic of a region stands still: its clocks are gated, or a fault has frozen it (R400). -/
def State.endsGated (s : State) (r : Region) : Bool := s.gated r || r.running = .frozen

/-- A command that may act now, with its region: it is in hand, its walk is not outstanding, and its turn has come. -/
def State.cmdReady (s : State) (g i : Nat) : Option (Region × Cmd) :=
  match s.endRegion g, (s.edge g).find i with
  | some r, some c =>
    if s.mayRun r g c && !s.walks.any (fun w => w.who = .cmd g i) && !(c.columnEnd && s.endsGated r) then some (r, c) else none
  | _, _ => none

/-- The entry that a command holds for its source or destination (R169), or its path for a request (R228). -/
def State.entryOf (s : State) (g : Nat) (c : Cmd) (second : Bool) : Option TEntry :=
  if c.isRequest || c.isEddy then tfind (s.edge g).entries (pathKey c.tok) else if second then c.te2 else c.te

/-- What a command's address leads to: a walk, a park (R170, R229), a refusal, or `k` of the place. A window fault refuses
requests and eddy commands, and parks the others with cause 0x01 (R433). -/
def State.reach (s : State) (vd g : Nat) (c : Cmd) (second : Bool) (kind a : Nat) (write send : Bool) (k : Spot → State) :
    State :=
  match s.spot vd g kind a write send (s.entryOf g c second) with
  | .walk => s.needWalk (.cmd g c.id) second a write
  | .fault cause bad => (s.afterWalk bad).park (.cmd g c.id) cause a
  | .noWindow => if c.isRequest || c.isEddy then s.refuseCmd g c else s.park (.cmd g c.id) 1 a
  | .refuse => s.refuseCmd g c
  | x => k x

/-! ### Granules -/

/-- The granule at a cell as a VD sees it: its contents, and whether it is poisoned or uncorrectable. -/
def State.granule (s : State) (c : Nat) : Payload × Bool :=
  (BitVec.ofNat 256 (fromLe (s.view c 32)), s.viewBad c)

/-- A granule stored at a cell. -/
def State.putGranule (s : State) (vd c : Nat) (v : Payload) (poison : Bool) : State := s.write vd c (toLe 32 v.toNat) poison

/-! ### Index lists (R172, R173, R176) -/

/-- Entry `k` of a command's index list: the signed index, and whether its granule is poisoned. -/
def State.listEntry (s : State) (vd g : Nat) (t : Token) (k : Nat) : Int × Bool :=
  match (s.spot vd g 1 (t.w 4 + 4 * k) false false none).cellOf with
  | some a => (signed (fromLe (s.view a 4)) 32, s.viewBad a)
  | none => (0, false)

/-- A command's index list as it stands. -/
def State.listNow (s : State) (vd g : Nat) (t : Token) : List (Int × Bool) := (List.range (t.w 5)).map (s.listEntry vd g t)

/-- An address of a base and an index: none where a tarn or quarter does not hold it. -/
def indexed (kind base : Nat) (e : Int) : Option Nat :=
  let a : Int := base + 32 * e
  match kind with
  | 0 => some (wrap a 64)
  | 1 => if 0 ≤ a && a.toNat / 2 ^ 18 = base / 2 ^ 18 then some a.toNat else none
  | _ => if 0 ≤ a && a.toNat < 2 ^ 24 then some a.toNat else none

/-- The kind and base that the list of a packet indexes: the source of `SGATH`, the destination of `SSCAT`. -/
def Token.listBase (t : Token) : Nat × Nat :=
  if t.opc = 0x0E then (bits (t.w 6) 4 4, t.w2 2) else (bits (t.w 6) 0 4, t.w2 0)

/-- Whether every entry of a list leads into the tarn or quarter of a base (R176). -/
def listOk (kind base : Nat) (l : List (Int × Bool)) : Bool := kind = 0 || l.all (fun e => (indexed kind base e.1).isSome)

/-- Whether a packet is judged by its index list: `SGATH` or `SSCAT` with a base in a tarn or reservoir (R176). -/
def Token.listed (t : Token) : Bool := t.cls = 3 && (t.opc = 0x0E || t.opc = 0x0F) && t.listBase.1 != 0

/-- Whether that judgement is made as the edge port takes the packet: with `.hand` the list is read at the command's turn, once its
binding has a buffer (R173). -/
def Token.listAtPort (t : Token) : Bool := t.listed && !bit (t.w 7) 8

/-- Whether a packet's list cannot be read yet: earlier requests of its path, or with `.ord` any earlier command of its port, have still
to perform (R110, R174). -/
def State.listWaits (s : State) (g : Nat) (t : Token) : Bool :=
  (s.edge g).cmds.any (fun c => bit (t.w 7) 7 || (c.isRequest && pathKey c.tok = pathKey t))

/-- An entry of a command's list: as it was checked, or as it stands where that is legal, whichever (log 36), with the state that has
made the choice. -/
def State.entryAt (s : State) (vd g : Nat) (c : Cmd) (k : Nat) : (Int × Bool) × State :=
  let now := s.listEntry vd g c.tok k
  match c.list.bind (fun l => l[k]?) with
  | none => (now, s)
  | some e =>
    if e = now || (indexed c.tok.listBase.1 c.tok.listBase.2 now.1).isNone then (e, s)
    else (if Config.freeNat s.draws % 2 = 1 then now else e, { s with draws := s.draws + 1 })

/-! ### Tags of column ends (R360, R362) -/

/-- The class-I1 commands that a region's column ends hold (R362): those that have reached their units, and those in hand. -/
def State.endsHeld (s : State) (r : Region) : Nat :=
  let live := s.liveTags r.vd
  s.unretiredEnds r + (r.ends.map (fun g =>
    ((s.edge g).cmds.filter (fun c => c.tag != 0 && !live.contains c.tag)).length)).sum

/-- Whether a region's column ends may take one more class-I1 command: at most 64 are unretired (R362), and the suppression table has room
(R361). -/
def State.endsMayTag (s : State) (r : Region) : Bool := s.endsHeld r < 64 && s.tagRoom r.vd

/-- Whether an address of kind 0 makes a store of class I1: a window aperture or a peer range (R384). -/
def taggedAddr (kind a : Nat) : Bool :=
  kind = 0 && ((aperture ≤ a && a < aperture + 2 ^ 40) || (peerRange ≤ a && a < peerRange + 2 ^ 44))

/-- Whether a packet is of class I1 (R384). -/
def Token.classI1 (t : Token) : Bool :=
  if t.cls = 2 then t.opc = 13 && taggedAddr (bits (t.w 7) 7 2) (t.w2 0)
  else (0x10 ≤ t.opc && t.opc < 0x1B)
    || ((t.opc = 0x0A || t.opc = 0x0D) && bits (t.w 6) 0 4 = 0 && peerRange ≤ t.w2 0 && t.w2 0 < peerRange + 2 ^ 44)

end Sys2Proof.Machine
end

