-- ==== Sys2Proof/Machine/Vector.lean ====
section
/-!
DEFINITION. The vector unit: integer and floating-point arithmetic, compares, conversions, special functions, the
operations across lanes, moves (R247 to R269, spec/09_vector.md).
-/
namespace Sys2Proof.Machine
open Sys2Proof

/-- An exact integer result wrapped to the subword (R43). -/
def wrapped (o : Op) (n : Int) (env : FEnv) : Nat × FEnv := (wrap n (vtWidth o.ty.toNat), env)

/-- An exact integer result saturated to the subword (R43). -/
def saturated (o : Op) (n : Int) (env : FEnv) : Nat × FEnv := satI n (vtWidth o.ty.toNat) (vtSigned o.ty.toNat) env

/-- A binary integer instruction on exact values (R247). -/
def State.intOp (s : State) (o : Op) (lat : Nat) (sat : Bool) (f : Int → Int → Int) : Out :=
  .next (s.vec2 o lat (fun x y env =>
    let n := f (vtInt o.ty.toNat x) (vtInt o.ty.toNat y)
    if sat then saturated o n env else wrapped o n env))

/-! ### Integer arithmetic (R247) -/

/-- `ADD`. -/
def execVecAdd (o : Op) (s : State) : Out := s.intOp o 1 false (fun x y => x + y)
/-- `SUB`. -/
def execVecSub (o : Op) (s : State) : Out := s.intOp o 1 false (fun x y => x - y)
/-- `MUL`. -/
def execVecMul (o : Op) (s : State) : Out := s.intOp o 3 false (fun x y => x * y)
/-- `MULH`: the high half of the exact product. -/
def execVecMulh (o : Op) (s : State) : Out :=
  s.intOp o 3 false (fun x y => x * y / (2 ^ vtWidth o.ty.toNat : Nat))
/-- `MAD`: the destination register is the third source (R81). -/
def execVecMad (o : Op) (s : State) : Out :=
  .next (s.vec3 o 3 (fun x y d env =>
    wrapped o (vtInt o.ty.toNat x * vtInt o.ty.toNat y + vtInt o.ty.toNat d) env))
/-- `ABS`, saturating. -/
def execVecAbs (o : Op) (s : State) : Out :=
  .next (s.vec1 o 1 (fun x env => saturated o ((vtInt o.ty.toNat x).natAbs : Int) env))
/-- `NEG`, saturating. -/
def execVecNeg (o : Op) (s : State) : Out :=
  .next (s.vec1 o 1 (fun x env => saturated o (- vtInt o.ty.toNat x) env))
/-- `MIN`. -/
def execVecMin (o : Op) (s : State) : Out := s.intOp o 1 false (fun x y => min x y)
/-- `MAX`. -/
def execVecMax (o : Op) (s : State) : Out := s.intOp o 1 false (fun x y => max x y)
/-- `AND` of whole lanes. -/
def execVecAnd (o : Op) (s : State) : Out := .next (s.vec2 o 1 (fun x y env => (Nat.land x y, env)))
/-- `OR` of whole lanes. -/
def execVecOr (o : Op) (s : State) : Out := .next (s.vec2 o 1 (fun x y env => (Nat.lor x y, env)))
/-- `XOR` of whole lanes. -/
def execVecXor (o : Op) (s : State) : Out := .next (s.vec2 o 1 (fun x y env => (Nat.xor x y, env)))
/-- `NOT` of the lane. -/
def execVecNot (o : Op) (s : State) : Out := .next (s.vec1 o 1 (fun x env => (2 ^ vtWidth o.ty.toNat - 1 - x, env)))
/-- `SHL`: 0 for counts from the width up. -/
def execVecShl (o : Op) (s : State) : Out :=
  .next (s.vec2 o 1 (fun x c env =>
    (if c < vtWidth o.ty.toNat then x * 2 ^ c % 2 ^ vtWidth o.ty.toNat else 0, env)))
/-- `SHR`: logical; 0 for counts from the width up. -/
def execVecShr (o : Op) (s : State) : Out :=
  .next (s.vec2 o 1 (fun x c env => (if c < vtWidth o.ty.toNat then x / 2 ^ c else 0, env)))
/-- `SRA`: arithmetic; the sign fills for counts from the width up. -/
def execVecSra (o : Op) (s : State) : Out :=
  .next (s.vec2 o 1 (fun x c env =>
    let w := vtWidth o.ty.toNat
    (wrap (signed x w / (2 ^ min c w : Nat)) w, env)))
/-- `ROT` toward the most significant bit. -/
def execVecRot (o : Op) (s : State) : Out :=
  .next (s.vec2 o 1 (fun x c env =>
    let w := vtWidth o.ty.toNat
    let r := c % w
    (x * 2 ^ r % 2 ^ w + x / 2 ^ (w - r), env)))
/-- `CLZ`. -/
def execVecClz (o : Op) (s : State) : Out :=
  .next (s.vec1 o 1 (fun x env => (vtWidth o.ty.toNat - bitLen x, env)))

/-- The one bits among the lowest `n` of a number. -/
def onesBelow (x : Nat) : Nat → Nat
  | 0 => 0
  | n + 1 => x % 2 + onesBelow (x / 2) n

/-- `POPC`. -/
def execVecPopc (o : Op) (s : State) : Out :=
  .next (s.vec1 o 1 (fun x env => (onesBelow x (vtWidth o.ty.toNat), env)))
/-- `ADDS`, saturating. -/
def execVecAdds (o : Op) (s : State) : Out := s.intOp o 1 true (fun x y => x + y)
/-- `SUBS`, saturating. -/
def execVecSubs (o : Op) (s : State) : Out := s.intOp o 1 true (fun x y => x - y)
/-- `AVG`: floor of half the sum plus one. -/
def execVecAvg (o : Op) (s : State) : Out := s.intOp o 1 false (fun x y => (x + y + 1) / 2)

/-! ### Floating-point arithmetic (R248 to R250) -/

/-- `FADD` (R248). -/
def execVecFadd (o : Op) (s : State) : Out :=
  .next (s.vec2 o 4 (fun x y env => faddF (vtFmt o.ty.toNat) x y (RMode.ofCode (o.md.toNat % 8)) env))
/-- `FSUB` (R248): a NaN operand keeps its signalling state. -/
def execVecFsub (o : Op) (s : State) : Out :=
  .next (s.vec2 o 4 (fun x y env =>
    let f := vtFmt o.ty.toNat
    let m := RMode.ofCode (o.md.toNat % 8)
    arith f (addVal (decodeF f x) (decodeF f y).negate m) m env))
/-- `FMUL` (R248). -/
def execVecFmul (o : Op) (s : State) : Out :=
  .next (s.vec2 o 4 (fun x y env => fmulF (vtFmt o.ty.toNat) x y (RMode.ofCode (o.md.toNat % 8)) env))
/-- `FMA` (R248): one rounding; the destination register is the third source (R81). -/
def execVecFma (o : Op) (s : State) : Out :=
  .next (s.vec3 o 4 (fun x y d env =>
    let f := vtFmt o.ty.toNat
    let m := RMode.ofCode (o.md.toNat % 8)
    arith f (fmaVal (decodeF f x) (decodeF f y) (decodeF f d) m) m env))

/-- Whether a value orders below another, with `-0` below `+0` (R249). -/
def belowSigned (a b : Val) : Bool :=
  let c := Val.cmp a b
  c < 0 || (c == 0 && a.neg && !b.neg)

/-- `FMIN` and `FMAX` of two words (R249). -/
def minMax (f : Fmt) (max : Bool) (x y : Nat) (env : FEnv) : Nat × FEnv :=
  let a := decodeF f x
  let b := decodeF f y
  let env := env.raiseIf (a.isSNaN || b.isSNaN) flagINV
  if a.isNaN && b.isNaN then (f.canonicalNaN, env)
  else if a.isNaN then (y, env)
  else if b.isNaN then (x, env)
  else if max then (if belowSigned a b then y else x, env)
  else (if belowSigned b a then y else x, env)

/-- `FMIN` (R249). -/
def execVecFmin (o : Op) (s : State) : Out := .next (s.vec2 o 2 (minMax (vtFmt o.ty.toNat) false))
/-- `FMAX` (R249). -/
def execVecFmax (o : Op) (s : State) : Out := .next (s.vec2 o 2 (minMax (vtFmt o.ty.toNat) true))

/-- The magnitude bits of a word. -/
def magBits (f : Fmt) (x : Nat) : Nat := x % 2 ^ (f.ebits + f.mbits)
/-- The sign of a word. -/
def signOf (f : Fmt) (x : Nat) : Bool := bit x (f.ebits + f.mbits)

/-- A word with its sign replaced, or the canonical NaN for a NaN (R250). -/
def withSign (f : Fmt) (x : Nat) (neg : Bool) : Nat :=
  if (decodeF f x).isNaN then f.canonicalNaN else f.signBit neg + magBits f x

/-- `FABS` (R250). -/
def execVecFabs (o : Op) (s : State) : Out :=
  .next (s.vec1 o 1 (fun x env => (withSign (vtFmt o.ty.toNat) x false, env)))
/-- `FNEG` (R250). -/
def execVecFneg (o : Op) (s : State) : Out :=
  .next (s.vec1 o 1 (fun x env => (withSign (vtFmt o.ty.toNat) x (!signOf (vtFmt o.ty.toNat) x), env)))
/-- `FCPS` (R250). -/
def execVecFcps (o : Op) (s : State) : Out :=
  .next (s.vec2 o 1 (fun x y env => (withSign (vtFmt o.ty.toNat) x (signOf (vtFmt o.ty.toNat) y), env)))

/-! ### Compare, select, classify (R251 to R254) -/

/-- The outcome of an ordering under conditions 0 to 5 (R251). -/
def condHolds (c : Nat) (r : Int) : Bool :=
  match c with
  | 0 => r == 0
  | 1 => r != 0
  | 2 => r < 0
  | 3 => r ≤ 0
  | 4 => r > 0
  | _ => r ≥ 0

/-- A predicate written by a compare (R244, R251): a null operand leaves it unchanged and raises nothing. -/
def State.compare (s : State) (o : Op) (lat : Nat) (f : Nat → Nat → FEnv → Nat × FEnv) : Out :=
  let a := s.opnd o.a.toNat
  let b := s.opnd o.b.toNat
  let p := o.dst.toNat % 8
  let t := (s.dequeue o).reserve lat [.pred p] none
  if a.null || b.null then .next t
  else
    let r := s.compute (fun k => f (lane a.val k).toNat (lane b.val k).toNat) (s.fenv.psn (a.poison || b.poison))
    .next ((t.setFenv r.2).writeP p (fun k => (lane r.1 k).toNat == 1))

/-- `CMP` (R251). -/
def execVecCmp (o : Op) (s : State) : Out :=
  s.compare o 1 (fun x y env =>
    let a := vtInt o.ty.toNat x
    let b := vtInt o.ty.toNat y
    (b2n (condHolds o.md.toNat (if a < b then -1 else if a = b then 0 else 1)), env))

/-- `FCMP` (R252). -/
def execVecFcmp (o : Op) (s : State) : Out :=
  s.compare o 2 (fun x y env =>
    let a := decodeF .f32 x
    let b := decodeF .f32 y
    let c := o.md.toNat
    let nan := a.isNaN || b.isNaN
    let sig := a.isSNaN || b.isSNaN
    let inv := if c = 2 || c = 3 || c = 4 || c = 5 then nan else sig
    let res := if c = 6 then nan else if c = 7 then !nan else if nan then c == 1 else condHolds c (Val.cmp a b)
    (b2n res, env.raiseIf inv flagINV))

/-- `SEL` (R253). -/
def execVecSel (o : Op) (s : State) : Out :=
  let a := s.opnd o.a.toNat
  let b := s.opnd o.b.toNat
  let p := vg s.ctx.p (o.md.toNat / 4) 0
  .next (s.vector o [a, b] [] 1 (fun k env =>
    ((if p.getLsbD k then lane a.val k else lane b.val k).toNat, env)))

/-- The class bit of an FP32 word (R254). -/
def classBit (x : Nat) : Nat :=
  match decodeF .f32 x with
  | .nan true => 0
  | .nan false => 1
  | .inf true => 2
  | .inf false => 9
  | .fin n m _ =>
    if m = 0 then (if n then 5 else 6)
    else if bits x 23 8 = 0 then (if n then 4 else 7)
    else (if n then 3 else 8)

/-- `CLASS` (R254). -/
def execVecClass (o : Op) (s : State) : Out := .next (s.vec1 o 1 (fun x env => (2 ^ classBit x, env)))

/-! ### Conversions (R255 to R259) -/

/-- The kinds of subword that conversions read and write. -/
inductive Conv where
  | int (sgn : Bool) (w : Nat)
  | flt (f : Fmt)
  deriving DecidableEq, Repr

/-- The width of a conversion's subword. -/
def Conv.width : Conv → Nat
  | .int _ w => w
  | .flt f => f.width

/-- One conversion (R55 to R57, R255). -/
def convert (src dst : Conv) (mode : RMode) (ov : Ov) (x : Nat) (env : FEnv) : Nat × FEnv :=
  match src, dst with
  | .int sg w, .int sg' w' =>
    let env := (roundWord mode env).2
    satI (if sg then signed x w else (x : Int)) w' sg' env
  | .int sg w, .flt f => encodeF f (Val.ofInt (if sg then signed x w else (x : Int)) 0) mode ov env
  | .flt f, .int sg w => toInteger (decodeF f x) w sg mode env
  | .flt f, .flt g => encodeF g (decodeF f x) mode ov env

/-- The source kind of a type code (R242). -/
def convSrc (ty : Nat) : Conv :=
  match ty with
  | 0 => .int true 32
  | 1 => .int false 32
  | 2 => .flt .f32
  | 3 => .flt .bf16
  | 4 => .flt .f16
  | 5 => .int true 16
  | 6 => .int true 8
  | _ => .int false 8

/-- The destination of `CVT` (R256): none where the pair is unassigned. -/
def cvtDst (ty sel : Nat) : Option Conv :=
  match ty, sel with
  | 0, 0 => some (.flt .f32)
  | 0, _ => some (.int false 32)
  | 1, 0 => some (.flt .f32)
  | 1, _ => some (.int true 32)
  | 2, 0 => some (.int true 32)
  | 2, _ => some (.int false 32)
  | 3, 0 => some (.flt .f16)
  | 3, _ => some (.int true 16)
  | 4, 0 => some (.flt .bf16)
  | 4, _ => some (.int true 16)
  | 5, 0 => some (.flt .bf16)
  | 5, _ => some (.flt .f16)
  | 6, 0 => some (.int false 8)
  | 7, 0 => some (.int true 8)
  | _, _ => none

/-- The destination of `PACK` (R257). -/
def packDst (ty sel : Nat) : Option Conv :=
  match ty, sel with
  | 0, 0 => some (.int true 16)
  | 0, _ => some (.int false 16)
  | 1, 0 => some (.int false 16)
  | 1, _ => some (.int true 16)
  | 2, 0 => some (.flt .bf16)
  | 2, _ => some (.flt .f16)
  | 3, 0 => some (.flt .e4m3)
  | 3, _ => some (.flt .e5m2)
  | 4, 0 => some (.flt .e4m3)
  | 4, _ => some (.flt .e5m2)
  | 5, 0 => some (.int true 8)
  | 5, _ => some (.int false 8)
  | _, _ => none

/-- Source and destination of `UNPACK` (R258). -/
def unpackPair (ty sel : Nat) : Option (Conv × Conv) :=
  match ty, sel with
  | 3, 0 => some (.flt .bf16, .flt .f32)
  | 4, 0 => some (.flt .f16, .flt .f32)
  | 5, 0 => some (.int true 16, .int true 32)
  | 5, _ => some (.int true 16, .flt .f32)
  | 6, 0 => some (.int true 8, .int true 16)
  | 6, _ => some (.int true 8, .flt .bf16)
  | 7, 0 => some (.flt .e4m3, .flt .bf16)
  | 7, _ => some (.flt .e5m2, .flt .bf16)
  | _, _ => none

/-- The overflow rule that the `.ovf` bit selects (R255). -/
def ovOf (o : Op) : Ov := if bit o.md.toNat 3 then .ovf else .sat

/-- The destination selector, modifier [6] (R81). -/
def dstSel (o : Op) : Nat := o.md.toNat / 16

/-- `CVT` (R256). -/
def execVecCvt (o : Op) (s : State) : Out :=
  let d := (cvtDst o.ty.toNat (dstSel o)).getD (convSrc o.ty.toNat)
  .next (s.vec1 o 3 (convert (convSrc o.ty.toNat) d (RMode.ofCode (o.md.toNat % 8)) (ovOf o)))

/-- `CVTSR` (R259): the random bits come from lane `k` of b. -/
def execVecCvtsr (o : Op) (s : State) : Out :=
  let a := s.opnd o.a.toNat
  let b := s.opnd o.b.toNat
  let f : Fmt := if dstSel o = 0 then .bf16 else .f16
  .next (s.vector o [a, b] [] 3 (fun k env =>
    encodeF f (decodeF .f32 (lane a.val k).toNat) (.given ((lane b.val k).toNat / 256)) (ovOf o) env))

/-- `PACK` (R257): the subwords of a, then those of b. -/
def execVecPack (o : Op) (s : State) : Out :=
  let a := s.opnd o.a.toNat
  let b := s.opnd o.b.toNat
  let src := convSrc o.ty.toNat
  let d := (packDst o.ty.toNat (dstSel o)).getD (.int true 16)
  let n := 32 / src.width
  .next (s.vector o [a, b] [] 3 (fun k => subsGo d.width (fun j =>
    let x := if j < n then sub (lane a.val k) j src.width else sub (lane b.val k) (j - n) src.width
    convert src d (RMode.ofCode (o.md.toNat % 8)) (ovOf o) x) 0 (2 * n)))

/-- `UNPACK` (R258): exact widening of one half of the subwords. -/
def execVecUnpack (o : Op) (s : State) : Out :=
  let a := s.opnd o.a.toNat
  let p := (unpackPair o.ty.toNat (dstSel o)).getD (.int true 16, .int true 32)
  let n := 32 / p.2.width
  .next (s.vector o [a] [] 3 (fun k => subsGo p.2.width (fun j =>
    convert p.1 p.2 .rne .ieee (sub (lane a.val k) (n * (o.md.toNat % 2) + j) p.1.width)) 0 n))

/-! ### Special functions (R260, R261) -/

/-- A special function of the lanes of a. -/
def State.special (s : State) (o : Op) (lat : Nat) (f : Word → Nat → FEnv → Nat × FEnv) : Out :=
  .next (s.vec1 o lat (fun x env => f (BitVec.ofNat 32 x) (o.md.toNat % 8) env))

/-- `EXP2`. -/
def execVecExp2 (o : Op) (s : State) : Out := s.special o 8 exp2F
/-- `LOG2`. -/
def execVecLog2 (o : Op) (s : State) : Out := s.special o 8 log2F
/-- `RCP`. -/
def execVecRcp (o : Op) (s : State) : Out := s.special o 8 rcpF
/-- `RSQ`. -/
def execVecRsq (o : Op) (s : State) : Out := s.special o 8 rsqF
/-- `SQRT`: correctly rounded in its mode. -/
def execVecSqrt (o : Op) (s : State) : Out :=
  s.special o 12 (fun x m env => sqrtF (decodeF .f32 x.toNat) (RMode.ofCode m) env)
/-- `SINPI`. -/
def execVecSinpi (o : Op) (s : State) : Out := s.special o 12 (sinCosF .sinpi)
/-- `COSPI`. -/
def execVecCospi (o : Op) (s : State) : Out := s.special o 12 (sinCosF .cospi)

/-! ### Across the lanes (R262 to R264, R66) -/

/-- `LBCAST` (R262). -/
def execVecLbcast (o : Op) (s : State) : Out :=
  let a := s.opnd o.a.toNat
  .next (s.vector o [a] [] 2 (fun _ env => ((lane a.val (o.md.toNat % 8)).toNat, env)))

/-- `LROT` (R262). -/
def execVecLrot (o : Op) (s : State) : Out :=
  let a := s.opnd o.a.toNat
  .next (s.vector o [a] [] 2 (fun k env => ((lane a.val ((k + o.md.toNat) % 8)).toNat, env)))

/-- The operation of `LRED` and `LSCAN` (R263): 0 add, 1 min, 2 max. -/
def reduceOp (ty op : Nat) (mode : RMode) (x y : Nat) (env : FEnv) : Nat × FEnv :=
  if ty = 2 then
    match op with
    | 0 => faddF .f32 x y mode env
    | 1 => minMax .f32 false x y env
    | _ => minMax .f32 true x y env
  else
    let a := vtInt ty x
    let b := vtInt ty y
    match op with
    | 0 => (wrap (a + b) 32, env)
    | 1 => (if a ≤ b then x else y, env)
    | _ => (if a ≤ b then y else x, env)

/-- The identity of the operation (R263). -/
def reduceId (ty op : Nat) : Nat :=
  match op with
  | 0 => if ty = 2 then 0x80000000 else 0
  | 1 => if ty = 2 then 0x7F800000 else if ty = 0 then 0x7FFFFFFF else 0xFFFFFFFF
  | _ => if ty = 2 then 0xFF800000 else if ty = 0 then 0x80000000 else 0

/-- `tree8` (R66): three levels of pairs, each operation in turn. -/
def tree8 (f : Nat → Nat → FEnv → Nat × FEnv) (v : Nat → Nat) (env : FEnv) : Nat × FEnv :=
  let a := f (v 0) (v 1) env
  let b := f (v 2) (v 3) a.2
  let c := f a.1 b.1 b.2
  let d := f (v 4) (v 5) c.2
  let e := f (v 6) (v 7) d.2
  let g := f d.1 e.1 e.2
  f c.1 g.1 g.2

/-- The lanes of a reduction, with the identity where a lane does not execute (R263). -/
def State.reduceLane (s : State) (o : Op) (v : Payload) (k : Nat) : Nat :=
  if s.runs k then (lane v k).toNat else reduceId o.ty.toNat (o.md.toNat / 8)

/-- The latency of a reduction (R245). -/
def reduceLat (o : Op) (flt : Nat) : Nat := if o.ty = 2 then flt else 4

/-- A result computed once per firing and given to every executing lane (R263). -/
def State.once (s : State) (o : Op) (src : List Src) (lat : Nat) (f : FEnv → Payload × FEnv) : State :=
  let null := src.any (fun x => x.null)
  let poison := src.any (fun x => x.poison)
  let t := s.dequeue o
  if null then t.deliver o.dst.toNat 0 true false 0 lat
  else
    let r := f (s.fenv.psn poison)
    (t.setFenv r.2).deliver o.dst.toNat r.1 false poison 0 lat

/-- `LRED` (R263). -/
def execVecLred (o : Op) (s : State) : Out :=
  let a := s.opnd o.a.toNat
  .next (s.once o [a] (reduceLat o 10) (fun env =>
    let r := tree8 (reduceOp o.ty.toNat (o.md.toNat / 8) (RMode.ofCode (o.md.toNat % 8))) (s.reduceLane o a.val) env
    (ofLanes (fun _ => BitVec.ofNat 32 r.1), r.2)))

/-- The running values of a scan from lane `k` on. -/
def scanGo (f : Nat → Nat → FEnv → Nat × FEnv) (v : Nat → Nat) (k acc : Nat) : Nat → FEnv → List Word × FEnv
  | 0, env => ([], env)
  | n + 1, env =>
    let r := if k = 0 then (v 0, env) else f acc (v k) env
    let t := scanGo f v (k + 1) r.1 n r.2
    (BitVec.ofNat 32 r.1 :: t.1, t.2)

/-- The value with which a scan begins: a NaN of lane 0 becomes the canonical one (R45, R263). -/
def scanFirst (ty x : Nat) : Nat := if ty = 2 && (decodeF .f32 x).isNaN then Fmt.f32.canonicalNaN else x

/-- `LSCAN` (R45, R263): a signalling NaN in lane 0 sets INV, as in every other lane. -/
def execVecLscan (o : Op) (s : State) : Out :=
  let a := s.opnd o.a.toNat
  .next (s.once o [a] (reduceLat o 16) (fun env =>
    let v := s.reduceLane o a.val
    let env := env.raiseIf (o.ty = 2 && (decodeF .f32 (v 0)).isSNaN) flagINV
    let r := scanGo (reduceOp o.ty.toNat (o.md.toNat / 8) (RMode.ofCode (o.md.toNat % 8)))
      (fun k => if k = 0 then scanFirst o.ty.toNat (v 0) else v k) 0 0 8 env
    (ofWords r.1, r.2)))

/-- `LIDX` (R264). -/
def execVecLidx (o : Op) (s : State) : Out :=
  let c := s.conf
  .next (s.vector o [] [] 1 (fun k env =>
    (match o.md.toNat % 4 with
      | 0 => k
      | 1 => c.oy * c.width + c.ox
      | 2 => c.ox
      | _ => c.oy, env)))

/-! ### Moves, constants and context registers (R265 to R269) -/

/-- `MOV`, variant 0 (R265). -/
def execVecMov (o : Op) (s : State) : Out :=
  let a := s.opnd o.a.toNat
  .next (s.vector o [a] [] 1 (fun k env => ((lane a.val k).toNat, env)))

/-- `MOV.rdflags`: operand a is only a trigger (R265). -/
def execVecMovRdflags (o : Op) (s : State) : Out :=
  .next (s.vector o [] [s.opnd o.a.toNat] 1 (fun _ env => (env.aflags.toNat, env)))

/-- `MOV.rcflags`: reads the flags, then clears them; a null trigger clears nothing (R265). -/
def execVecMovRcflags (o : Op) (s : State) : Out :=
  let a := s.opnd o.a.toNat
  let t := s.vector o [] [a] 1 (fun _ env => (env.aflags.toNat, env))
  .next (if a.null then t else t.modCtx (fun c => { c with aflags := 0 }))

/-- `MOV.wrflags` (R265): the flags are replaced; the PSN of a poisoned operand (R207) stands after the write
(DEDUCED, log 14). -/
def execVecMovWrflags (o : Op) (s : State) : Out :=
  let a := s.opnd o.a.toNat
  let t := s.dequeue o
  .next (if a.null then t
    else t.modCtx (fun c => { c with aflags := (lane a.val 0) &&& flagMask ||| (if a.poison then 0x80 else 0) }))

/-- `MOV.rdseed` (R265). -/
def execVecMovRdseed (o : Op) (s : State) : Out :=
  .next (s.vector o [] [s.opnd o.a.toNat] 1 (fun _ env => (env.srstate.toNat, env)))

/-- `MOV.wrseed` (R265). -/
def execVecMovWrseed (o : Op) (s : State) : Out :=
  let a := s.opnd o.a.toNat
  let t := s.dequeue o
  .next (if a.null then t
    else t.modCtx (fun c =>
      { c with sr := if lane a.val 0 = 0 then 0x9E3779B9 else lane a.val 0,
               aflags := c.aflags ||| (if a.poison then 0x80 else 0) }))

/-- `MOVI` (R266). -/
def execVecMovi (o : Op) (s : State) : Out :=
  .next (s.vector o [] [] 1 (fun _ env => (wrap o.simm 32, env)))

/-- `LDC` (R267). -/
def execVecLdc (o : Op) (s : State) : Out :=
  .next (s.vector o [] [] 1 (fun k env => ((vg s.conf.consts (o.a.toNat - 16 + k) 0).toNat, env)))

/-- `FSCALE` (R268). -/
def execVecFscale (o : Op) (s : State) : Out :=
  let a := s.opnd o.a.toNat
  let b := s.opnd o.b.toNat
  .next (s.vector o [a, b] [] 4 (fun k env =>
    encodeF .f32 ((decodeF .f32 (lane a.val k).toNat).scale (clampExp (lane b.val k).toInt (-300) 300))
      (RMode.ofCode (o.md.toNat % 8)) .ieee env))

/-- `FREXP.m` and `FREXP.e` of a word (R269). -/
def frexp (e : Bool) (x : Nat) (env : FEnv) : Nat × FEnv :=
  match decodeF .f32 x with
  | .nan sg => (if e then 0x7FFFFFFF else Fmt.f32.canonicalNaN, env.raiseIf sg flagINV)
  | .inf _ => (if e then 0x7FFFFFFF else x, env)
  | .fin n m d =>
    if m = 0 then (if e then 0x80000000 else x, env)
    else
      let q := floorLog2 m d
      if e then (wrap q 32, env) else encodeF .f32 (.fin n m (d - q)) .rne .ieee env

/-- `FREXP` (R269). -/
def execVecFrexp (o : Op) (s : State) : Out := .next (s.vec1 o 3 (frexp (o.md.toNat % 2 == 1)))

end Sys2Proof.Machine
end

