-- ==== Sys2Proof/Machine/Edge.lean ====
section
/-!
DEFINITION. The edge units: claiming outbound tokens, sending inbound ones, `LDE` and `STE` requests, transforms, scaling,
norm watches (R27, R33, R120, R165, R175, R177, R228, R229, R271 to R284, R333, R339, R391, R395; spec/10_edge.md).
-/
namespace Sys2Proof.Machine
open Sys2Proof

/-! ### Byte ranges of a command -/

/-- The pieces of a byte range, one for each 32-byte granule that it meets. -/
def pieces (a n : Nat) : List (Nat × Nat) :=
  (List.range ((a % 32 + n + 31) / 32)).map (fun i =>
    let lo := max a (a / 32 * 32 + 32 * i)
    let hi := min (a + n) (a / 32 * 32 + 32 * i + 32)
    (lo, hi - lo))

/-- The cells of the pieces of a range, or the fault met first: cause (0 for a refusal), table line that failed, address. -/
def State.cellsOf (s : State) (vd g kind : Nat) (write : Bool) (te : Option TEntry) :
    List (Nat × Nat) → Except (Nat × Nat × Nat) (List (Nat × Nat))
  | [] => .ok []
  | (a, n) :: l =>
    match s.spotNow vd g kind a write te with
    | .fault c bad => .error (c, bad, a)
    | .refuse => .error (0, 0, a)
    | x =>
      match x.cellOf with
      | none => .error (1, 0, a)
      | some c =>
        match s.cellsOf vd g kind write te l with
        | .ok r => .ok ((c, n) :: r)
        | .error e => .error e

/-- A command meets a fault within a range: refused, or parked (R170, R276). -/
def State.stopCmd (s : State) (g : Nat) (c : Cmd) (e : Nat × Nat × Nat) : State :=
  if e.1 = 0 then s.refuseCmd g c else (s.afterWalk e.2.1).park (.cmd g c.id) e.1 e.2.2

/-- The bytes of a range at a command's source, and whether a granule of it is poisoned, given to `k`. -/
def State.readVia (s : State) (vd g : Nat) (c : Cmd) (second : Bool) (kind a n : Nat) (k : List Byte → Bool → State → State) :
    State :=
  if n = 0 then k [] false s
  else
    s.reach vd g c second kind a false false (fun _ =>
      match s.cellsOf vd g kind false (s.entryOf g c second) (pieces a n) with
      | .ok l => k (l.flatMap (fun x => s.view x.1 x.2)) (l.any (fun x => s.viewBad x.1))
          (l.foldl (fun t x => t.afterRead x.1) s)
      | .error e => s.stopCmd g c e)

/-- Bytes stored at a command's destination, piece by piece, then `k`: `i` numbers the pieces of what the command writes now. A piece
that was written before a walk or a park is passed over; one that fails translation parks the command there, with those before it
performed (R170, R379). -/
def State.writePieces (s : State) (vd g : Nat) (c : Cmd) (second : Bool) (kind : Nat) (poison : Bool) :
    List (Nat × Nat) → List Byte → Nat → (State → State) → State
  | [], _, _, k => k s
  | (a, n) :: l, b, i, k =>
    if i < c.part then State.writePieces s vd g c second kind poison l (b.drop n) (i + 1) k
    else
      s.reach vd g c second kind a true false (fun p =>
        match p.cellOf with
        | none => s.refuseCmd g c
        | some x =>
          State.writePieces ((s.write vd x (b.take n) poison).modCmd g c.id (fun y => { y with part := i + 1 }))
            vd g c second kind poison l (b.drop n) (i + 1) k)

/-- Bytes stored at a command's destination, then `k`; `from0` is the number of its first piece. -/
def State.writeVia (s : State) (vd g : Nat) (c : Cmd) (second : Bool) (kind a : Nat) (l : List Byte) (poison : Bool) (from0 : Nat)
    (k : State → State) : State :=
  s.writePieces vd g c second kind poison (pieces a l.length) l from0 k

/-! ### Norm watches (R282) -/

/-- The arithmetic environment of an edge unit (R277). -/
def Edge.env (x : Edge) : FEnv := { aflags := x.eflags, srstate := 0 }

/-- The sum of the squares of a token's lanes, rounded at each step. -/
def squares (p : Payload) (env : FEnv) : Nat × FEnv :=
  let v : List (Nat × FEnv) := (List.range 8).map (fun k =>
    fmulF .f32 (lane p k).toNat (lane p k).toNat .rne env)
  let env := v.foldl (fun e x => { e with aflags := e.aflags ||| x.2.aflags }) env
  tree8 (fun a b e => faddF .f32 a b .rne e) (fun k => (lget v k (0, env)).1) env

/-- Whether an FP32 word is a NaN or an infinity. -/
def notFinite (w : Nat) : Bool := (decodeF .f32 w).isNaN || (decodeF .f32 w).isInf

/-- One token seen by a watch. -/
def Watch.see (w : Watch) (t : Token) (env : FEnv) : Watch × FEnv :=
  if t.kind != 0 then (w, env)
  else if t.poison then ({ w with skipped := w.skipped + 1 }, env)
  else
    let q := squares t.payload env
    let r := faddF .f32 w.s.toNat q.1 .rne q.2
    ({ w with s := BitVec.ofNat 32 r.1, sawNonFinite := w.sawNonFinite || notFinite r.1 }, r.2)

/-- A token that crosses a column end, seen by the watches of its direction and tag; a round mark ends a round of those
of its direction, by NORM_WATCH_ROUND. -/
def State.watchToken (s : State) (g : Nat) (outward : Bool) (t : Token) : State :=
  let x := s.edge g
  let mine : Watch → Bool := fun w => w.armed && w.outward = outward
  if t.isMark then
    if t.mark = 0 && x.watches.toList.any mine then
      (s.modEdge g (fun x => { x with crossings := x.crossings ++ [(b2n outward, t.round)] })).soon .normWatchRound g 0 0
    else s
  else
    (List.range 4).foldl (fun s k =>
      s.modEdge g (fun x =>
        let w := vg x.watches k Watch.zero
        if mine w && w.tag = t.tag.toNat then
          let r := w.see t x.env
          { x with watches := vs x.watches k r.1, eflags := r.2.aflags }
        else x)) s

/-- Whether a non-finite sum has been seen, and whether a poisoned token has been skipped (R283). -/
def Watch.flags (w : Watch) : BitVec 2 := BitVec.ofNat 2 (b2n w.sawNonFinite + 2 * b2n (0 < w.skipped))

/-- A round of a watch ended: whether it trips, and the watch after it (R282). -/
def Watch.endRound (w : Watch) (round : BitVec 8) (env : FEnv) : Bool × Watch × FEnv :=
  let sv := decodeF .f32 w.s.toNat
  let av := decodeF .f32 w.a.toNat
  let next := fun (w : Watch) => { w with last := w.s, s := 0, rounds := w.rounds + 1, seen := w.flags }
  if w.rounds = 0 then (false, next { w with a := w.s }, env)
  else
    let rv := decodeF .f32 w.ratio.toNat
    let bad := notFinite w.s.toNat
    let trip := bad || (av.isZero && !sv.isZero)
      || (!av.isNaN && !av.isZero && !av.neg
          && (sv.cmp (mulVal av rv).1 > 0 || (mulVal sv rv).1.cmp av < 0))
    let w1 := if trip then { w with trips := w.trips + 1, lasttrip := round } else w
    if bad then (trip, next w1, env)
    else
      let d := addVal sv av.negate .rne
      let r := arith .f32 (addVal av (d.1.scale (-(w.k : Int))) .rne) .rne env
      (trip, next { w1 with a := BitVec.ofNat 32 r.1 }, r.2)

/-- NORM_WATCH_ROUND at edge unit `x` (R282): the oldest round mark that crossed it ends a round of each watch armed in its
direction. A trip raises its event. -/
def execNormWatchRound (s : State) : Out :=
  let g := s.cur.x
  match (s.edge g).crossings with
  | [] => .next s
  | (dir, round) :: rest =>
    let s := s.modEdge g (fun x => { x with crossings := rest })
    .next ((List.range 4).foldl (fun s k =>
      let x := s.edge g
      let w := vg x.watches k Watch.zero
      if w.armed && b2n w.outward = dir then
        let r := w.endRound round x.env
        let t := s.modEdge g (fun x => { x with watches := vs x.watches k r.2.1, eflags := r.2.2.aflags })
        if r.1 then t.raise (0x40 + pilotOfCol (g / 2)) 0x0014 (s.endVd g)
            [BitVec.ofNat 64 g, BitVec.ofNat 64 k, w.s.zeroExtend 64, w.a.zeroExtend 64, round.zeroExtend 64]
        else t
      else s) s)

/-! ### Claiming a token (R272) -/

/-- A place in the order of responses. -/
def State.addRsp (s : State) (g id : Nat) (t : Option Token) : State :=
  s.modEdge g (fun x => { x with rsps := x.rsps ++ [{ id := id, tok := t, tag := 0, orig := none }] })

/-- A mark that crosses to the store bindings of its column end and is forwarded inbound after the responses of every
command taken before it (R165, R177, R272). A swap mark goes on naming the element that sent it (R121). -/
def State.claimMark (s : State) (g : Nat) (t : Token) : State :=
  let s := s.watchToken g true t
  let s := match s.endBlock g with
    | some (r, b) => s.modRegion r.lead (fun q => q.modBlock b.inc (fun k => { k with binds := k.binds.map (fun (x : BindSt) =>
        if x.br.dir = 1 && x.endOf r.lead = g then
          { x with endTaken := x.endTaken || t.mark = 1, swapped := x.swapped || t.mark = 3 } else x) }))
    | none => s
  s.addRsp g 0 (some { t with src := if t.mark = 3 then t.src else 0 })

/-- Whether a column end has nothing outstanding, so that a swap mark may pass it (R120). -/
def State.endQuiet (s : State) (g : Nat) : Bool :=
  let x := s.edge g
  x.cmds.isEmpty && x.opens.isEmpty && x.xouts.isEmpty && x.springs.isEmpty && x.xhand.isEmpty
    && x.rsps.all (fun p => p.tok.isSome)
    && (match s.endBlock g with
        | some (r, b) => (b.bindsAt r.lead g).all (fun y => y.br.dir = 0 || (y.takeq.isEmpty && y.unperformed = 0))
        | none => true)

/-- A mark claimed (R165, R177, R272, R284, R395): none where it is held. -/
def State.claimMarks (s : State) (g : Nat) (t : Token) : Option State :=
  match t.mark with
  | 2 => some (s.modEdge g (fun x => { x with outClosed := true }))
  | 3 => if s.endQuiet g then some ((s.claimMark g t).modEdge g (fun x => { x with swapCrossed := true })) else none
  | _ => some (s.claimMark g t)

/-- A granule on its way through the private 8 KiB ring of a direct binding's generator (R163): iteration `n` in the ring's place `n` mod
256 (log 36). -/
def State.ringPut (s : State) (vd g : Nat) (x : BindSt) (n : Nat) (v : Payload) (poison : Bool) : State :=
  if x.br.target = 1 then s
  else match s.layerCell vd (g / 2) (g % 2) x.br.depth (0x38000 + 0x2000 * x.br.gen + 32 * (n % 256)) with
    | some a => s.storeUnit a (toLe 32 v.toNat) poison
    | none => s

/-- A token claimed by a store binding (R163, R165): after the last iteration it is discarded and the region freezes. A data or null token
that follows an end mark taken before the last iteration is treated as one after the last iteration (DESIGN CHOICE, log 36: R165 does not
say). -/
def State.claimStore (s : State) (g : Nat) (r : Region) (b : Block) (k : Nat) (x : BindSt) (t : Token) : Option State :=
  if x.it ≥ b.img.iterations || x.endTaken then
    some (s.fault r.lead { cause := 5, elem := none, ctx := 0, slot := 0, bank := 0, detail := BitVec.ofNat 64 k })
  else if x.takeq.isEmpty && x.park.isNone && x.unperformed = 0 then
    let s := if t.kind = 0 then s.ringPut r.vd g x x.it t.payload t.poison else s
    some ((s.watchToken g true t).modRegion r.lead (fun q => q.modBlock b.inc (fun z =>
      { z with binds := lmod z.binds k (fun (y : BindSt) => { y with takeq := [t] }) })))
  else none

/-- The store binding of a column end with a generator. -/
def Block.storeAt (b : Block) (lead g gen : Nat) : Option (Nat × BindSt) :=
  ((List.range b.binds.length).filterMap (fun k => (b.binds[k]?).map (fun x => (k, x)))).find?
    (fun y => y.2.br.dir = 1 && y.2.br.gen = gen && y.2.endOf lead = g)

/-- The opcode by which a command is known: 64 `LDE`, 65 `STE`. -/
def Token.cmdOp (t : Token) : Nat := if t.cls = 2 then 64 + (t.opc - 12) else t.opc

/-- The tokens that an outbound transform takes (R279). -/
def Cmd.tokens (c : Cmd) : Nat := if c.op = 1 then 4 * c.tok.w 4 else (c.tok.w 4 + 7) / 8

/-- The outbound transform that is open on a tag: one that has not taken its last token (R272, R279). -/
def Edge.openOn (x : Edge) (tag : Nat) : Option XOut :=
  x.opens.find? (fun o => o.tag = tag && (match x.find o.id with | some c => o.taken < c.tokens | none => false))

/-- Whether a column end has room for a packet that is none of these: inbound transforms (four), an outbound tag in use,
stream commands (16), spring commands (eight for a decoder) (R174, R278, R279, R374). -/
def State.roomFor (s : State) (g : Nat) (t : Token) : Bool :=
  let x := s.edge g
  let n := t.cmdOp
  let dtag := bits (t.w 6) 8 2
  if n = 0 || n = 6 then (x.cmds.filter (fun c => c.op = 0 || c.op = 6)).length < 4
  else if n = 1 || n = 7 then (x.openOn dtag).isNone
      && !x.cmds.any (fun c => (c.op = 1 || c.op = 7) && !c.begun && bits (c.tok.w 6) 8 2 = dtag)
  else if 0x08 ≤ n && n < 0x10 then (x.cmds.filter Cmd.isStream).length < 16
  else if n = 0x1C || n = 0x1D then
    ((List.range 4).map (fun q =>
      ((s.edge (2 * (g / 128 * 64 + g / 2 % 16 + 16 * q) + g % 2)).cmds.filter Cmd.isSpring).length)).sum < 8
  else true

/-- The command made of a packet. -/
def mkCmd (id tag lead inc : Nat) (t : Token) (data : Option Token) : Cmd :=
  { id := id, op := t.cmdOp, tok := t, data := data, begun := false, te := none, te2 := none, park := none, pos := 0,
    written := 0, poisoned := 0, firstPoison := none, off := 0, failed := none, ended := none, seen := [], region := lead, inc := inc,
    tag := tag }

/-- A clean packet taken (R33, R229, R272): it takes its place in the order of commands and responses and, in class I1, its
tag. An outbound transform opens at once. None where ready is withheld. -/
def State.takePacket (s : State) (g : Nat) (r : Region) (t : Token) (data : Option Token) : Option State :=
  let inc := (s.edge g).endInc
  if !(s.roomFor g t) || (t.classI1 && !s.endsMayTag r) then none
  else
    let p := if t.classI1 then s.nextTag r inc (r.endSource g) t.lsid else (0, s)
    let i := s.cmdNo
    let u := { p.2 with cmdNo := i + 1 }
    let u := u.modEdge g (fun x => { x with
      cmds := x.cmds ++ [{ mkCmd i p.1 r.lead inc t data with stamp := x.stamp }], stamp := x.stamp + 1 })
    let u := if t.returns then u.addRsp g i none else u
    some (if t.cmdOp = 1 then u.soon .xjoin g i 0 else if t.cmdOp = 7 then u.soon .cvtout g i 0 else u)

/-- Whether an eddy packet's target leads to a cell of no eddy unit, which the edge port finds as it translates: host memory (R117,
R239, R355). -/
def State.hostTarget (s : State) (vd g : Nat) (t : Token) : Bool :=
  t.cls = 3 && 0x10 ≤ t.opc && t.opc < 0x1B
    && (match (s.spotNow vd g 0 (t.w2 4) true (tfind (s.edge g).entries (pathKey t))).cellOf with
        | some x => !(isHbm x || isRes x)
        | none => false)

/-- A packet with its second token, if it has one, at the command path (R85, R177, R229, R276, R354, R379). A refusal that its index list
or its target brings is found here too (R176, R239). -/
def State.claimPacket (s : State) (g : Nat) (t : Token) (data : Option Token) : Option State :=
  match s.endBlock g with
  | none => some s
  | some (r, b) =>
    let m := b.img
    if t.cls = 3 && t.opc > 0x1D then some ((s.refuseTok g t).requestDone t.src)
    else if t.kind = 1 then
      let u := if t.returns then ({ s with draws := s.draws + 1 }.addRsp g 0 (some (t.nullAnswer (Config.freeKey s.draws)))) else s
      some (u.requestDone t.src)
    else if t.poison then
      some ((if t.returns then s.addRsp g 0 (some t.poisonAnswer) else s).requestDone t.src)
    else if !(if t.cls = 2 then s.requestOk r.vd g t else s.engineOk r.vd r.lead g m t) || s.hostTarget r.vd g t then
      some ((s.refuseTok g t).requestDone t.src)
    else if t.listAtPort then
      if s.listWaits g t then none
      else if listOk t.listBase.1 t.listBase.2 (s.listNow r.vd g t) then
        (s.takePacket g r t data).map (fun u => u.modCmd g s.cmdNo (fun c => { c with list := some (s.listNow r.vd g t) }))
      else some ((s.refuseTok g t).requestDone t.src)
    else s.takePacket g r t data

/-- A token at the command path: the second token of an `STE` follows its first (R228). -/
def State.claimCommand (s : State) (g : Nat) (t : Token) : Option State :=
  match (s.edge g).halfSte with
  | some f => (s.claimPacket g f (some t)).map (fun u => u.modEdge g (fun x => { x with halfSte := none }))
  | none =>
    if t.cls = 2 && t.opc = 13 then some (s.modEdge g (fun x => { x with halfSte := some t }))
    else if t.cls = 3 || (t.cls = 2 && t.opc = 12) then s.claimPacket g t none
    else some ((s.refuseTok g t).requestDone t.src)

/-- A data or null token that no binding claims (R272): tag 0 to the command path, another tag to the transform open on it;
any other is discarded with a fault at the end router. -/
def State.claimFree (s : State) (g : Nat) (t : Token) : Option State :=
  let s := s.watchToken g true t
  if t.tag = 0 then s.claimCommand g t
  else if ((s.edge g).openOn t.tag.toNat).isSome then
    if (s.edge g).xhand.isEmpty then
      some ((s.modEdge g (fun x => { x with xhand := [t] })).soon .transformTokenTaken g 0 0)
    else none
  else some (s.refuseTok g { t with src := 0 })

/-- Whether the reckoning record of a column end's region is full (R385): its edge ports then withhold ready. -/
def State.recordFull (s : State) (g : Nat) : Bool :=
  match s.endRegion g with
  | some r => s.recorded r ≥ 1024
  | none => false

/-- The claimant of an outbound token (R272): none where ready is withheld. -/
def State.claim (s : State) (g : Nat) (t : Token) : Option State :=
  if (s.edge g).outClosed || s.recordFull g then none
  else if (s.edge g).halfSte.isSome then (s.watchToken g true t).claimCommand g t
  else if t.isMark then s.claimMarks g t
  else
    match s.endBlock g with
    | none => s.claimFree g t
    | some (r, b) =>
      match b.storeAt r.lead g t.tag.toNat with
      | some (k, x) => s.claimStore g r b k x t
      | none => s.claimFree g t

/-- OUTBOUND_TOKEN_CLAIM at edge unit `x` (R183, R271, R272): the token that the end router offers on the link is taken by its first
claimant, one in a cycle. -/
def execOutboundTokenClaim (s : State) : Out :=
  let g := s.cur.x
  match (if (s.edge g).hold ≤ s.cycle then s.incoming (endRouter g) (endLink g) else none) with
  | none => .next s
  | some (f, t) =>
    match s.claim g t with
    | none => .next s
    | some u =>
      .next (((u.removeFeed (endRouter g) (endLink g) f t).modEdge g (fun x => { x with hold := s.cycle + 1 })).touch
        (pilotOfCol (g / 2)))

/-! ### Sending inbound (R273) -/

/-- Whether operations of the engines are outstanding at a column end, which hold a swap mark (R120). -/
def Edge.busy (x : Edge) : Bool := !(x.cmds.isEmpty && x.opens.isEmpty && x.xhand.isEmpty)

/-- The token that a source of a column end has ready: 0 to 3 load bindings by generator, 4 responses, 5 transforms, 6 the
spring decoder, 7 the injection queue of the band. A swap mark is held while operations are outstanding (R120). -/
def State.inboundHead (s : State) (g k : Nat) : Option Token :=
  let x := s.edge g
  match k with
  | 4 => match x.rsps with
    | p :: _ => p.tok
    | [] => none
  | 5 => (x.xouts.head?).map (fun y => y.1)
  | 6 => x.springs.head?
  | 7 => ((vg (s.pilot (g / 16)).injq (g / 2 % 8 + 8 * (g % 2)) []).head?).filter (fun t => !(t.isMark && t.mark = 3 && x.busy))
  | _ =>
    match s.endBlock g with
    | some (r, b) => (((b.bindsAt r.lead g).find? (fun y => y.br.dir = 0 && y.br.gen = k)).bind (fun y => y.sendq.head?)).filter
        (fun t => !(t.isMark && t.mark = 3 && x.busy))
    | none => none

/-- The head of a source removed, and what its leaving does: a class-I1 entry retires when its response is taken (R362); a
load binding notes its swap mark (R333). -/
def State.inboundPop (s : State) (g k : Nat) (t : Token) : State :=
  match k with
  | 4 =>
    match (s.edge g).rsps with
    | p :: l =>
      let u := s.modEdge g (fun x => { x with rsps := l })
      if p.tag != 0 then u.soon .suppressionRetire (tagVd p.tag) p.tag 0 else u
    | [] => s
  | 5 => s.modEdge g (fun x => { x with xouts := x.xouts.tail })
  | 6 => s.modEdge g (fun x => { x with springs := x.springs.tail })
  | 7 => s.modPilot (g / 16) (fun p =>
      let n := g / 2 % 8 + 8 * (g % 2)
      { p with injq := vs p.injq n (vg p.injq n []).tail })
  | _ =>
    match s.endBlock g with
    | some (r, b) => s.modRegion r.lead (fun q => q.modBlock b.inc (fun z => { z with binds := z.binds.map (fun (y : BindSt) =>
        if y.br.dir = 0 && y.br.gen = k && y.endOf r.lead = g then
          { y with sendq := y.sendq.tail, swapped := y.swapped || (t.isMark && t.mark = 3) } else y) }))
    | none => s

/-- A token put on the inbound link: discarded where the end router's set takes nothing from it (R273); a swap mark is noted
as crossing (R333). A token that is discarded has crossed the column end, and the norm watches see it (DESIGN CHOICE, log 24: R282 does
not say). -/
def State.sendIn (s : State) (g : Nat) (t : Token) : State :=
  let e := endRouter g
  let s := s.watchToken g false t
  let s := if t.isMark && t.mark = 3 then s.modEdge g (fun x => { x with swapCrossed := true }) else s
  if (s.swWords e).any (swTakes (endLink g)) then s.intoLink e (endLink g) t else s

/-- INBOUND_TOKEN_SEND at edge unit `x` (R273, R391): a tide mark goes first and closes the inbound side; otherwise the next
source in turn that has a token ready. -/
def execInboundTokenSend (s : State) : Out :=
  let g := s.cur.x
  let x := s.edge g
  let e := endRouter g
  let used := (s.swWords e).any (swTakes (endLink g))
  if !s.routes e || (used && !s.linkReady e (endLink g)) then .next s
  else
    match x.marks with
    | t :: l => .next ((s.modEdge g (fun x => { x with marks := l, inClosed := true })).sendIn g t)
    | [] =>
      if x.inClosed then .next s
      else
        match ((List.range 8).map (fun i => (x.rr + 1 + i) % 8)).find? (fun k => (s.inboundHead g k).isSome) with
        | none => .next s
        | some k =>
          match s.inboundHead g k with
          | none => .next s
          | some t => .next (((s.inboundPop g k t).modEdge g (fun x => { x with rr := k })).sendIn g t)

/-! ### `LDE` and `STE` requests (R229) -/

/-- Whether a peer send has been completed (R453). -/
def State.sendDone (s : State) (tag : Nat) : Bool := !(s.hb.unretired.any (fun e => e.tag = tag && e.status = 255))

/-- The answer of an `STE`: only with `.resp`. -/
def Cmd.steAnswer (c : Cmd) : Option Token := if c.tok.returns then some (c.tok.answer [0] false) else none

/-- An `STE` at its place: memory at once, a window by WINDOW_STORE_APPLY, a peer range by one send behind the earlier ones of its
issuer to its location (R454). -/
def State.stePlace (s : State) (g : Nat) (r : Region) (c : Cmd) (d : Token) (x : Spot) : State :=
  match x with
  | .cell a => (s.putGranule r.vd a d.payload d.poison).finishCmd g c.id c.steAnswer
  | .window _ _ => (s.modCmd g c.id (fun y => { y with begun := true })).soon (.windowStoreApply (.cmd g c.id)) 0 0 0
  | .peer route o =>
    if s.peerRoom r.vd route && s.sendInOrder r.vd (r.endSource g) route o 32 then
      ((s.modCmd g c.id (fun y => { y with begun := true })).peerSend r.vd route o c.tag [d.payload] [BitVec.allOnes 32])
    else s
  | _ => s.refuseCmd g c

/-- EDGE_REQUEST at edge unit `x`, request `y` (R228, R229). -/
def execEdgeRequest (s : State) : Out :=
  let g := s.cur.x
  match s.cmdReady g s.cur.y with
  | none => .next s
  | some (r, c) =>
    let kind := bits (c.tok.w 7) 7 2
    let a := c.tok.w2 0
    if !c.isRequest then .next s
    else if c.begun then
      .next (if a < aperture && s.sendDone c.tag then s.finishCmd g c.id c.steAnswer else s)
    else if c.op = 64 then
      .next (s.reach r.vd g c false kind a false false (fun x =>
        match x.cellOf with
        | some cell =>
          let v := s.granule cell
          (s.afterRead cell).finishCmd g c.id
            (some { c.tok.answer [] v.2 with payload := v.1 })
        | none => s.refuseCmd g c))
    else .next (s.reach r.vd g c false kind a true true (s.stePlace g r c (c.data.getD c.tok)))

/-! ### Inbound transforms (R278) -/

/-- A command of an opcode that may act now. -/
def State.readyOp (s : State) (op : Nat) : Option (Region × Cmd) :=
  match s.cmdReady s.cur.x s.cur.y with
  | some (r, c) => if c.op = op then some (r, c) else none
  | none => none

/-- An inbound transform that may send its next token: it is the oldest of its edge unit, and its output has room. -/
def State.readyIn (s : State) (op : Nat) : Option (Region × Cmd) :=
  match s.readyOp op with
  | some (r, c) =>
    let x := s.edge s.cur.x
    if (x.before c.id).all (fun d => d.op != 0 && d.op != 6) && x.xouts.length < 2 then some (r, c) else none
  | none => none

/-- A transform token sent: it carries the command's round; poison sets PSN. The last one ends the command, whose entry in the record
goes as the end router takes it (R385). -/
def State.sendXout (s : State) (g : Nat) (c : Cmd) (v : Payload) (poison : Bool) (tag last : Nat) : State :=
  let t : Token := { payload := v, kind := 0, round := c.tok.round, tag := BitVec.ofNat 2 tag, poison := poison, src := 0 }
  let k : Option Cmd := if c.pos + 1 = last then some { c with pos := last } else none
  let u := (s.modEdge g (fun x => { x with xouts := x.xouts ++ [(t, k)] }.flag poison flagPSN)).modCmd g c.id
    (fun y => { y with pos := y.pos + 1 })
  if c.pos + 1 = last then u.finishCmd g c.id none else u

/-- Element `j` of width `w` in a little-endian string. -/
def elemOf (l : List Byte) (w j : Nat) : Nat := fromLe l / 2 ^ (w * j) % 2 ^ w

/-- `XSPLIT` at edge unit `x`, command `y`: its next token (R278). -/
def execXsplit (s : State) : Out :=
  let g := s.cur.x
  match s.readyIn 0x00 with
  | none => .next s
  | some (r, c) =>
    let t := c.tok
    let k := t.sub3
    let n := t.w 4
    let last := n + (n + 7) / 8
    let grp := c.pos / 9
    if c.pos % 9 = 0 then
      let cnt := min 8 (n - 8 * grp)
      .next (s.readVia r.vd g c true (bits (t.w 6) 4 4) (t.w2 2 + 8 * grp * scaleBytes k) (cnt * scaleBytes k)
        (fun l bad u => u.sendXout g c
          (ofLanes (fun j => if j < cnt then BitVec.ofNat 32 (fromLe ((l.drop (j * scaleBytes k)).take (scaleBytes k))) else 0))
          bad (bits (t.w 6) 10 2) last))
    else
      let b := 8 * grp + c.pos % 9 - 1
      .next (s.readVia r.vd g c false (bits (t.w 6) 0 4) (t.w2 0 + b * blockBytes k) (blockBytes k)
        (fun l bad u =>
          let w := blockWidth k
          let byte : Nat → Nat := fun j => let q := elemOf l w j; if isAffine k then wrap (signed q w) 8 else q
          u.sendXout g c (BitVec.ofNat 256 (fromLe ((List.range 32).map (fun j => BitVec.ofNat 8 (byte j))))) bad
            (bits (t.w 6) 8 2) last))

/-- The value that `CVTIN` widens (R278): NaN under a NaN scale. -/
def cvtinValue (mode code q : Nat) (x z : Nat) : Val :=
  match mode with
  | 0 => decodeF (cvtFmt code) q
  | 1 => if x = 255 then .nan false else (decodeF (cvtFmt code) q).scale ((x : Int) - 127)
  | _ => if x = 255 then .nan false
    else Val.ofInt (signed q (if code = 0 then 4 else 2) - signed z 8) ((x : Int) - 127)

/-- The eight lanes of a `CVTIN` token, with the flags. -/
def cvtinLanes (mode code cnt : Nat) (l : List Byte) (x z : Nat) : Nat → FEnv → List Word × FEnv
  | 0, env => ([], env)
  | n + 1, env =>
    let j := 8 - (n + 1)
    let w := cvtinWidth mode code
    let q := if j < cnt then encodeF .f32 (cvtinValue mode code (elemOf l w j) x z) .rne .ieee env else (0, env)
    let r := cvtinLanes mode code cnt l x z n q.2
    (BitVec.ofNat 32 q.1 :: r.1, r.2)

/-- `CVTIN` at edge unit `x`, command `y`: its next token (R278). -/
def execCvtin (s : State) : Out :=
  let g := s.cur.x
  match s.readyIn 0x06 with
  | none => .next s
  | some (r, c) =>
    let t := c.tok
    let m := t.w 4
    let code := t.sub3
    let mode := bits (t.w 6) 16 2
    let kind := bits (t.w 6) 4 4
    let w := cvtinWidth mode code
    let cnt := min 8 (m - 8 * c.pos)
    let sb := if mode = 0 then 0 else if mode = 2 then 2 else 1
    .next (s.readVia r.vd g c true kind (t.w2 0 + c.pos / 4 * sb) sb (fun sc bad1 v =>
      v.readVia r.vd g c false kind (t.w2 2 + c.pos * w) ((cnt * w + 7) / 8) (fun l bad2 u =>
        let x := (sc.headD 0).toNat
        let q := cvtinLanes mode code cnt l x (sc.drop 1 |>.headD 0).toNat 8 (s.edge g).env
        let u := u.modEdge g (fun y => { y with eflags := q.2.aflags }.flag (mode != 0 && x = 255) flagINV)
        u.sendXout g c (ofLanes (fun k => lget q.1 k 0)) (bad1 || bad2) (bits (t.w 6) 8 2) ((m + 7) / 8))))

/-! ### Outbound transforms (R279, R280) -/

/-- An outbound transform opened on its data tag. -/
def State.openOut (s : State) (op : Nat) : State :=
  let g := s.cur.x
  match (s.edge g).find s.cur.y with
  | none => s
  | some c =>
    if c.op = op && !c.begun then
      (s.modEdge g (fun x => { x with opens := x.opens ++ [{ id := c.id, tag := bits (c.tok.w 6) 8 2, taken := 0, group := [] }] })).modCmd
        g c.id (fun y => { y with begun := true })
    else s

/-- `XJOIN` at edge unit `x`, command `y` (R279). -/
def execXjoin (s : State) : Out := .next (s.openOut 0x01)
/-- `CVTOUT` at edge unit `x`, command `y` (R279). -/
def execCvtout (s : State) : Out := .next (s.openOut 0x07)

/-- The largest exponent of an element format (R68). -/
def Fmt.emax (f : Fmt) : Int :=
  match f with
  | .e2m1 => 2
  | .e2m3 => 2
  | .e3m2 => 4
  | .e4m3 => 8
  | _ => 15

/-- The largest `floor(log2 |v|)` of the values that are not zero. -/
def topExp : List Val → Option Int
  | [] => none
  | .fin _ m e :: l => if m = 0 then topExp l else
    (match topExp l with
     | some x => some (max x (floorLog2 m e))
     | none => some (floorLog2 m e))
  | _ :: l => topExp l

/-- Codes from a list of values, with the flags. -/
def codesOf (f : Val → FEnv → Nat × FEnv) : List Val → FEnv → List Nat × FEnv
  | [], env => ([], env)
  | v :: l, env =>
    let q := f v env
    let r := codesOf f l q.2
    (q.1 :: r.1, r.2)

/-- The bytes of codes of a width (R42). -/
def packCodes (w : Nat) (l : List Nat) : List Byte :=
  toLe (l.length * w / 8) ((List.range l.length).map (fun j => lget l j 0 * 2 ^ (w * j))).sum

/-- An MX block joined (R68, R280): codes, scale. -/
def joinMx (f : Fmt) (mode : RMode) (v : List Val) (env : FEnv) : List Nat × Nat × FEnv :=
  if v.any (fun x => x.isNaN || x.isInf) then (List.replicate 32 0, 255, env.raise flagINV)
  else
    let ex : Int := match topExp v with
      | some x => clampExp (x - f.emax) (-127) 127
      | none => -127
    let q := codesOf (fun x e => encodeF f (x.scale (-ex)) mode .sat e) v env
    (q.1, (ex + 127).toNat, q.2)

/-- The smaller or larger of two finite values. -/
def pickVal (larger : Bool) (a b : Val) : Val := if (a.cmp b < 0) = larger then b else a

/-- The smallest exponent at which a range of values fits `n` steps, at least -127 (R280). -/
def spanExp (n : Nat) (d : Val) : Int :=
  match d with
  | .fin _ m e =>
    let top := floorLog2 m e
    let ok := fun (x : Int) => d.cmp (.fin false n x) ≤ 0
    max (-127) (((List.range 8).map (fun (i : Nat) => top - 4 + (i : Int))).find? ok |>.getD (top + 1))
  | _ => -127

/-- An affine block joined (R280): codes, scale, zero offset. -/
def joinAffine (w : Nat) (mode : RMode) (v : List Val) (env : FEnv) : List Nat × Nat × Int × FEnv :=
  if v.any (fun x => x.isNaN || x.isInf) then (List.replicate 32 0, 255, 0, env.raise flagINV)
  else
    let zero : Val := .fin false 0 0
    let lo := v.foldl (pickVal false) zero
    let hi := v.foldl (pickVal true) zero
    if hi.cmp lo = 0 then (List.replicate 32 0, 0, 0, env)
    else
      let qmin : Int := -(2 ^ (w - 1) : Nat)
      let qmax : Int := (2 ^ (w - 1) : Nat) - 1
      let ex := spanExp (2 ^ w - 1) (addVal hi lo.negate .rne).1
      let rnd : Val → FEnv → Int × FEnv := fun x e =>
        match x.scale (-ex) with
        | .fin n m k => let r := roundInt n m k mode 0; (r.1, e.raiseIf r.2 flagINX)
        | _ => (0, e)
      let zr := rnd lo env
      let z := qmin - zr.1
      let q := codesOf (fun x e =>
        let r := rnd x e
        let y := r.1 + z
        (wrap (clampExp y qmin qmax) w, r.2.raiseIf (y < qmin || y > qmax) flagISAT)) v zr.2
      (q.1, (ex + 127).toNat, z, q.2)

/-- The FP32 values of a list of tokens, in order. -/
def laneVals (l : List Token) : List Val :=
  l.flatMap (fun t => (List.range 8).map (fun k => decodeF .f32 (lane t.payload k).toNat))

/-- The open transform of a command changed. -/
def State.modOpen (s : State) (g i : Nat) (f : XOut → XOut) : State :=
  s.modEdge g (fun x => { x with opens := x.opens.map (fun o => if o.id = i then f o else o) })

/-- A block or granule of a transform written or passed over: its tokens are let go, and the last one ends the command. -/
def State.groupDone (s : State) (g : Nat) (c : Cmd) (keep last : Nat) : State :=
  let u := (s.modOpen g c.id (fun o => { o with group := o.group.drop (o.group.length - keep) })).modCmd g c.id
    (fun y => { y with pos := y.pos + 1, part := 0 })
  if c.pos + 1 = last then
    (u.modEdge g (fun x => { x with opens := x.opens.filter (fun o => o.id != c.id) })).finishCmd g c.id none
  else u

/-- A block of `XJOIN` whose four tokens are in hand (R279, R280). -/
def State.joinBlock (s : State) (r : Region) (g : Nat) (c : Cmd) (o : XOut) : State :=
  let t := c.tok
  let k := t.sub3
  let n := t.w 4
  let ea := t.w2 0 + c.pos * blockBytes k
  let sa := t.w2 2 + c.pos * scaleBytes k
  let ek := bits (t.w 6) 0 4
  let sk := bits (t.w 6) 4 4
  let poison := o.group.any (fun x => x.poison)
  if o.group.any (fun x => x.kind = 1) then (s.modEdge g (fun x => x.flag poison flagPSN)).groupDone g c 0 n
  else
    let mode := RMode.ofCode (t.w 5 % 8)
    let v := laneVals o.group
    let q : List Nat × List Byte × FEnv :=
      if poison then (List.replicate 32 0, toLe (scaleBytes k) 0, (s.edge g).env.raise flagPSN)
      else if isAffine k then
        let a := joinAffine (blockWidth k) mode v (s.edge g).env
        (a.1, [BitVec.ofNat 8 a.2.1, BitVec.ofInt 8 a.2.2.1], a.2.2.2)
      else
        let a := joinMx (blockFmt k) mode v (s.edge g).env
        (a.1, [BitVec.ofNat 8 a.2.1], a.2.2)
    s.writeVia r.vd g c false ek ea (packCodes (blockWidth k) q.1) poison 0 (fun u =>
      u.writeVia r.vd g c true sk sa q.2.1 poison (pieces ea (blockBytes k)).length (fun v =>
        (v.modEdge g (fun x => { x with eflags := q.2.2.aflags })).groupDone g c 0 n))

/-- One element of `CVTOUT` (R279): scaled by the command's own scale, whose code 0xFF is NaN (R48). -/
def cvtoutElem (t : Token) (v : Val) (env : FEnv) : Nat × FEnv :=
  let w5 := t.w 5
  let mode := RMode.ofCode (w5 % 8)
  let x := bits w5 8 8
  let env := env.raiseIf (bit w5 4 && x = 255) flagINV
  let v := if !bit w5 4 then v else if x = 255 then .nan false else v.scale (127 - (x : Int))
  if t.sub3 = 7 then toInteger v 8 true mode env
  else encodeF (cvtFmt t.sub3) v mode (if bit w5 3 then .ovf else .sat) env

/-- The first and last token that granule `k` of a `CVTOUT` of width `w` needs. -/
def cvtoutSpan (w k : Nat) : Nat × Nat := (256 * k / w / 8, (256 * k + 255) / w / 8)

/-- A granule of `CVTOUT` whose tokens are in hand (R279). -/
def State.cvtGranule (s : State) (r : Region) (g : Nat) (c : Cmd) (o : XOut) : State :=
  let t := c.tok
  let w := cvtoutWidth t.sub3
  let last := t.w 4 * w / 256
  let first := o.taken - o.group.length
  let sp := cvtoutSpan w c.pos
  let toks := (o.group.drop (sp.1 - first)).take (sp.2 - sp.1 + 1)
  let keep := o.taken - (cvtoutSpan w (c.pos + 1)).1
  let poison := toks.any (fun x => x.poison)
  if toks.any (fun x => x.kind = 1) then (s.modEdge g (fun x => x.flag poison flagPSN)).groupDone g c keep last
  else
    let q := if poison then ([], (s.edge g).env.raise flagPSN)
      else codesOf (cvtoutElem t) (laneVals toks) (s.edge g).env
    let all := ((List.range q.1.length).map (fun j => lget q.1 j 0 * 2 ^ (w * j))).sum
    let v := all / 2 ^ (256 * c.pos - 8 * sp.1 * w)
    s.writeVia r.vd g c false (bits (t.w 6) 0 4) (t.w2 0 + 32 * c.pos) (toLe 32 v) poison 0 (fun u =>
      (u.modEdge g (fun x => { x with eflags := q.2.aflags })).groupDone g c keep last)

/-- Whether the region of a column end stands still (R400). -/
def State.endStill (s : State) (g : Nat) : Bool :=
  match s.endRegion g with
  | some r => s.endsGated r
  | none => false

/-- TRANSFORM_TOKEN_TAKEN at edge unit `x` (R279): a transform writes the block or granule whose tokens it holds; otherwise
the token at hand joins its transform. Its accesses wait for the earlier requests of its path (R110). -/
def execTransformTokenTaken (s : State) : Out :=
  let g := s.cur.x
  if s.endStill g then .next s else
  let x := s.edge g
  let full : XOut → Bool := fun o =>
    match x.find o.id with
    | some c => if c.op = 1 then o.group.length = 4
      else (cvtoutSpan (cvtoutWidth c.tok.sub3) c.pos).2 < o.taken
    | none => false
  match x.opens.find? full with
  | some o =>
    match s.cmdReady g o.id with
    | some (r, c) => .next (if c.op = 1 then s.joinBlock r g c o else s.cvtGranule r g c o)
    | none => .next s
  | none =>
    match x.xhand with
    | [] => .next s
    | t :: l =>
      match x.openOn t.tag.toNat with
      | none => .next s
      | some o =>
        let u := (s.modEdge g (fun y => { y with xhand := l })).modOpen g o.id
          (fun z => { z with taken := z.taken + 1, group := z.group ++ [t] })
        .next (u.soon .transformTokenTaken g 0 0)

/-! ### `XSCALE`, the watch commands (R281 to R283) -/

/-- One lane of `XSCALE`. -/
def xscaleLane (t : Token) (k : Nat) (env : FEnv) : Nat × FEnv :=
  let two := bit (t.w 7) 7
  let w := t.w k
  let a := bits (t.w 4) (8 * k) 8
  let b := bits (t.w 5) (8 * k) 8
  let x : Val := if bit (t.w 7) 8 then Val.ofInt (signed w 32) 0 else decodeF .f32 w
  let e : Int := (a : Int) - 127 + signed (t.w 6) 32 + (if two then (b : Int) - 127 else 0)
  if a = 255 || (two && b = 255) then (Fmt.f32.canonicalNaN, env.raise flagINV)
  else encodeF .f32 (x.scale e) .rne .ieee env

/-- The four lanes of `XSCALE`. -/
def xscaleLanes (t : Token) : Nat → FEnv → List Nat × FEnv
  | 0, env => ([], env)
  | n + 1, env =>
    let q := xscaleLane t (4 - (n + 1)) env
    let r := xscaleLanes t n q.2
    (q.1 :: r.1, r.2)

/-- `XSCALE` at edge unit `x`, command `y` (R281). -/
def execXscale (s : State) : Out :=
  let g := s.cur.x
  match s.readyOp 0x02 with
  | none => .next s
  | some (_, c) =>
    let q := xscaleLanes c.tok 4 (s.edge g).env
    .next ((s.modEdge g (fun x => { x with eflags := q.2.aflags })).finishCmd g c.id (some (c.tok.answer q.1 false)))

/-- The watch that a command names. -/
def Cmd.watch (c : Cmd) : Nat := bits (c.tok.w 7) 7 2

/-- `NWATCH` at edge unit `x`, command `y` (R282). -/
def execNwatch (s : State) : Out :=
  let g := s.cur.x
  match s.readyOp 0x03 with
  | none => .next s
  | some (_, c) =>
    let w1 := c.tok.w 1
    let w : Watch := { Watch.zero with armed := true, tag := bits w1 8 2, outward := bit w1 10, k := w1 % 8,
                                       ratio := lane c.tok.payload 0 }
    .next ((s.modEdge g (fun x => { x with watches := vs x.watches c.watch w })).finishCmd g c.id none)

/-- `NREAD` at edge unit `x`, command `y` (R283): the state of the watch at its last round mark (R284). -/
def execNread (s : State) : Out :=
  let g := s.cur.x
  match s.readyOp 0x04 with
  | none => .next s
  | some (_, c) =>
    let w := vg (s.edge g).watches c.watch Watch.zero
    .next (s.finishCmd g c.id (some (c.tok.answer
      [w.last.toNat, w.a.toNat, w.rounds.toNat, w.trips.toNat, w.lasttrip.toNat,
       b2n w.armed + 2 * w.seen.toNat, (s.edge g).eflags.toNat, 0] false)))

/-- `NCLR` at edge unit `x`, command `y` (R283). -/
def execNclr (s : State) : Out :=
  let g := s.cur.x
  match s.readyOp 0x05 with
  | none => .next s
  | some (_, c) =>
    .next ((s.modEdge g (fun x => { x with
      watches := vs x.watches c.watch Watch.zero,
      eflags := if bit (c.tok.w 7) 9 then 0 else x.eflags })).finishCmd g c.id none)

end Sys2Proof.Machine
end

