-- ==== Sys2Proof/Machine/Stream.lean ====
section
/-!
DEFINITION. Stream bindings, the stream engines, walks and stream faults, tagged window stores, the scrubbers and clearing of
storage (R29, R30, R36, R158 to R181, R364, R433, R452; spec/06_tarns.md).
-/
namespace Sys2Proof.Machine
open Sys2Proof

/-! ### The order of a load binding's tokens and marks (R162, R165) -/

/-- The outermost level with a non-zero count. -/
def Image.outer (m : Image) : Option Nat := [3, 2, 1, 0].find? (fun k => vg m.loops k 0 != 0)

/-- The iterations inside one iteration of the outermost level. -/
def Image.inner (m : Image) : Nat :=
  match m.outer with
  | some k => ((List.range k).map (fun j => levels m.loops j)).foldl (· * ·) 1
  | none => 1

/-- What a load binding produces at a position. -/
inductive Item where
  | token (n : Nat)
  | round (r : Nat)
  | last (r : Nat)
  | swap (r : Nat)
  | nothing
  deriving DecidableEq, Repr

/-- The item at a position: tokens, a round mark after each iteration of the outermost level, the end mark, and one swap
mark. -/
def Image.item (m : Image) (pos : Nat) : Item :=
  let i := m.inner
  match m.outer with
  | none => if pos = 0 then .token 0 else if pos = 1 then .last 0 else if pos = 2 then .swap 0 else .nothing
  | some k =>
    let n := levels m.loops k
    if pos < n * (i + 1) then
      (if pos % (i + 1) < i then .token (pos / (i + 1) * i + pos % (i + 1)) else .round (pos / (i + 1)))
    else if pos = n * (i + 1) then .last n
    else if pos = n * (i + 1) + 1 then .swap n
    else .nothing

/-- The round of an iteration's token (R29). -/
def Image.roundOf (m : Image) (n : Nat) : Nat :=
  match m.outer with
  | some _ => n / m.inner
  | none => 0

/-- The iterations that a load binding has produced at a position. -/
def Image.produced (m : Image) (pos : Nat) : Nat :=
  match m.outer with
  | some _ => min m.iterations (pos / (m.inner + 1) * m.inner + min (pos % (m.inner + 1)) m.inner)
  | none => min 1 pos

/-! ### Addresses (R162, R163) -/

/-- The bytes from a binding's base to the end of its tarn. -/
def BindRec.ring (b : BindRec) : Nat := 0x40000 - b.base

/-- The offset `q` of an iteration. -/
def BindRec.q (b : BindRec) (m : Image) (n : Nat) : Int :=
  vg b.strides 0 0 * (m.indexOf n 0 : Int) + vg b.strides 1 0 * (m.indexOf n 1 : Int)
    + vg b.strides 2 0 * (m.indexOf n 2 : Int)

/-- The base advance that `SADV` has given a level-3 iteration. -/
def BindSt.advance (x : BindSt) (i3 : Nat) : Int := ((x.adv.filter (fun a => a.1 ≤ i3)).map (fun a => a.2)).foldl (· + ·) 0

/-- The address kind and address of an iteration: kind 0 a virtual address, 1 a tarn address of the stack, 2 a reservoir
offset. -/
def BindSt.address (x : BindSt) (m : Image) (n : Nat) : Nat × Nat :=
  let b := x.br
  let i3 := m.indexOf n 3
  let s3 := vg b.strides 3 0
  if b.target = 1 then
    let o : Int := match b.mode with
      | 0 => b.base + (i3 % b.bufs : Nat) * s3 + b.q m n
      | 1 => b.base + (32 * n % b.ring : Nat)
      | _ => b.base + (x.rho + b.q m n) % (b.ring : Nat)
    (1, b.depth * 2 ^ 18 + o.toNat)
  else (b.target, wrap (b.base + x.advance i3 + b.q m n + s3 * i3) 64)

/-- Whether an iteration is the last of its level-3 iteration. -/
def Image.endsLevel3 (m : Image) (n : Nat) : Bool := (List.range 3).all (fun k => m.indexOf n k + 1 = levels m.loops k)

/-- Whether the mode lets an iteration go ahead (R163). -/
def BindSt.modeReady (x : BindSt) (m : Image) (n : Nat) : Bool :=
  let b := x.br
  if b.target != 1 then true
  else match b.mode with
    | 0 => x.gens.contains (m.indexOf n 3 % b.bufs)
    | 1 => if b.dir = 0 then x.removed < x.filled else 32 * (x.filled - x.removed) < b.ring
    | _ => x.rho + b.q m n + 32 ≤ (32 * x.filled : Nat)

/-- What an iteration does to the buffers, ring and retired count once it is complete (R163). -/
def BindSt.iterated (x : BindSt) (m : Image) (n : Nat) : BindSt :=
  let b := x.br
  let ends := m.endsLevel3 n
  let buf := m.indexOf n 3 % b.bufs
  if b.target != 1 then x
  else match b.mode with
    | 0 => if ends then { x with gens := x.gens.filter (· != buf), softs := x.softs ++ [buf] } else x
    | 1 => if b.dir = 0 then { x with removed := x.removed + 1 } else { x with filled := x.filled + 1 }
    | _ => if ends then { x with rho := x.rho + vg b.strides 3 0 } else x

/-! ### Bindings by place -/

/-- The binding at region `x`, block `y`, index `z`. -/
def State.curBinding (s : State) : Option (Region × Block × BindSt) :=
  match s.region s.cur.x with
  | some r => match r.place s.cur.y with
    | some b => (b.binds[s.cur.z]?).map (fun x => (r, b, x))
    | none => none
  | none => none

/-- That binding changed. -/
def State.modCurBinding (s : State) (r : Region) (b : Block) (f : BindSt → BindSt) : State :=
  s.modRegion r.lead (fun q => q.modBlock b.inc (fun z => { z with binds := lmod z.binds s.cur.z f }))

/-- The requester by which that binding is known to the walker. -/
def State.curRequester (s : State) : Requester := .binding s.cur.x s.cur.y s.cur.z

/-- An access counted under an LSID of a block (R217). -/
def Block.access (b : Block) (lsid : Nat) : Block := { b with accesses := tset b.accesses lsid (tget b.accesses lsid 0 + 1) }

/-- A data token of a load binding. -/
def loadToken (gen round : Nat) (v : Payload × Bool) : Token :=
  { payload := v.1, kind := 0, round := BitVec.ofNat 8 round, tag := BitVec.ofNat 2 gen, poison := v.2, src := 0 }

/-- A load binding's next item staged. -/
def State.stage (s : State) (r : Region) (b : Block) (t : Token) (f : BindSt → BindSt) : State :=
  (s.modCurBinding r b (fun x => { f x with it := x.it + 1, sendq := x.sendq ++ [t] })).touch r.lead

/-- What an iteration's address leads to: `k` of the place, a walk, or a park (R168, R170, R433). -/
def State.bindReach (s : State) (r : Region) (b : Block) (x : BindSt) (n : Nat) (write send : Bool) (k : Spot → State) :
    State :=
  let ka := x.address b.img n
  let g := x.endOf r.lead
  match s.spot r.vd g ka.1 ka.2 write send x.te with
  | .cell a => k (.cell a)
  | .window w a => k (.window w a)
  | .peer q o => k (.peer q o)
  | .walk => s.needWalk s.curRequester false ka.2 write
  | .fault c bad => (s.afterWalk bad).park s.curRequester c ka.2
  | .noWindow => s.park s.curRequester 1 ka.2
  | _ => s.park s.curRequester 7 ka.2

/-- A load iteration (R162, R163, R181): its granule is staged, with its poison. -/
def State.loadIteration (s : State) (r : Region) (b : Block) (x : BindSt) (n : Nat) : State :=
  if !x.modeReady b.img n then s
  else s.bindReach r b x n false false (fun p =>
    match p.cellOf with
    | none => s.park s.curRequester 1 (x.address b.img n).2
    | some a =>
      let v := s.granule a
      (((s.afterRead a).ringPut r.vd (x.endOf r.lead) x n v.1 v.2).modRegion r.lead (fun q =>
        q.modBlock b.inc (fun z => z.access x.br.lsid))).stage r b (loadToken x.br.gen (b.img.roundOf n) v) (fun y => y.iterated b.img n))

/-- The tokens that a load binding may stage: its 8 KiB ring for a direct binding (R163), one otherwise. -/
def BindSt.stageRoom (x : BindSt) : Bool := x.sendq.length < (if x.br.target = 1 then 1 else 256)

/-- Whether the load bindings of a block of a region, by place, may send their swap marks (R333): the shadow is armed, or the block is
being left or has been left. -/
def Region.sendsSwap (r : Region) (place : Nat) : Bool :=
  place = 2 || (place = 0 && (r.shadow = .armed || (r.shadow = .swapping && r.succ.isSome)))

/-- The next item of a load binding: a swap mark while its block may send one (R333), and nothing from the moment S of a tide on
(R391). -/
def State.loadStep (s : State) (r : Region) (b : Block) (x : BindSt) : State :=
  let g := s.edge (x.endOf r.lead)
  if !x.stageRoom || g.inClosed || !g.marks.isEmpty then s
  else
    match b.img.item x.it with
    | .token n => s.loadIteration r b x n
    | .round k => s.stage r b (markToken 0 (BitVec.ofNat 8 k)) id
    | .last k => s.stage r b (markToken 1 (BitVec.ofNat 8 k)) id
    | .swap k =>
      if r.sendsSwap s.cur.y then
        s.stage r b (markToken 3 (BitVec.ofNat 8 k)) id
      else s
    | .nothing => s

/-- The end of a store iteration. -/
def State.stored (s : State) (r : Region) (b : Block) (n : Nat) : State :=
  ((s.modCurBinding r b (fun x => { x.iterated b.img n with it := x.it + 1, takeq := [] })).touch r.lead).modRegion r.lead
    (fun q => q.modBlock b.inc (fun z => match z.binds[s.cur.z]? with | some x => z.access x.br.lsid | none => z))

/-- A store iteration whose token has been taken (R30, R162, R163, R165, R181): a null token writes nothing; a window store and
a peer send carry a tag. -/
def State.storeStep (s : State) (r : Region) (b : Block) (x : BindSt) : State :=
  match x.takeq with
  | [] => s
  | t :: _ =>
    let n := x.it
    let g := x.endOf r.lead
    if !x.modeReady b.img n || x.unperformed != 0 then s
    else if t.kind = 1 then s.stored r b n
    else s.bindReach r b x n true true (fun p =>
      match p with
      | .cell a => (s.putGranule r.vd a t.payload t.poison).stored r b n
      | .window _ _ =>
        if !s.endsMayTag r then s
        else
          let w := s.nextTag r b.inc (r.endSource g) x.br.lsid
          (w.2.modCurBinding r b (fun y => { y with unperformed := w.1 })).soon (.windowStoreApply s.curRequester) 0 0 0
      | .peer route o =>
        if !s.endsMayTag r || !s.peerRoom r.vd route || !s.sendInOrder r.vd (r.endSource g) route o 32 then s
        else
          let w := s.nextTag r b.inc (r.endSource g) x.br.lsid
          ((w.2.peerSend r.vd route o w.1 [t.payload] [BitVec.allOnes 32]).stored r b n).modCurBinding r b
            (fun y => { y with unperformed := w.1 })
      | _ => s)

/-- The peer send of a store binding has performed (R453). -/
def BindSt.settled (x : BindSt) (s : State) : BindSt :=
  if x.unperformed != 0 && x.takeq.isEmpty && s.sendDone x.unperformed then { x with unperformed := 0 } else x

/-- BINDING_ITERATION at region `x`, block `y`, binding `z` (R157, R162 to R165, R168): one token of a load binding is
fetched, or one mark made, or the token that a store binding has taken is stored. A parked or walking binding waits. -/
def execBindingIteration (s : State) : Out :=
  match s.curBinding with
  | none => .next s
  | some (r, b, x) =>
    let drains := x.br.dir = 1 && !x.takeq.isEmpty && (s.gated r || r.running = .frozen)
    if !(s.alive r || drains) || x.park.isSome || s.walks.any (fun w => w.who = s.curRequester) then .next s
    else if x.br.dir = 0 then .next (s.loadStep r b x)
    else
      let s := s.modCurBinding r b (fun y => y.settled s)
      .next (s.storeStep r b (x.settled s))

/-- BUFFER_HAND_OVER at region `x`, block `y`, binding `z` (R163): the oldest software-side buffer passes to the generator
side. -/
def execBufferHandOver (s : State) : Out :=
  match s.curBinding with
  | none => .next s
  | some (r, b, x) =>
    match x.softs with
    | [] => .next s
    | k :: l => .next (s.modCurBinding r b (fun y => { y with softs := l, gens := y.gens ++ [k] }))

/-- STORE_BINDING_END at region `x`, block `y`, binding `z` (R165, R217): once every store of the binding has performed, its
end mark counts for its LSID. -/
def execStoreBindingEnd (s : State) : Out :=
  match s.curBinding with
  | none => .next s
  | some (r, b, x) =>
    let x := x.settled s
    if x.br.dir = 1 && x.endTaken && x.takeq.isEmpty && x.unperformed = 0 && !x.counted then
      .next ((s.modCurBinding r b (fun y => { y.settled s with counted := true })).modRegion r.lead
        (fun q => q.modBlock b.inc (fun z => z.count s.cur.z x.br.lsid)))
    else .next s

/-! ### Walks and stream faults (R166 to R171, R343) -/

/-- WALK_COMPLETES (R166, R167): the walk outstanding for `q` ends. One that succeeds gives its entry to the requester; one
that fails is a stream fault. -/
def execWalkCompletes (q : Requester) (s : State) : Out :=
  match s.walks.find? (fun w => w.who = q) with
  | none => .next s
  | some w =>
    match s.walk (s.vdOfReq q) w.va w.write with
    | .ok e => .next ({ s with walks := s.walks.filter (fun w => w.who != q) }.setEntry q w.second (some e))
    | .error _ => .next (s.soon (.streamFault q) 0 0 0)

/-- The park of a requester, with what its report names: region, and words 0, 2 and 3 without the cause (R343). -/
def State.parkOf (s : State) (q : Requester) : Option (Region × Park × Nat × Nat × Nat) :=
  match q with
  | .pilot _ _ => none
  | .binding lead place b =>
    match s.binding lead place b with
    | some (r, k, x) =>
      let n := if x.br.dir = 0 then k.img.produced x.it else x.it
      let ix := k.img.indexOf n
      x.park.map (fun p => (r, p, b * 2 ^ 50, ix 1 * 2 ^ 32 + ix 0, ix 3 * 2 ^ 32 + ix 2))
    | none => none
  | .cmd g i =>
    match s.endRegion g, (s.edge g).find i with
    | some r, some c =>
      let e := c.path g
      c.park.map (fun p => (r, p, 2 ^ 55 + colOf e.1 * 2 ^ 41 + rowOf e.1 * 2 ^ 34 + e.2 * 2 ^ 32, 0, 0))
    | _, _ => none

/-- The park of a requester noted as reported. -/
def State.setReported (s : State) (q : Requester) : State :=
  match q with
  | .pilot _ _ => s
  | .binding lead place b =>
    s.modBinding lead place b (fun x => { x with park := x.park.map (fun p => { p with reported := true }) })
  | .cmd g i => s.modCmd g i (fun c => { c with park := c.park.map (fun p => { p with reported := true }) })

/-- The report of a park: the requester's part of its first word, and the iteration indices (R343). -/
def Park.words (p : Park) (w0 w2 w3 : Nat) : SfRep :=
  { w0 := BitVec.ofNat 64 (p.cause * 2 ^ 56 + w0), w1 := BitVec.ofNat 64 p.va, w2 := BitVec.ofNat 64 w2, w3 := BitVec.ofNat 64 w3 }

/-- Whether the report of a parked requester stands in the queue. -/
def State.stillQueued (s : State) (q : Requester) : Bool :=
  match s.parkOf q with
  | some (r, p, w0, w2, w3) => p.reported && r.sfq.contains (p.words w0 w2 w3)
  | none => false

/-- The report of a parked requester queued, where it has none and the queue has room (R343). -/
def State.report (s : State) (q : Requester) : State :=
  match s.parkOf q with
  | none => s
  | some (r, p, w0, w2, w3) =>
    if p.reported || r.sfq.length ≥ 16 then s
    else
      (s.modRegion r.lead (fun x => { x with sfq := x.sfq ++ [p.words w0 w2 w3] })).setReported q

/-- STREAM_FAULT of `q` (R170, R229, R343): a walk that fails parks its requester, with what is before the fault performed; the
report is queued, or waits while 16 stand. -/
def execStreamFault (q : Requester) (s : State) : Out :=
  match s.walks.find? (fun w => w.who = q) with
  | none => .next (s.report q)
  | some w =>
    match s.walk (s.vdOfReq q) w.va w.write with
    | .ok _ => .next s
    | .error (c, bad) =>
      let t := { s with walks := s.walks.filter (fun w => w.who != q) }.afterWalk bad
      let k : Option Park := some { cause := c, va := w.va, reported := false }
      .next ((match q with
        | .binding lead place b => t.modBinding lead place b (fun x => { x with park := k })
        | .cmd g i => t.modCmd g i (fun c => { c with park := k })
        | .pilot _ _ => t).report q)

/-! ### Tagged window stores (R364) -/

/-- A tagged window store of a binding: the store, the iteration's end, the acknowledgement. -/
def State.windowBinding (s : State) (lead place b : Nat) : State :=
  match s.binding lead place b with
  | none => s
  | some (r, k, x) =>
    match x.takeq with
    | [] => s
    | t :: _ =>
      if x.unperformed = 0 then s
      else
        let u := { s with cur := { s.cur with x := lead, y := place, z := b } }
        let v := u.modCurBinding r k (fun y => { y with unperformed := 0 })
        match u.windowPlace r.vd (x.address k.img x.it).2 with
        | .window _ a =>
          if !s.unitFree a then s
          else ((v.windowStore x.unperformed a (toLe 32 t.payload.toNat) t.poison).stored r k x.it).soon .suppressionRetire
            r.vd x.unperformed 0
        | _ => v.park (.binding lead place b) 1 (x.address k.img x.it).2

/-- A tagged window store of an `STE`. -/
def State.windowSte (s : State) (g i : Nat) : State :=
  match s.endRegion g, (s.edge g).find i with
  | some r, some c =>
    let d := c.data.getD c.tok
    if !c.begun || c.op != 65 then s
    else
      match s.windowPlace r.vd (c.tok.w2 0) with
      | .window _ a =>
        if s.unitFree a then (s.windowStore c.tag a (toLe 32 d.payload.toNat) d.poison).finishCmd g i c.steAnswer else s
      | _ => s.refuseCmd g c
  | _, _ => s

/-- A tagged window store of a pilot: after its earlier accesses of the location, a release after them all. A window that has
closed traps as the instruction would (R433). -/
def State.windowPilot (s : State) (p k : Nat) : State :=
  let q := s.pilot p
  match q.pend[k]?, s.regionAt p with
  | some x, some r =>
    let before := q.pend.take k
    if x.window.isNone || x.isLoad || s.mustWait r.vd before x || s.unissued r (r.accessKey p x) then s
    else
      match s.windowPlace r.vd x.va with
      | .window _ a =>
        if !s.unitFree a then s
        else ((s.setPilot p (q.performed k)).windowStore x.tag a (toLe x.size x.data.toNat) false).soon
          .suppressionRetire r.vd x.tag 0
      | _ =>
        if before.any PAcc.isLoad then s
        else s.setPilot p ((q.undo k x).takeTrap 5 1 (BitVec.ofNat 64 x.va) x.pc)
  | _, _ => s

/-- WINDOW_STORE_APPLY of `q` (R128, R350, R357, R364): the eddy unit of the line looks the tag up and applies the store once, when it has
room and every command that arrived earlier at the location has applied. -/
def execWindowStoreApply (q : Requester) (s : State) : Out :=
  match q with
  | .binding lead place b => .next (s.windowBinding lead place b)
  | .cmd g i => .next (s.windowSte g i)
  | .pilot p k => .next (s.windowPilot p k)

/-! ### Stream-engine commands (R172 to R178) -/

/-- That binding changed. -/
def State.modNamed (s : State) (r : Region) (c : Cmd) (f : BindSt → BindSt) : State :=
  s.modRegion r.lead (fun q => q.modBlock c.inc (fun z => { z with binds := lmod z.binds c.bindIx f }))

/-- Whether the binding that a command names has a software-side buffer. -/
def Cmd.softReady (c : Cmd) (r : Region) : Bool :=
  match c.binding r with
  | some x => !x.softs.isEmpty
  | none => false

/-- The place of the block of an incarnation in its region. -/
def Region.placeOf (r : Region) (inc : Nat) : Nat :=
  let at0 : Option Block → Bool := fun o => match o with | some b => b.inc = inc | none => false
  if at0 r.cur then 0 else if at0 r.succ then 1 else 2

/-- A stream command of an opcode that may make its next step: one that waits makes none (R173, R174). -/
def State.readyStream (s : State) (op : Nat) : Option (Region × Cmd) :=
  match s.readyOp op with
  | some (r, c) => if c.ended.isSome || s.streamWaits r s.cur.x c then none else some (r, { c with begun := true })
  | none => none

/-- A command noted as begun. -/
def State.begin (s : State) (g : Nat) (c : Cmd) : State := s.modCmd g c.id (fun y => { y with begun := true })

/-- The accesses of a stream command have performed: a hand-over in its turn, then its response (R173 to R175). -/
def State.endStream (s : State) (r : Region) (g : Nat) (c : Cmd) (status : Nat) : State :=
  if c.hand && (!c.softReady r || (s.edge g).heldUp c) then s
  else
    let t := (s.modCmd g c.id (fun y => { y with ended := some status })).soon .streamCommandResponse g c.id 0
    if c.hand then t.soon .bufferHandOver r.lead (r.placeOf c.inc) c.bindIx else t

/-- STREAM_COMMAND_RESPONSE at edge unit `x`, command `y` (R175): the response, where it is asked for. -/
def execStreamCommandResponse (s : State) : Out :=
  let g := s.cur.x
  match (s.edge g).find s.cur.y with
  | none => .next s
  | some c =>
    match c.ended with
    | none => .next s
    | some st =>
      let st := if st = 0 && c.poisoned > 0 then 1 else st
      let a := c.firstPoison.getD 0
      let t := c.tok.answer [st, c.written, c.poisoned, a % 2 ^ 32, a / 2 ^ 32] false
      .next (s.finishCmd g c.id (if c.tok.returns then some t else none))

/-- The first poisoned granule of a command logged (R181). -/
def State.logPoison (s : State) (r : Region) (g : Nat) (c : Cmd) (poison : Bool) (da : Nat) : State :=
  if poison && c.firstPoison.isNone then s.raise (0x10 + stackOf (g / 2) (g % 2)) 0x0003 r.vd [BitVec.ofNat 64 da] else s

/-- A granule written at a command's destination and counted (R175, R181): the first poisoned one is logged. `seen` keeps what
the command has overwritten (R178). -/
def State.streamPut (s : State) (r : Region) (g : Nat) (c : Cmd) (dk da : Nat) (v : Payload) (poison keep : Bool)
    (k : State → State) : State :=
  s.reach r.vd g c true dk da true false (fun p =>
    match p.cellOf with
    | none => s.refuseCmd g c
    | some a =>
      let old := s.granule a
      let t := s.putGranule r.vd a v poison
      k (((t.logPoison r g c poison da).touch r.lead).modCmd g c.id (fun y => { y with
        begun := true, pos := y.pos + 1, written := y.written + 1, poisoned := y.poisoned + b2n poison,
        firstPoison := if poison && y.firstPoison.isNone then some da else y.firstPoison,
        seen := if keep && (tfind y.seen a).isNone then tset y.seen a old else y.seen })))

/-- The granule that a command reads as its `k`-th where its own writes may meet its reads (R178, log 9): as it stands, as it
stood before the command, or as a later granule of the command would leave it. `next` names that granule. -/
def State.overlapRead (s : State) (vd g kind : Nat) (c : Cmd) (addr : Nat → Nat) (next : Nat → Option Nat) :
    Nat → Nat → Option (Payload × Bool)
  | 0, _ => none
  | n + 1, k =>
    match (s.spotNow vd g kind (addr k) false c.te).cellOf with
    | none => none
    | some a =>
      let now := s.granule a
      match tfind c.seen a, next k with
      | none, none => some now
      | old, later =>
        match Config.freeNat (s.draws + n) % 3, old, later with
        | 1, some v, _ => some v
        | 2, _, some j => (match s.overlapRead vd g kind c addr next n j with | some v => some v | none => some now)
        | _, _, _ => some now

/-- One granule of a command that reads at a source and writes at a destination. A command moves its granules in ascending order
(DESIGN CHOICE, log 36: R173 leaves their order open). -/
def State.moveGranule (s : State) (r : Region) (g : Nat) (c : Cmd) (sk dk da n : Nat) (addr : Nat → Nat)
    (next : Nat → Option Nat) (bad0 : Bool) : State :=
  s.reach r.vd g c false sk (addr c.pos) false false (fun p =>
    match p.cellOf with
    | none => s.refuseCmd g c
    | some a =>
      let v := (s.overlapRead r.vd g sk c addr next (n - c.pos) c.pos).getD (s.granule a)
      let t := { s.afterRead a with draws := s.draws + (if (tfind c.seen a).isSome || (next c.pos).isSome then n else 0) }
      t.streamPut r g c dk da v.1 (v.2 || bad0) true id)

/-- Which later granule of a command writes an address of the same kind. -/
def laterAt (same : Bool) (dst n a k : Nat) : Option Nat :=
  if same && dst ≤ a && (a - dst) / 32 < n && k < (a - dst) / 32 && (a - dst) % 32 = 0 then some ((a - dst) / 32) else none

/-- Whether a command's destination is a peer range (R452). -/
def Cmd.peerDst (c : Cmd) : Bool :=
  bits (c.tok.w 6) 0 4 = 0 && peerRange ≤ c.tok.w2 0 && c.tok.w2 0 < peerRange + 2 ^ 44

/-- The granules of a list of bytes. -/
def granulesOf (l : List Byte) (n : Nat) : List Payload :=
  (List.range n).map (fun k => BitVec.ofNat 256 (fromLe ((l.drop (32 * k)).take 32)))

/-- One peer send of a whole command (R452): it ends once the send has performed. Granules whose source was poisoned are counted, and
the first is logged (R181). -/
def State.streamSend (s : State) (r : Region) (g : Nat) (c : Cmd) (grans : List (Payload × Bool)) : State :=
  match s.peerPlace r.vd (c.tok.w2 0) true with
  | .peer route o =>
    if s.peerRoom r.vd route && s.sendInOrder r.vd (r.endSource g) route o (32 * grans.length) then
      let first := (grans.findIdx? (fun x => x.2)).map (fun k => c.tok.w2 0 + 32 * k)
      let t := s.logPoison r g c first.isSome (first.getD 0)
      (t.peerSend r.vd route o c.tag (grans.map (fun x => x.1)) (grans.map (fun _ => BitVec.allOnes 32))).modCmd g c.id
        (fun y => { y with begun := true, pos := grans.length, written := grans.length,
                           poisoned := (grans.filter (fun x => x.2)).length, firstPoison := first })
    else s
  | .fault k _ => s.park (.cmd g c.id) k (c.tok.w2 0)
  | _ => s

/-- The source granules of a peer send, with their poison: a flit carries no poison, and the value that it carries for a poisoned granule
is not given (log 2). -/
def State.sendGranules (s : State) (vd g : Nat) (c : Cmd) (kind src n : Nat) (l : List Byte) : List (Payload × Bool) :=
  match s.cellsOf vd g kind false (s.entryOf g c false) (pieces src (32 * n)) with
  | .ok cs => (((granulesOf l n).zip cs).zipIdx).map (fun x =>
      if s.viewBad x.1.2.1 then (Config.freeKey (s.draws + x.2), true) else (x.1.1, false))
  | .error _ => []

/-- `SCOPY` at edge unit `x`, command `y`: its next granule, or its end (R173). -/
def execScopy (s : State) : Out :=
  let g := s.cur.x
  match s.readyStream 0x0A with
  | none => .next s
  | some (r, c) =>
    let t := c.tok
    let n := t.w 4 / 32
    let sk := bits (t.w 6) 4 4
    let dk := bits (t.w 6) 0 4
    let src := t.w2 2
    let dst := t.w2 0
    .next (
      if c.peerDst then
        if c.pos = n then (if s.sendDone c.tag then (s.begin g c).endStream r g c 0 else s)
        else (s.begin g c).readVia r.vd g c false sk src (32 * n) (fun l bad u =>
          ({ u with draws := u.draws + (if bad then n else 0) } : State).streamSend r g c (u.sendGranules r.vd g c sk src n l))
      else if c.pos = n then s.endStream r g c 0
      else (s.begin g c).moveGranule r g c sk dk (dst + 32 * c.pos) n (fun k => src + 32 * k)
        (fun k => laterAt (sk = dk) dst n (src + 32 * k) k) false)

/-- `SZERO` at edge unit `x`, command `y` (R173). -/
def execSzero (s : State) : Out :=
  let g := s.cur.x
  match s.readyStream 0x0D with
  | none => .next s
  | some (r, c) =>
    let n := c.tok.w 4 / 32
    .next (
      if c.peerDst then
        if c.pos = n then (if s.sendDone c.tag then (s.begin g c).endStream r g c 0 else s)
        else s.streamSend r g c (List.replicate n (0, false))
      else if c.pos = n then s.endStream r g c 0
      else (s.begin g c).streamPut r g c (bits (c.tok.w 6) 0 4) (c.tok.w2 0 + 32 * c.pos) 0 false false id)

/-- The list of a command that has not been checked yet, judged at its first turn (R173, R176): none where nothing is to be judged. -/
def State.listTurn (s : State) (vd g : Nat) (c : Cmd) : Option (List (Int × Bool)) :=
  if c.tok.listed && c.list.isNone then some (s.listNow vd g c.tok) else none

/-- `SGATH` at edge unit `x`, command `y` (R173). With `.hand` its list is read, checked and kept at its first turn, before it performs
anything (R176). -/
def execSgath (s : State) : Out :=
  let g := s.cur.x
  match s.readyStream 0x0E with
  | none => .next s
  | some (r, c) =>
    let t := c.tok
    let n := t.w 5
    let sk := bits (t.w 6) 4 4
    let dk := bits (t.w 6) 0 4
    let dst := t.w2 0
    .next (
      match s.listTurn r.vd g c with
      | some l => if listOk sk (t.w2 2) l then (s.begin g c).modCmd g c.id (fun y => { y with list := some l }) else s.refuseCmd g c
      | none =>
        if c.pos = n then s.endStream r g c 0
        else
          let e := s.entryAt r.vd g c c.pos
          let addr : Nat → Nat := fun k => (indexed sk (t.w2 2) (if k = c.pos then e.1 else (s.entryAt r.vd g c k).1).1).getD 0
          (e.2.begin g c).moveGranule r g c sk dk (dst + 32 * c.pos) n addr (fun k => laterAt (sk = dk) dst n (addr k) k) e.1.2)

/-- `SSCAT` at edge unit `x`, command `y` (R173, R178): of the granules aimed at one target any one may remain. -/
def execSscat (s : State) : Out :=
  let g := s.cur.x
  match s.readyStream 0x0F with
  | none => .next s
  | some (r, c) =>
    let t := c.tok
    let n := t.w 5
    let sk := bits (t.w 6) 4 4
    let dk := bits (t.w 6) 0 4
    .next (
      if c.pos = n then s.endStream r g c 0
      else
        let p := s.entryAt r.vd g c c.pos
        let e := p.1
        let s := p.2
        match indexed dk (t.w2 0) e.1 with
        | none => s.refuseCmd g c
        | some da =>
          let again := match (s.spotNow r.vd g dk da true c.te2).cellOf with
            | some a => (tfind c.seen a).isSome
            | none => false
          if again && Config.freeNat s.draws % 2 = 1 then
            { s with draws := s.draws + 1 }.modCmd g c.id (fun y => { y with pos := y.pos + 1, written := y.written + 1 })
          else
            let s := if again then { s with draws := s.draws + 1 } else s
            (s.begin g c).moveGranule r g c sk dk da n (fun k => t.w2 2 + 32 * k) (fun _ => none) e.2)

/-- The tarn address of a granule of a binding's ring. -/
def BindSt.ringAddr (x : BindSt) (n : Nat) : Nat := x.br.depth * 2 ^ 18 + x.br.base + 32 * n % x.br.ring

/-- `SPREF` at edge unit `x`, command `y` (R173): appends its next granule when the ring has room. -/
def execSpref (s : State) : Out :=
  let g := s.cur.x
  match s.readyStream 0x0B with
  | none => .next s
  | some (r, c) =>
    let t := c.tok
    let n := t.w 4 / 32
    match c.binding r with
    | none => .next s
    | some x =>
      .next (
        if c.pos = n then s.endStream r g c 0
        else (s.begin g c).reach r.vd g c false (bits (t.w 6) 4 4) (t.w2 2 + 32 * c.pos) false false (fun p =>
          match p.cellOf with
          | none => s.refuseCmd g c
          | some a =>
            let v := s.granule a
            ((s.begin g c).afterRead a).streamPut r g c 1 (x.ringAddr x.filled) v.1 v.2 false
              (fun u => u.modNamed r c (fun y => { y with filled := y.filled + 1 }))))

/-- A granule moved from a tarn address of the stack to a command's destination, then `k`. -/
def State.flushGranule (s : State) (r : Region) (g : Nat) (c : Cmd) (from0 : Nat) (k : State → State) : State :=
  match (s.spot r.vd g 1 from0 false false none).cellOf with
  | none => s.refuseCmd g c
  | some a =>
    let v := s.granule a
    (s.begin g c).streamPut r g c (bits (c.tok.w 6) 0 4) (c.tok.w2 0 + 32 * c.pos) v.1 v.2 false k

/-- `SFLUSH` at edge unit `x`, command `y` (R173). -/
def execSflush (s : State) : Out :=
  let g := s.cur.x
  match s.readyStream 0x0C with
  | none => .next s
  | some (r, c) =>
    match c.binding r with
    | none => .next s
    | some x =>
      let s3 := (vg x.br.strides 3 0).toNat
      .next (
        if x.br.multi then
          match x.softs with
          | [] => s
          | b :: l =>
            if 32 * c.pos < s3 then
              s.flushGranule r g c (x.br.depth * 2 ^ 18 + x.br.base + b * s3 + 32 * c.pos) id
            else (s.modNamed r c (fun y => { y with softs := l, gens := y.gens ++ [b] })).endStream r g c 0
        else if c.pos = c.tok.w 4 / 32 then s.endStream r g c 0
        else if x.removed < x.filled then
          s.flushGranule r g c (x.ringAddr x.removed)
            (fun u => u.modNamed r c (fun y => { y with removed := y.removed + 1 }))
        else s.endStream r g c 0)

/-- `SSWAP` at edge unit `x`, command `y` (R173). -/
def execSswap (s : State) : Out :=
  let g := s.cur.x
  match s.readyStream 0x09 with
  | none => .next s
  | some (r, c) =>
    .next (((s.begin g c).endStream r g c 0).soon .bufferHandOver r.lead (r.placeOf c.inc) c.bindIx)

/-- Whether a generator has begun a level-3 iteration (R173): it has produced, taken or begun to translate its first
iteration. -/
def State.hasBegun (s : State) (r : Region) (c : Cmd) (x : BindSt) (b : Block) (j : Nat) : Bool :=
  let m := b.img
  let n := if x.br.dir = 0 then m.produced x.it else x.it
  let first := j * (levels m.loops 0 * levels m.loops 1 * levels m.loops 2)
  first < n || (first = n && (x.park.isSome || !x.takeq.isEmpty
    || s.walks.any (fun w => w.who = .binding r.lead (r.placeOf c.inc) c.bindIx)))

/-- `SADV` at edge unit `x`, command `y` (R173): status 3 where the generator has begun the iteration. -/
def execSadv (s : State) : Out :=
  let g := s.cur.x
  match s.readyStream 0x08 with
  | none => .next s
  | some (r, c) =>
    match c.binding r, r.blockOf c.inc with
    | some x, some b =>
      if s.hasBegun r c x b (c.tok.w 2) then .next ((s.begin g c).endStream r g c 3)
      else .next (((s.begin g c).modNamed r c (fun y => { y with
        adv := y.adv ++ [(c.tok.w 2, signed (c.tok.w2 0) 64)] })).endStream r g c 0)
    | _, _ => .next s

/-! ### Scrubbing and clearing (R159, R179, R180) -/

/-- The event source of the scrubber of a cell (R483). -/
def scrubSource (a : Nat) : Nat :=
  if isTarn a then 0x10 + stackOf ((a - 2 ^ 46) / 2 ^ 22) ((a - 2 ^ 46) / 2 ^ 21 % 2)
  else if isRes a then 0x10 + (a - resBase) / 0x4000000
  else 0x40 + pilotOfCol (colOf ((a - 2 ^ 47) / 4096))

/-- The VD that an event about a cell names: 255, the scrubber knows none. -/
def scrubVd : Nat := 255

/-- An error of bank `k` of a granule corrected and counted (R180): eight within one second mark the bank failed. Only the corrections of
scrub passes are counted, not those of reads (DESIGN CHOICE, log 20: R180 does not say). -/
def State.corrected (s : State) (a k : Nat) : State :=
  let key := storageOf a * 16 + k
  let now := s.chron.toNat
  let times := ((tget s.banks key []).filter (fun t => now < t + 1000000000)) ++ [now]
  let t := { s with banks := tset s.banks key times, upsets := tdel s.upsets (unitOf a) }.raise (scrubSource a) 0x0001 scrubVd
    [BitVec.ofNat 64 (storageOf a), BitVec.ofNat 64 a]
  if times.length ≥ 8 && !s.failed.contains key then
    { t with failed := insertSorted t.failed key }.raise (scrubSource a) 0x0004 scrubVd
      [BitVec.ofNat 64 (storageOf a), BitVec.ofNat 64 k]
  else t

/-- SCRUB_PASS at the granule of cell `x` (R179, R180): an error in one bank is corrected; a granule that its code cannot correct is
rewritten with the poison marker. -/
def execScrubPass (s : State) : Out :=
  let a := s.cur.x
  if !isSram a || s.poisonedAt a then .next s
  else if s.lost a then .next ((s.poisonUnit a).raise (scrubSource a) 0x0003 scrubVd [BitVec.ofNat 64 a])
  else
    match s.bankErrors a with
    | k :: _ => .next (s.corrected a k)
    | [] => .next s

/-- The first cell and the size of a storage: kind 0 a tarn, 1 a reservoir quarter, 2 the ponds of a band. -/
def storageCells (kind i : Nat) : Nat × Nat :=
  match kind with
  | 0 => (2 ^ 46 + i * 2 ^ 18, 2 ^ 18)
  | 1 => (resBase + i * 2 ^ 24, 2 ^ 24)
  | _ => (pondCell (1024 * i) 0, 2 ^ 22)

/-- The key of a storage that waits to be cleared. -/
def storageKey (kind i : Nat) : Nat := kind * 2 ^ 32 + i

/-- A storage made to read zero, without poison. -/
def State.clearStorage (s : State) (kind i : Nat) : State :=
  let c := storageCells kind i
  { s.putZero c.1 c.2 with
    poison := s.poison.filter (fun a => a < c.1 || c.1 + c.2 ≤ a),
    upsets := s.upsets.filter (fun x => x.1 < c.1 || c.1 + c.2 ≤ x.1) }

end Sys2Proof.Machine
end

