-- ==== Sys2Proof/Machine/Eddy.lean ====
section
/-!
DEFINITION. The eddy units: fabric atomics, the retirement of suppression entries, and the completion of convoy phases
(R117 to R119, R350 to R367, R453, R456, R457; spec/13_eddy.md).
-/
namespace Sys2Proof.Machine
open Sys2Proof

/-! ### Fabric atomics (R351 to R355) -/

/-- The type field of an eddy command (R352). -/
def Token.ety (t : Token) : Nat := bits (t.w 7) 8 2

/-- Operand `v` of a size in bytes. -/
def Token.ev (t : Token) (size : Nat) : Nat := if size = 4 then t.w 0 else t.w2 0
/-- The compare value `k`. -/
def Token.ek (t : Token) (size : Nat) : Nat := if size = 4 then t.w 2 else t.w2 2

/-- The response of an eddy command (R354): poisoned unless its status is 0. The original of a command that did not perform
is 0 (R361; log 31). -/
def Token.eddyAnswer (t : Token) (size orig status flags : Nat) : Token :=
  t.answer [orig % 2 ^ 32, if size = 4 then 0 else orig / 2 ^ 32 % 2 ^ 32, status, flags % 256] (status != 0)

/-- An eddy command that has performed, with its response unless W6[0] asks for none (R354, R362). -/
def State.eddyDone (s : State) (g : Nat) (c : Cmd) (size orig status flags : Nat) : State :=
  s.finishCmd g c.id (if c.tok.returns then some (c.tok.eddyAnswer size orig status flags) else none)

/-- What a command does to its location: from the original value, the new value, the value returned, and flags. -/
abbrev EddyFn := Token → Nat → Nat → Nat × Nat × Nat

/-- A command at its location (R353, R355, R358, R361): the read and the write are one action; a tag that is known is
answered from the table; a poisoned or failing target is not changed. -/
def State.eddyApply (s : State) (r : Region) (g : Nat) (c : Cmd) (size x : Nat) (f : EddyFn) : State :=
  let op := c.op * 4 + c.tok.ety + 0x100
  match s.lookup c.tag (locOf x) op with
  | .again e => s.eddyDone g c size e.result.toNat 0 e.flags
  | .mismatch => (s.mismatched c.tag (stackOfCell x)).eddyDone g c size 0 3 0
  | .fresh =>
    match s.check x with
    | .failed => (s.afterRead x).eddyDone g c size 0 2 0
    | .poisoned => (s.raise (0x10 + stackOfCell x) 0x0013 r.vd [BitVec.ofNat 64 (c.tok.w2 4)]).eddyDone g c size 0 2 0
    | .clean =>
      let q := f c.tok size (s.readLe x size)
      ((s.storeUnit x (toLe size q.1) false).enter c.tag (locOf x) op (BitVec.ofNat 64 q.2.1) 0 q.2.2).eddyDone g c size
        q.2.1 0 q.2.2

/-- An eddy command arrives at the unit of its location, whose window takes 64 (R350, R357): it keeps its place in the order of arrival
and the cell that its entry gave. -/
def State.arriveUnit (s : State) (g : Nat) (c : Cmd) (x : Nat) : State :=
  if (s.atUnit x).length < 64 then
    ({ s with cmdNo := s.cmdNo + 1 } : State).modCmd g c.id (fun y => { y with begun := true, unit := some (s.cmdNo, x) })
  else s

/-- Whether a command that arrived `n`-th at the unit of a cell is the first of its location (R357). -/
def State.firstAt (s : State) (n x : Nat) : Bool := (s.atUnit x).all (fun u => unitOf u.2 != unitOf x || n ≤ u.1)

/-- An eddy command of an opcode at edge unit `x`, command `y`: its address, its arrival at its unit, and then its turn at its
location. A target that is no HBM or reservoir address is refused (R117). -/
def State.eddyRun (s : State) (op : Nat) (f : EddyFn) : Out :=
  match s.readyOp op with
  | none => .next s
  | some (r, c) =>
    match c.unit with
    | some (n, x) => .next (if s.firstAt n x then s.eddyApply r s.cur.x c (eddySize op c.tok.ety) x f else s)
    | none =>
      .next (s.reach r.vd s.cur.x c false 0 (c.tok.w2 4) true false (fun p =>
        match p.cellOf with
        | some x => if isHbm x || isRes x then s.arriveUnit s.cur.x c x else s.refuseCmd s.cur.x c
        | none => s.refuseCmd s.cur.x c))

/-- An effect without flags that returns the original. -/
def plainFn (f : Token → Nat → Nat → Nat) : EddyFn := fun t n m => (f t n m % 2 ^ (8 * n), m, 0)

/-- Whether a type is signed (R352). -/
def signedType (t : Token) : Bool := t.ety % 2 = 0

/-- The smaller of two values by a type's signedness. -/
def lessBy (sgn : Bool) (n a b : Nat) : Bool := if sgn then signed a (8 * n) < signed b (8 * n) else a < b

/-- `AADD` (R353). -/
def execAadd (s : State) : Out := s.eddyRun 0x10 (plainFn (fun t n m => m + t.ev n))

/-- The format of `AFADD` (R352). -/
def afaddFmt (ty : Nat) : Fmt := match ty with | 0 => .f32 | 1 => .bf16 | _ => .f16

/-- The subwords of an `AFADD`, added in place with the flags that each raises. -/
def afaddGo (f : Fmt) (m v : Nat) : Nat → FEnv → Nat × FEnv
  | 0, env => (0, env)
  | n + 1, env =>
    let r := afaddGo f m v n env
    let q := faddF f (sub (BitVec.ofNat 32 m) n f.width) (sub (BitVec.ofNat 32 v) n f.width) .rne r.2
    (r.1 + q.1 * 2 ^ (f.width * n), q.2)

/-- `AFADD` (R353): the flags go to the response. -/
def execAfadd (s : State) : Out := s.eddyRun 0x11 (fun t _ m =>
  let f := afaddFmt t.ety
  let r := afaddGo f m (t.w 0) (32 / f.width) { aflags := 0, srstate := 0 }
  (r.1, m, r.2.aflags.toNat))

/-- `AMIN` (R353). -/
def execAmin (s : State) : Out :=
  s.eddyRun 0x12 (plainFn (fun t n m => if lessBy (signedType t) n (t.ev n) m then t.ev n else m))
/-- `AMAX` (R353). -/
def execAmax (s : State) : Out :=
  s.eddyRun 0x13 (plainFn (fun t n m => if lessBy (signedType t) n m (t.ev n) then t.ev n else m))
/-- `AAND` (R353). -/
def execAand (s : State) : Out := s.eddyRun 0x14 (plainFn (fun t n m => Nat.land m (t.ev n)))
/-- `AOR` (R353). -/
def execAor (s : State) : Out := s.eddyRun 0x15 (plainFn (fun t n m => Nat.lor m (t.ev n)))
/-- `AXOR` (R353). -/
def execAxor (s : State) : Out := s.eddyRun 0x16 (plainFn (fun t n m => Nat.xor m (t.ev n)))
/-- `ASWAP` (R353). -/
def execAswap (s : State) : Out := s.eddyRun 0x17 (plainFn (fun t n _ => t.ev n))
/-- `ACAS` (R353). -/
def execAcas (s : State) : Out := s.eddyRun 0x18 (plainFn (fun t n m => if m = t.ek n then t.ev n else m))
/-- `AINC` (R353): unsigned whatever the type. -/
def execAinc (s : State) : Out := s.eddyRun 0x19 (plainFn (fun t n m => if m ≥ t.ev n then 0 else m + 1))

/-- Bytes chosen by a mask. -/
def maskBytes (mask m v : Nat) : Nat → Nat
  | 0 => 0
  | n + 1 => maskBytes mask m v n + (if bit mask n then v / 2 ^ (8 * n) % 256 else m / 2 ^ (8 * n) % 256) * 2 ^ (8 * n)

/-- `SUPD` (R353): 16 bytes under a mask; it returns 0. -/
def execSupd (s : State) : Out :=
  s.eddyRun 0x1A (fun t n m => (maskBytes (bits (t.w 6) 16 16) m (t.payload.toNat % 2 ^ 128) n, 0, 0))

/-- `EFLUSH` at edge unit `x`, command `y` (R353, R354): it performs once every earlier command of its port has performed at
`DEVICE` scope. -/
def execEflush (s : State) : Out :=
  match s.readyOp 0x1B with
  | none => .next s
  | some (_, c) => .next (s.finishCmd s.cur.x c.id (some (c.tok.answer [] false)))

/-! ### Retirement (R362, R453) -/

/-- The port on which a VD reaches a module over a tenant channel: its route's, else any port that leads there. -/
def State.portTo (s : State) (vd vc far : Nat) : Option Nat :=
  match (s.vd vd).routes.find? (fun x => x.2.vc = vc && (s.port x.2.port).far = far) with
  | some x => some x.2.port
  | none => (s.hb.ports.find? (fun p => p.2.far = far)).map (fun p => p.1)

/-- SUPPRESSION_RETIRE of VD `x`, tag `y` (R362, R453): the entry of the table goes; a peer send that has been completed is
retired at its receiver by a retire flit on channel 25. -/
def execSuppressionRetire (s : State) : Out :=
  let vd := s.cur.x
  let tag := s.cur.y
  let s := s.modVd vd (fun d => { d with
    supp := d.supp.filter (fun e => e.tag != tag), spilledSupp := d.spilledSupp.filter (fun e => e.tag != tag) })
  match s.hb.unretired.find? (fun e => e.tag = tag && e.status != 255) with
  | none => .next s
  | some e =>
    let t := { s with hb := { s.hb with unretired := s.hb.unretired.filter (fun u => u.tag != tag) } }
    match t.portTo vd e.vc e.module with
    | some p =>
      .next (t.enqueue p { Flit.blank with typ := 4, vc := 25, dst := 0, src := vd,
                                           recs := [{ tag := tag, op := 0, step := 0, phase := 0 }] })
    | none => .next t

/-! ### `WINREL` (R129, R346, R364) -/

/-- Whether a virtual address leads a VD into a window. -/
def State.inWindow (s : State) (vd w a : Nat) : Bool :=
  aperture ≤ a && a < aperture + 2 ^ 40 && (match s.windowPlace vd a with | .window k _ => k = w | _ => false)

/-- The kind and address that a command stores to, or applies its atomic at. -/
def Cmd.target (c : Cmd) : Nat × Nat :=
  if c.isRequest then (bits (c.tok.w 7) 7 2, c.tok.w2 0)
  else if c.isEddy then (0, c.tok.w2 4)
  else (bits (c.tok.w 6) 0 4, c.tok.w2 0)

/-- Whether a command stores to memory or applies an atomic (R172, R279, R353, R375, R228): `XJOIN`, `CVTOUT`, the stream commands
that write, the eddy commands but `EFLUSH`, `SPRG`, and `STE`. -/
def Cmd.writes (c : Cmd) : Bool :=
  (c.isEddy && c.op != 0x1B) || [0x01, 0x07, 0x0A, 0x0C, 0x0D, 0x0E, 0x0F, 0x1C, 65].contains c.op

/-- The kinds and addresses that a command of a column end may store to, or apply its atomic at: those of its target, of the scale array of
an `XJOIN` (R279), and of the entries of an `SSCAT`'s list (R176). -/
def State.storesAt (s : State) (vd g : Nat) (c : Cmd) : List (Nat × Nat) :=
  let dk := bits (c.tok.w 6) 0 4
  if !c.writes then []
  else if c.op = 0x01 then [c.target, (bits (c.tok.w 6) 4 4, c.tok.w2 2)]
  else if c.op = 0x0F then
    (List.range (c.tok.w 5)).filterMap (fun k => (indexed dk (c.tok.w2 0) (s.entryAt vd g c k).1.1).map (fun a => (dk, a)))
  else [c.target]

/-- Whether stores or atomics of a region to a window have yet to perform (R129): those of its pilots, of its column ends, and of its store
bindings. -/
def State.openIn (s : State) (w : Nat) (r : Region) (pilot : Nat → Pilot) (edge : Nat → Edge) : Bool :=
  (List.range r.bands).any (fun i => (pilot i).pend.any (fun x => x.window = some w && !x.isLoad))
    || (List.range (16 * r.bands)).any (fun i => (edge i).cmds.any (fun c =>
        (s.storesAt r.vd (16 * r.lead + i) c).any (fun x => x.1 = 0 && s.inWindow r.vd w x.2)))
    || [r.cur, r.succ, r.prev].any (fun o => o.any (fun b => b.binds.any (fun x =>
        !x.takeq.isEmpty && x.br.target = 0 && s.inWindow r.vd w (x.address b.img x.it).2)))

/-- Whether stores or atomics of a VD to a window have yet to perform (R129): those of its regions, and those that its save records
hold. -/
def State.windowOpen (s : State) (vd w : Nat) : Bool :=
  (s.regions.filter (fun r => r.vd = vd)).any (fun r => s.openIn w r (fun i => s.pilot (r.lead + i)) (fun i => s.edge (16 * r.lead + i)))
    || (s.vd vd).saves.any (fun k => s.openIn w k.region (fun i => tget k.pilots i Pilot.reset) (fun i => tget k.edges i Edge.reset))

/-- `WINREL` (R129, R346, R364): it waits for the VD's earlier stores and atomics to the window, then makes its tagged
entry at the line at aperture offset 0, which retires as it has performed. -/
def execWinrel (a : Reg) (s : State) : Out :=
  match s.handleSlot s.myVd (s.me.get a) with
  | none => s.trap 5 1 (s.me.get a)
  | some w =>
    if s.windowOpen s.myVd w || !s.mayTag then .next s
    else
      let t := s.myTag
      let loc := match tfind s.cipher.windows w with
        | some win => (match win.frames[0]? with | some f => f.1 * 4096 | none => 0)
        | none => 0
      match t.2.lookup t.1 loc 0x41 with
      | .fresh =>
        let u := (t.2.enter t.1 loc 0x41 0 0 0).soon .suppressionRetire s.myVd t.1 0
        .next (u.setMe u.me.step)
      | .again _ => .next (t.2.setMe t.2.me.step)
      | .mismatch => let u := t.2.mismatched t.1 (stackOfCell loc); .next (u.setMe u.me.step)

/-! ### Convoy phases (R366, R456, R457) -/

/-- The waiting `CVWAIT`s of a module answered with a phase and its step (R456, R457); their arrivals are taken. -/
def State.answerWaits (s : State) (vd c m phase step : Nat) : State :=
  match s.convoy vd c with
  | none => s
  | some v =>
    let mine := v.waits.filter (fun w => moduleOf w.1 = m)
    let s := s.setConvoy vd c { v with
      waits := v.waits.filter (fun w => moduleOf w.1 != m),
      done := v.done.filter (fun d => !mine.any (fun w => w.1 = d.1)) }
    mine.foldl (fun t w => t.convoyReply w.2.2 vd { tag := w.2.1, op := 5, step := step, phase := phase } (convoyWhat 3 c)) s

/-- CONVOY_PHASE_COMPLETE of VD `x`, convoy `y` (R38, R345, R366): when the last member has arrived the phase completes, the
next opens with the members of later phases, and each waiting `CVWAIT` is released. With slack control, the step of each
module is settled first, and its releases carry it (R457). -/
def execConvoyPhaseComplete (s : State) : Out :=
  let vd := s.cur.x
  let c := s.cur.y
  match s.convoy vd c with
  | none => .next s
  | some v =>
    if !v.full then .next s
    else
      let now := s.chron.toNat
      let w : Convoy := { v with
        held := [], phase := v.phase + 1, members := v.later, arrived := [], lastDone := now, seeded := v.slackOn,
        period := if v.slackOn && v.seeded then now - v.lastDone + 1 else 0 }
      let t := v.held.foldl (fun (t : State) (x : Nat × Flit) => t.soon (.convoyFlit x.2) x.1 1 0) (s.setConvoy vd c w)
      let mods := (v.slacks.map (fun x => x.1)).eraseDups
      if v.slackOn then .next (mods.foldl (fun t m => t.soon .slackUpdate vd c m) t)
      else .next (mods.foldl (fun t m => t.answerWaits vd c m v.phase.toNat (v.stepOf m)) t)

end Sys2Proof.Machine
end

