-- ==== Sys2Proof/Machine/Spring.lean ====
section
/-!
DEFINITION. The spring decoders: compressed blocks, `SPRG` and `SPRGQ` (R369 to R382; spec/14_spring.md).
-/
namespace Sys2Proof.Machine
open Sys2Proof

/-! ### Decoding a block (R370 to R373) -/

/-- A block header's fields. -/
structure SpHead where
  coded : Bool
  wide : Bool
  d : Nat
  p : Nat
  check : Nat
  deriving DecidableEq, Repr

/-- The header of block `k` for `t` tokens a block, or the first fault in the order of R373. -/
def spHead (l : List Byte) (seq t : Nat) : Except Nat SpHead :=
  let flags := rd l 2 1
  let d := rd l 4 2
  let p := rd l 6 2
  let stored := bit flags 1
  if rd l 0 2 != 0x5053 || flags ≥ 4 || rd l 3 1 != 0 || rd l 0x10 16 != 0 || (stored && bit flags 0) then .error 1
  else if rd l 0x0C 4 != seq % 2 ^ 32 then .error 2
  else if d != 32 * t || p = 0 || p > 16384 || (stored && p != d) then .error 3
  else .ok { coded := !stored, wide := bit flags 0, d := d, p := p, check := rd l 8 4 }

/-- The bytes of the code-length table. -/
def SpHead.table (h : SpHead) : Nat := if !h.coded then 0 else if h.wide then 128 else 8

/-- The granules of a block, header included. -/
def SpHead.granules (h : SpHead) : Nat := (32 + h.table + h.p + 31) / 32

/-- The code length of symbol `k`. -/
def codeLen (tab : List Byte) (k : Nat) : Nat := bits (rd tab (k / 2) 1) (4 * (k % 2)) 4

/-- The symbols of each length from 1 to 15, rising. -/
def codeTable (tab : List Byte) (n : Nat) : List (List Nat) :=
  (List.range 15).map (fun l => (List.range n).filter (fun k => codeLen tab k = l + 1))

/-- Whether a code-length table is valid (R371). -/
def codesValid (t : List (List Nat)) : Bool :=
  let total := ((List.range 15).map (fun l => (lget t l []).length * 2 ^ (14 - l))).sum
  total = 2 ^ 15 || ((t.map List.length).sum = 1 && (lget t 0 []).length = 1)

/-- One symbol from bit `i` of the payload: the symbol and the next bit; none is fault 0x05. -/
def symbolAt (pay limit : Nat) : List (List Nat) → Nat → Nat → Nat → Option (Nat × Nat)
  | [], _, _, _ => none
  | syms :: rest, first, v, i =>
    if i ≥ limit then none
    else
      let v := 2 * v + pay / 2 ^ i % 2
      if first ≤ v && v < first + syms.length then (syms[v - first]?).map (fun x => (x, i + 1))
      else symbolAt pay limit rest ((first + syms.length) * 2) v (i + 1)

/-- A run of symbols: those decoded and the next bit. -/
def symbolsAt (pay limit : Nat) (t : List (List Nat)) : Nat → Nat → Option (List Nat × Nat)
  | 0, i => some ([], i)
  | n + 1, i =>
    match symbolAt pay limit t 0 0 i with
    | none => none
    | some (x, j) => (symbolsAt pay limit t n j).map (fun r => (x :: r.1, r.2))

/-- Bytes from symbols of 16: the first of each two is the low nibble. -/
def nibbleBytes : List Nat → List Byte
  | a :: b :: l => BitVec.ofNat 8 (a + 16 * b) :: nibbleBytes l
  | _ => []

/-- The decoded bytes of a block after its header, or its fault (R371 to R373). -/
def spDecode (h : SpHead) (l : List Byte) : Except Nat (List Byte) :=
  let tab := l.take h.table
  let pay := (l.drop h.table).take h.p
  let out : Except Nat (List Byte) :=
    if !h.coded then .ok pay
    else
      let t := codeTable tab (if h.wide then 256 else 16)
      if !codesValid t then .error 4
      else
        let n := fromLe pay
        match symbolsAt n (8 * h.p) t (if h.wide then h.d else 2 * h.d) 0 with
        | none => .error 5
        | some (x, i) =>
          if n / 2 ^ i != 0 || (i + 7) / 8 != h.p then .error 5
          else .ok (if h.wide then x.map (BitVec.ofNat 8) else nibbleBytes x)
  match out with
  | .error f => .error f
  | .ok b => if (crc32c b).toNat = h.check then .ok b else .error 6

/-! ### Commands (R369, R376 to R380) -/

/-- Tokens a block, blocks, source kind, first sequence number. -/
def Cmd.spT (c : Cmd) : Nat := bits (c.tok.w 6) 16 8

/-- The decoder of a column end: its number on the memory-port die (R369). -/
def decoderOf (g : Nat) : Nat := g / 2 % 64 % 16

/-- The four column ends that a decoder serves. -/
def decoderEnds (g : Nat) : List Nat := (List.range 4).map (fun q => 2 * (g / 128 * 64 + decoderOf g + 16 * q) + g % 2)

/-- A spring command whose turn has come at its decoder: no earlier one is in hand at its four column ends (R369). -/
def State.readySpring (s : State) (op : Option Nat) : Option (Region × Cmd) :=
  match s.cmdReady s.cur.x s.cur.y with
  | some (r, c) =>
    if c.isSpring && (match op with | some o => c.op = o | none => c.begun)
        && (decoderEnds s.cur.x).all (fun g => (s.edge g).cmds.all (fun d => !d.isSpring || c.id ≤ d.id)) then some (r, c)
    else none
  | none => none

/-- A spring command begins. -/
def State.beginSpring (s : State) (op : Nat) : Out :=
  match s.readySpring (some op) with
  | some (_, c) =>
    if c.begun then .next s else .next ((s.begin s.cur.x c).soon .springBlockDecoded s.cur.x c.id 0)
  | none => .next s

/-- `SPRG` at edge unit `x`, command `y` (R374, R376). -/
def execSprg (s : State) : Out := s.beginSpring 0x1C
/-- `SPRGQ` at edge unit `x`, command `y` (R374, R376). -/
def execSprgq (s : State) : Out := s.beginSpring 0x1D

/-- The output of a block: written, or sent as tokens, without what was complete of it before a walk, a park or a restore (R379, R382); a
poisoned one is zero and poisoned (R376, R377). A walk or a park on the way keeps the block as it was decoded. -/
def State.springOut (s : State) (r : Region) (g : Nat) (c : Cmd) (l : List Byte) (poison : Bool) (off : Nat)
    (failed : Option (Nat × Nat × Nat)) : State :=
  let t := c.tok
  let n := c.spT
  let count : State → State := fun u =>
    let v := (u.touch r.lead).modCmd g c.id (fun y => { y with
      pos := y.pos + 1, written := y.written + b2n (!poison), poisoned := y.poisoned + b2n poison, off := off,
      failed := failed, part := 0, block := none, starts := ((c.off :: y.starts).take 3) })
    if c.pos + 1 = t.w 4 then v.soon .springResponse g c.id 0 else v
  if c.op = 0x1C then
    (s.modCmd g c.id (fun y => { y with block := some (l, poison, off) })).writeVia r.vd g c true (bits (t.w 6) 0 4) (t.w2 0 + 32 * n * c.pos) (if poison then List.replicate (32 * n) 0 else l) poison 0
      count
  else
    let toks := (List.range n).map (fun j =>
      ({ payload := if poison then 0 else BitVec.ofNat 256 (fromLe ((l.drop (32 * j)).take 32)), kind := 0, round := t.round,
         tag := BitVec.ofNat 2 (bits (t.w 6) 8 2), poison := poison, src := 0 } : Token))
    count (s.modEdge g (fun x => { x with springs := x.springs ++ toks.drop c.part }))

/-- A block that fails stops the stream, with one event: the command is failed from then on, and the whole output of the block is poisoned,
with what a reading before a restore had completed of it (R377). -/
def State.springFail (s : State) (r : Region) (g : Nat) (c : Cmd) (code : Nat) : State :=
  let u := s.raise (0x10 + stackOf (g / 2) (g % 2)) 0x0012 r.vd
    [BitVec.ofNat 64 (decoderOf g), BitVec.ofNat 64 g, BitVec.ofNat 64 c.pos, BitVec.ofNat 64 code]
  let f : Option (Nat × Nat × Nat) := some (c.pos, code, c.off)
  (u.modCmd g c.id (fun y => { y with failed := f, part := if c.op = 0x1C then 0 else y.part })).springOut r g
    { c with part := if c.op = 0x1C then 0 else c.part } [] true c.off f

/-- A block whose header has been read. A source of kind 2 whose block passes the end of its quarter ends the command with element fault
0x14 and no response, with the blocks before it performed (DESIGN CHOICE, log 36: R375 names the start offset only). -/
def State.springBody (s : State) (r : Region) (g : Nat) (c : Cmd) (h : SpHead) : State :=
  let t := c.tok
  let kind := bits (t.w 6) 4 4
  let a := t.w2 2 + c.off
  let n := h.granules
  match s.cellsOf r.vd g kind false c.te (pieces (a + 32) (32 * (n - 1))) with
  | .error e => s.stopCmd g c e
  | .ok cs =>
    let u := cs.foldl (fun t x => t.afterRead x.1) s
    let next := c.off + 32 * n
    if cs.any (fun x => s.viewBad x.1) then u.springOut r g c [] true next none
    else
      match spDecode h (cs.flatMap (fun x => s.view x.1 x.2)) with
      | .ok b => u.springOut r g c b false next none
      | .error f => u.springFail r g c f

/-- SPRING_BLOCK_DECODED at edge unit `x`, command `y` (R371 to R373, R376 to R379): one block is read once an output buffer is
free, decoded and checked, and its output released; after a failed block each later one is poisoned unread. The granules of a block are
read in one step, and the output of a block is written before the next is read (DESIGN CHOICE, log 36: R381 leaves them unordered). -/
def execSpringBlockDecoded (s : State) : Out :=
  let g := s.cur.x
  match s.readySpring none with
  | none => .next s
  | some (r, c) =>
    let t := c.tok
    if c.pos ≥ t.w 4 || (s.edge g).springs.length > c.spT then .next s
    else if c.failed.isSome then .next (s.springOut r g c [] true c.off c.failed)
    else .next (
      match c.block with
      | some b => s.springOut r g c b.1 b.2.1 b.2.2 none
      | none =>
        s.reach r.vd g c false (bits (t.w 6) 4 4) (t.w2 2 + c.off) false false (fun p =>
          match p.cellOf with
          | none => s.refuseCmd g c
          | some a =>
            if s.viewBad a then (s.afterRead a).springFail r g c 7
            else
              match spHead (s.view a 32) (t.w 5 + c.pos) c.spT with
              | .error f => s.springFail r g c f
              | .ok h => s.springBody r g c h))

/-- The status of a spring command that has performed (R380). -/
def Cmd.springStatus (c : Cmd) : Nat := if c.failed.isSome then 2 else if c.poisoned > 0 then 1 else 0

/-- SPRING_RESPONSE at edge unit `x`, command `y` (R376, R380): every block has been written, or every token taken into the
end router; the response follows where it is asked for. -/
def execSpringResponse (s : State) : Out :=
  let g := s.cur.x
  match (s.edge g).find s.cur.y with
  | none => .next s
  | some c =>
    if !c.isSpring || !c.begun || c.pos < c.tok.w 4 || (c.op = 0x1D && !(s.edge g).springs.isEmpty) then .next s
    else
      let f := c.failed.getD (0xFFFFFFFF, 0, 0)
      let t := c.tok.answer [c.springStatus, c.written, c.poisoned, f.1, f.2.1, f.2.2 % 2 ^ 32] false
      .next (s.finishCmd g c.id (if c.tok.returns then some t else none))

end Sys2Proof.Machine
end

