-- ==== Sys2Proof/Machine/Region.lean ====
section
/-!
DEFINITION. The region controller: the end of a background load, commit, block faults, element faults, blocked elements
(R22, R34 to R36, R40, R216 to R218, R236 to R240, R330, R331, R334, R335, R415).
-/
namespace Sys2Proof.Machine
open Sys2Proof

/-! ### Loads in the background (R331) -/

/-- The word that trap 0x000A shows for a failed check (R320): code, column, row. -/
def Fail.word (f : Fail) (lead : Nat) : DWord := BitVec.ofNat 64 (f.code + (8 * lead + f.col) * 2 ^ 8 + f.row * 2 ^ 17)

/-- BLOCK_LOAD_ENDS at region `x` (R331): transfer and checks end, and the shadow is LOADED, or FAILED with what a later
`BLKGO` or `BLKARM` reports. Every element that loads an illegal slot or switch word is blocked (R71, R235, R236), unless a block runs, which a load never
disturbs. -/
def execBlockLoadEnds (s : State) : Out :=
  match s.region s.cur.x with
  | none => .next s
  | some r =>
    if r.shadow ≠ .loading || s.gated r then .next s
    else
      match s.loadImage r.vd r.lead r.bands r.loadAddr with
      | .image m => .next ((s.install r m).modRegion r.lead (fun q => { q with shadow := .loaded, shImg := some m }))
      | .fail f =>
        let t := s.modRegion r.lead (fun q => { q with shadow := .failed, failInfo := f.word r.lead, failSub := 0 })
        .next (if r.running = .none then (s.loadBlocks r.vd r.lead r.bands r.loadAddr f).foldl (fun (t : State) e =>
          t.modElem e (fun m => { m with core := { m.core with blocked := true } })) t else t)
      | .fetch c bad =>
        .next ((s.afterWalk bad).modRegion r.lead (fun q => { q with
          shadow := .failed, failInfo := BitVec.ofNat 64 r.loadAddr, failSub := c }))

/-! ### Commit (R34, R334) -/

/-- Whether the four conditions of R34 hold for a block. -/
def Block.complete (b : Block) : Bool :=
  (List.range 32).all (fun l => !bit b.img.storeMask l ||
      b.emitters.all (fun x => x.2 != l || b.counted.contains x))
    && (List.range 16).all (fun n => !bit b.img.wbMask n || (tfind b.wbs n).isSome)
    && b.branch.isSome
    && b.sinks.all (fun k => b.sunk.contains k)

/-- Whether every sink of a block has ended and no branch token was produced (R35). -/
def Block.sterile (b : Block) : Bool := !b.sinks.isEmpty && b.sinks.all (fun k => b.sunk.contains k) && b.branch.isNone

/-- Whether every command and request of a block has performed at every column end of its region, loads included, with its stores
performed at `SYSTEM` scope where its header asks for that (R34, R105, R111, R120, R126). -/
def State.drained (s : State) (r : Region) (b : Block) : Bool :=
  r.ends.all (fun g => (s.edge g).cmds.all (fun c => c.inc != b.inc)) && (!bit b.img.flags 2 || s.sysReady r.vd)

/-- The running block of a region, where its conditions hold (R34, R334): a block entered by swap waits for the last element to
swap. -/
def Region.committing (r : Region) : Option Block :=
  if r.running = .running && !(r.shadow = .swapping && r.succ.isNone) then r.cur.filter (fun b => b.complete) else none

/-- The walks of the bindings of a committed block and of its successor go on under the places that the blocks take; those of a block
that had gone before it end. -/
def State.passWalks (s : State) (lead : Nat) : State :=
  { s with walks := s.walks.filterMap (fun w =>
      match w.who with
      | .binding l y b =>
        if l ≠ lead then some w
        else if y = 0 then some { w with who := .binding l 2 b }
        else if y = 1 then some { w with who := .binding l 0 b }
        else none
      | _ => some w) }

/-- Walks of a region's bindings and commands end with its block. -/
def State.dropWalks (s : State) (r : Region) : State :=
  { s with walks := s.walks.filter (fun w =>
      match w.who with
      | .binding l _ _ => l != r.lead
      | .cmd g _ => !r.hasEnd g
      | .pilot p _ => !r.holds p) }

/-- A commit while the shadow is SWAPPING (R334): the successor runs, the region stays. -/
def Region.passOn (r : Region) (b : Block) : Region :=
  let q := r.complete b.inc (commitStatus (b.branch.getD 0)) b.wbs
  match r.succ with
  | some k => { q with cur := some k, succ := none, prev := some b, div := k.img.div, ending := false }
  | none => q

/-- A commit in any other shadow state (R34, R330). -/
def Region.commit (r : Region) (b : Block) : Region :=
  { r.complete b.inc (commitStatus (b.branch.getD 0)) b.wbs with
    cur := none, prev := none, running := .none, faults := [], stopped := false, ending := false, efrep := none }

/-! ### Answers to whoever issued a command (R407, R409, R463) -/

/-- Bytes of the command record as it was latched at go (R463). -/
def Voxkan.field (v : Voxkan) (o n : Nat) : Nat :=
  fromLe ((List.range n).map (fun i => BitVec.ofNat 8 ((tget v.record ((o + i) / 8) 0).toNat / 2 ^ (8 * ((o + i) % 8)))))

/-- A mailbox command completes (R463): results from buffer offset 0x08, then status, detail and done; busy is cleared and
vector 0 is raised where it is enabled. -/
def State.mbDone (s : State) (status detail : Nat) (results : List DWord) : State :=
  let buf := (List.range results.length).foldl (fun b k => tset b (k + 1) (lget results k 0)) s.vox.buf
  let t := { s with vox := { s.vox with
    buf := buf, status := status, detail := detail, busy := false, done := true, latched := none } }
  if s.vox.mbie then t.msi 0 0 else t

/-- The doublewords of the latched record's parameters (offsets 0x08 to 0x27). -/
def Voxkan.anchorRec (v : Voxkan) : List DWord := (List.range 4).map (fun k => tget v.record (k + 1) 0)

/-- An anchor command completes with a status, a detail and an offset or size (R406, R408): the record is returned with status and detail,
and with the offset or size where the command writes it (`TIDE`, a saving `FREEZE`, `CTXSIZE`), or the graph's node learns of it. -/
def State.anchorDone (s : State) (who : Issuer) (code detail off : Nat) : State :=
  match who with
  | .helm => s
  | .node vd g => s.modVd vd (fun d => { d with graphs := d.graphs.map (fun x =>
      if x.id = g then { x with answer := some (code, off) } else x) })
  | .mailbox =>
    let r := s.vox.anchorRec
    let last := BitVec.ofNat 64 (detail * 2 ^ 32 + code)
    let writes := code = 0 && [1, 2, 0x103].contains ((lget r 0 0).toNat % (if (lget r 0 0).toNat % 256 = 3 then 2 ^ 16 else 2 ^ 8))
    s.mbDone (if code = 0 then 0 else 9) code [lget r 0 0, lget r 1 0, if writes then BitVec.ofNat 64 off else lget r 2 0, last]

/-- Whether a token is a tide mark. -/
def Token.isTide (t : Token) : Bool := t.isMark && t.mark = 2

/-- A FIFO without the tide marks of a VD (R397). -/
def Fifo.noTides (f : Fifo) (vd : Nat) : Fifo := { f with toks := f.toks.filter (fun k => !(k.tok.isTide && k.vd = vd)) }

/-- A partial snapshot abandoned (R415): an element that had saved returns to the slot it left, with its shadow
configuration as it stood; closed inputs and column ends reopen, and its tide marks leave the FIFOs. -/
def State.abandonSnap (s : State) (r : Region) : State :=
  let t := s.touchElems r (fun _ x =>
    match x.snap with
    | some k => { x with core := k, router := x.snapRouter.getD x.router, snap := none, snapRouter := none, tideClosed := 0,
                         caught := [] }
    | none => { x with tideClosed := 0 })
  let t := t.touchEdges r (fun _ x => { x with marks := [], inClosed := false, outClosed := false })
  { t with
    snaps := t.snaps.filter (fun o => o.region != r.lead),
    fifos := t.fifos.map (fun x => (x.1, x.2.noTides r.vd)) }

/-- The answer 0x0B of a snapshot whose region has ended first (R408, R415). -/
def State.snapLost (s : State) (r : Region) : State :=
  match s.snaps.find? (fun o => o.region = r.lead) with
  | some o => (s.abandonSnap r).anchorDone o.who 0x0B 0 0
  | none => s

/-- A commit's effect on the state (R34, R330, R334). -/
def State.commitBlock (s : State) (r : Region) (b : Block) : State :=
  if r.shadow = .swapping then
    let t := ((s.snapLost r).passWalks r.lead).modRegion r.lead (fun q => q.passOn b)
    match r.succ with
    | some k => if s.allSwapped r k.inc then (t.modRegion r.lead Region.lastSwap).prevPassed r.lead else t
    | none => t
  else
    let t := s.snapLost r
    (((((t.dropWalks r).discardTokens r).retireEnds r).modRegion r.lead (fun q => q.commit b)).afterBlock r)

/-- COMMIT at region `x` (R34, R240, R334): the cycle in which the conditions first held has ended; once the engines of the block have
drained, the commit status goes to the completion entry. -/
def execCommit (s : State) : Out :=
  match s.region s.cur.x with
  | none => .next s
  | some r =>
    match r.committing with
    | none => .next s
    | some b => .next (if r.ending && !s.gated r && s.drained r b then s.commitBlock r b else s)

/-! ### Faults (R35, R237 to R240) -/

/-- The first block fault of a region (R238). -/
def Region.blockFault (r : Region) : Option Nat := (r.faults.find? (fun f => f.cause < 0x10)).map (fun f => f.cause)

/-- The element fault of a region that is reported: the first in element order (R238, R240). -/
def Region.elementFault (r : Region) : Option FaultEv :=
  let l := r.faults.filter (fun f => f.cause ≥ 0x10)
  l.foldl (fun a f => match a with
    | none => some f
    | some g => if f.elem.getD 0 < g.elem.getD 0 then some f else some g) none

/-- The element-fault report of a fault (R237). -/
def FaultEv.report (f : FaultEv) : EfRep :=
  let e := f.elem.getD 0
  { w0 := BitVec.ofNat 64 (f.cause * 2 ^ 48 + colOf e * 2 ^ 39 + rowOf e * 2 ^ 32 + f.ctx % 4 * 2 ^ 30 + f.slot * 2 ^ 25
            + f.bank * 2 ^ 24),
    w1 := f.detail }

/-- BLOCK_FAULT at region `x` (R35, R330, R334): once the cycle in which it was found has ended, the block, or both blocks of a swap,
end with the fault status, when what they have performed has been ordered before it (R111). A snapshot in progress is lost (R415). -/
def execBlockFault (s : State) : Out :=
  match s.region s.cur.x with
  | none => .next s
  | some r =>
    match r.blockFault with
    | none => .next s
    | some c => if s.gated r || r.running ≠ .running || s.cycle < r.faultAt || !s.mayEnd r then .next s
                else .next (((s.snapLost r).dropWalks r).failBlock r c)

/-- An element fault during a snapshot turns it into a freeze, and the record is fault-frozen (R400, R415). -/
def State.faultSnap (s : State) (r : Region) : State :=
  { s with snaps := s.snaps.map (fun o =>
      if o.region = r.lead then { o with freeze := true, faulted := true, at0 := if o.freeze then o.at0 else s.cycle } else o) }

/-- ELEMENT_FAULT at region `x` (R237, R330): where the lead pilot handles element faults, or a snapshot is in progress, the
region is FROZEN and the report stands; otherwise the block ends as by a block fault. Either comes once the cycle in which the fault was
found has ended (R239, R240). -/
def execElementFault (s : State) : Out :=
  match s.region s.cur.x with
  | none => .next s
  | some r =>
    match r.elementFault with
    | none => .next s
    | some f =>
      if r.running ≠ .running || s.cycle < r.faultAt then .next s
      else if (s.pilot r.lead).efe || s.snaps.any (fun o => o.region = r.lead) then
        .next ((s.faultSnap r).modRegion r.lead (fun q => { q with
          running := .frozen, efrep := some f.report, faults := [], stopped := false }))
      else .next (if s.mayEnd r then (s.dropWalks r).failBlock r f.cause else s)

/-- ELEMENT_BLOCKED at element `x` with word `y` (R71, R202, R236): an element into which an illegal word is written is
blocked, and its region freezes. -/
def execElementBlocked (s : State) : Out :=
  .next ((s.elemFault s.cur.x 0x10 s.cur.y).modElem s.cur.x (fun m => { m with core := { m.core with blocked := true } }))

end Sys2Proof.Machine
end

