-- ==== Sys2Proof/Machine/Storage.lean ====
section
/-!
DEFINITION. The save area of a VD and its lines, and the storage that VDs hold in turn: tarns, reservoir quarters and ponds, spilled,
brought back and cleared (R158, R159, R401, R403, R414, R431, R493).
-/
namespace Sys2Proof.Machine
open Sys2Proof

/-! ### The save area (R401, R403, R414) -/

/-- The unit in which save records are placed. -/
def saveUnit : Nat := 0x2420000

/-- The size of a VD's save area (R403): `spill` is its creation flag, with its tarns, quarters and bands. -/
def areaSize (bands : Nat) (spill : Bool) (tarns quarters : Nat) : Nat :=
  bands * saveUnit +
    (if spill then tarns * 0x40000 + quarters * 0x1000000 + bands * 0x400000 + 0x200000 else 0)

/-- The bands of a partition, two for each strip. -/
def State.partBands (s : State) (part : Nat) : Nat := 2 * (s.partStrips part).length

/-- The units of a VD's save area that hold records. -/
def State.saveUnits (s : State) (vd : Nat) : Nat :=
  let d := s.vd vd
  (if d.spill then min d.saveSize (s.partBands d.part * saveUnit) else d.saveSize) / saveUnit

/-- The places in a VD's save area that are taken: first unit and length, of records and of snapshots in progress. -/
def State.saveTaken (s : State) (vd : Nat) : List (Nat × Nat) :=
  (s.vd vd).saves.map (fun k => (k.off / saveUnit, k.bands))
    ++ (s.snaps.filter (fun o => o.vd = vd && o.save)).filterMap (fun o =>
        (s.region o.region).map (fun r => (o.off / saveUnit, r.bands)))

/-- The offset of a new record: first-fit (R401). -/
def State.allocRecord (s : State) (vd bands : Nat) : Option Nat :=
  let n := s.saveUnits vd
  let taken := s.saveTaken vd
  ((List.range (n + 1 - bands)).find? (fun i => i + bands ≤ n &&
    taken.all (fun x => i + bands ≤ x.1 || x.1 + x.2 ≤ i))).map (fun i => i * saveUnit)

/-- `n` lines of a save area from `a` on written with the content that goes with each, the ones at `bad` poisoned (R404, R429, R431). What
a restore puts back is the structured record or spill of which the lines are the form in memory (log 23). -/
def State.writeLines (s : State) (a n : Nat) (content : Nat → List Byte) (bad : List Nat) : State :=
  (List.range n).foldl (fun t i => t.storeUnit (a + 64 * i) (content i) (bad.contains (a + 64 * i))) s

/-- The lines of a range of a save area that are poisoned or fail their check (R427). -/
def State.badLines (s : State) (a n : Nat) : List Nat :=
  let inside : Nat → Bool := fun x => a ≤ x && x < a + n
  let raw := (s.cipher.raw.map (fun x => x.1)).filter (fun x => inside x && s.check x != .clean)
  raw ++ ((s.poison.filter inside).filter (fun x => !raw.contains x))
    ++ ((s.cipher.badCounters.flatMap (fun f => (List.range 64).map (fun i => 4096 * f + 64 * i))).filter (fun x =>
      inside x && !raw.contains x && !s.poison.contains x))

/-- What reading back lines of a save area raises: an integrity event for one that fails its check, the event of a poisoned granule for one
that is poisoned (R428, R431). -/
def State.readBack (s : State) (vd : Nat) (lines : List Nat) : State :=
  lines.foldl (fun (t : State) a =>
    match t.check a with
    | .poisoned => t.raise (0x10 + stackOfCell a) 0x0003 vd [BitVec.ofNat 64 a]
    | _ => t.afterRead a) s

/-! ### Storage and its owner (R158, R159, R493) -/

/-- A number that names no VD: storage whose contents are stale. -/
def noVd : Nat := 255

/-- The physical layer that a tarn lies in: depth · 2 + side. -/
def layerOfTarn (i : Nat) : Nat := i % 8 * 2 + i / 8 % 2
/-- The column of a tarn. -/
def colOfTarn (i : Nat) : Nat := i / 16
/-- The tarn of a column in a physical layer. -/
def tarnAt (col layer : Nat) : Nat := (col * 2 + layer % 2) * 8 + layer / 2

/-- The rank of a strip in a VD's partition. -/
def State.stripRank (s : State) (vd strip : Nat) : Option Nat := (s.partStrips (s.vd vd).part).findIdx? (fun k => k = strip)

/-- The place, in a VD's own terms, of what it keeps in a storage: layer and column of the partition, rank of the quarter, rank
of the band (R158: the same offsets after every change of residency). -/
def State.spillBase (s : State) (vd kind i : Nat) : Option Nat :=
  match kind with
  | 0 =>
    match (s.vd vd).layers.findIdx? (fun l => l = layerOfTarn i), s.stripRank vd (stripOf (colOfTarn i)) with
    | some j, some k => some (2 ^ 52 + (j * 512 + 16 * k + colOfTarn i % 16) * 2 ^ 18)
    | _, _ => none
  | 1 => ((s.vd vd).quarters.findIdx? (fun q => q = i)).map (fun k => 2 ^ 51 + k * 2 ^ 24)
  | _ => (s.stripRank vd (i / 2)).map (fun k => 2 ^ 50 + (2 * k + i % 2) * 2 ^ 22)

/-- The rank of a band's edge units in a VD's partition. -/
def State.edgeBase (s : State) (vd band : Nat) : Option Nat :=
  (s.stripRank vd (band / 2)).map (fun k => (2 * k + band % 2) * 16)

/-- What a VD's edge units keep between blocks: watches and flags (R277, R283). -/
def Edge.kept (g : Edge) : Edge := { Edge.reset with watches := g.watches, eflags := g.eflags }

/-- Where the spill of a VD begins: after the units of records (R403). -/
def State.spillStart (s : State) (vd : Nat) : Nat := (s.vd vd).saveBase + 2 * (s.partStrips (s.vd vd).part).length * saveUnit

/-- Where the lines of a VD's spill that hold no storage begin: after its ponds (log 23). None where its area holds no spill, or has no
room for them (R403). -/
def State.miscBase (s : State) (vd : Nat) : Option Nat :=
  let d := s.vd vd
  let a := s.spillStart vd + 2 * (s.partStrips d.part).length * 2 ^ 22
  if d.spill && a + 0x200000 ≤ d.saveBase + d.saveSize then some a else none

/-- Where the line of a place in a VD's own terms lies in its save area: ponds follow the units of records, then come what is no storage,
tarns, and quarters, after as many tarns as the quota had when the VD last left residence (log 23). None where its area holds no spill,
or no room for that storage (R403, R431). -/
def State.spillLine (s : State) (vd b : Nat) : Option Nat :=
  let d := s.vd vd
  let n := (s.partStrips d.part).length
  let base := s.spillStart vd
  let tarns := base + 2 * n * 2 ^ 22 + 0x200000
  let i := (b - 2 ^ 52) / 2 ^ 18
  let x : Nat × Nat × Nat :=
    if b ≥ 2 ^ 52 then (tarns + (i / 512 * 16 * n + i % 512) * 2 ^ 18, 2 ^ 18, (b - 2 ^ 52) % 2 ^ 18)
    else if b ≥ 2 ^ 51 then (tarns + d.spillTarns * 2 ^ 18 + (b - 2 ^ 51) / 2 ^ 24 * 2 ^ 24, 2 ^ 24, (b - 2 ^ 51) % 2 ^ 24)
    else (base + (b - 2 ^ 50) / 2 ^ 22 * 2 ^ 22, 2 ^ 22, (b - 2 ^ 50) % 2 ^ 22)
  if d.spill && x.1 + x.2.1 ≤ d.saveBase + d.saveSize then some (x.1 + x.2.2) else none

/-- Lines of a VD's spill that hold no storage written (R363, R431): parts by their places. -/
def State.writeMisc (s : State) (vd : Nat) (l : List (Nat × List Byte)) : State :=
  match s.miscBase vd with
  | none => s
  | some a => l.foldl (fun (t : State) x => t.writeLines (a + x.1) ((x.2.length + 63) / 64) (fun i => (x.2.drop (64 * i)).take 64) []) s

/-- The lines of a part of a VD's spill that are poisoned or fail their check. -/
def State.miscBad (s : State) (vd place n : Nat) : List Nat :=
  match s.miscBase vd with
  | none => []
  | some a => ((List.range ((n + 63) / 64)).map (fun i => a + place + 64 * i)).filter (fun x => s.check x != .clean)

/-- What a storage holds for a VD goes to the VD's spill (R158): a poisoned granule makes its line poisoned, and the lines of the save
area are written (R431). The storage's contents are then stale. -/
def State.spillStorage (s : State) (vd kind i : Nat) : State :=
  let c := storageCells kind i
  let u := { s with lastVd := tset s.lastVd (storageKey kind i) noVd }
  match s.spillBase vd kind i with
  | none => u
  | some b =>
    let inside : Nat → Bool := fun a => c.1 ≤ a && a < c.1 + c.2
    let cells := ((drain s.mem s.stores).filter (fun x => inside x.1)).map (fun x => (b + (x.1 - c.1), x.2))
    let bad := (s.poison.filter inside ++ ((s.upsets.map (fun x => x.1)).filter (fun a => inside a && s.lost a))).map (fun a => b + (a - c.1))
    let edges : Tbl Edge := match s.edgeBase vd i with
      | some k => if kind = 2 then
          (s.edges.filter (fun (x : Nat × Edge) => x.1 / 16 = i)).map (fun (x : Nat × Edge) => (k + x.1 % 16, x.2.kept)) else []
      | none => []
    let u := u.modVd vd (fun d => { d with
      spilled := d.spilled ++ cells, spilledBad := d.spilledBad ++ bad, spilledEdges := d.spilledEdges ++ edges })
    let u := u.writeMisc vd (edges.map (fun x => (edgePlace x.1, x.2.keptBytes)))
    match s.spillLine vd b with
    | some a => u.writeLines a (c.2 / 64) (fun i => s.bytes (c.1 + 64 * i) 64) (bad.map (fun x => a + (x - b) / 64 * 64))
    | none => u

/-- What a column end kept comes back to it; where a line of it is poisoned or fails its check, it is as at reset and an event is raised
(R431; DESIGN CHOICE, log 23). -/
def State.unspillEdge (s : State) (vd g : Nat) (x : Nat × Edge) : State :=
  let bad := s.miscBad vd (edgePlace x.1) x.2.keptBytes.length
  let k := if bad.isEmpty then x.2 else Edge.reset
  (s.readBack vd bad).modEdge g (fun e => { e with watches := k.watches, eflags := k.eflags })

/-- What a VD had spilled from a storage comes back to it: the granules of a line that is poisoned or fails its check come back
poisoned (R431). -/
def State.unspill (s : State) (vd kind i : Nat) : State :=
  match s.spillBase vd kind i with
  | none => s
  | some b =>
    let c := storageCells kind i
    let d := s.vd vd
    let inside : Nat → Bool := fun a => b ≤ a && a < b + c.2
    let lines := match s.spillLine vd b with
      | some a => s.badLines a c.2
      | none => []
    let t := (d.spilled.filter (fun x => inside x.1)).foldl
      (fun (t : State) (x : Nat × Byte) => t.put (c.1 + (x.1 - b)) [x.2]) (s.readBack vd lines)
    let t := (d.spilledBad.filter inside).foldl (fun (t : State) a => t.poisonUnit (c.1 + (a - b))) t
    let t := match s.spillLine vd b with
      | some a => lines.foldl (fun (t : State) x => (t.poisonUnit (c.1 + (x - a))).poisonUnit (c.1 + (x - a) + 32)) t
      | none => t
    let t := match s.edgeBase vd i with
      | some k => if kind = 2 then
          (d.spilledEdges.filter (fun (x : Nat × Edge) => x.1 / 16 = k / 16)).foldl
            (fun (t : State) (x : Nat × Edge) => t.unspillEdge vd (16 * i + x.1 % 16) x) t
        else t
      | none => t
    t.modVd vd (fun d => { d with
      spilled := d.spilled.filter (fun x => !inside x.1), spilledBad := d.spilledBad.filter (fun a => !inside a),
      spilledEdges := d.spilledEdges.filter (fun x => !(kind = 2 && (s.edgeBase vd i).map (fun k => k / 16) = some (x.1 / 16))) })

/-! ### Channel FIFOs as bands pass (R195, R431) -/

/-- The FIFOs that start or end at a band at a die edge, with whether the band fills them (R194). -/
def bandFifos (p : Nat) : List (Nat × Bool) :=
  if p % 8 = 7 && p < 40 then (List.range 64).flatMap (fun q => [(fifoKey (p / 8) q 0, true), (fifoKey (p / 8) q 1, false)])
  else if p % 8 = 0 && 0 < p then
    (List.range 64).flatMap (fun q => [(fifoKey (p / 8 - 1) q 0, false), (fifoKey (p / 8 - 1) q 1, true)])
  else []

/-- A token of a channel FIFO as it comes back from the save area: poisoned where its line is poisoned or fails its check (R431). -/
def State.readTok (s : State) (vd q : Nat) (x : FifoTok × Nat) : FifoTok :=
  if (s.miscBad vd (fifoPlace q x.2) 64).isEmpty then x.1 else { x.1 with tok := { x.1.tok with poison := true } }

/-- A VD's spilled tokens come back to a FIFO that holds none of another VD's (R195). -/
def State.bringFifo (s : State) (vd q : Nat) : State :=
  match tfind (s.vd vd).spilledFifos q with
  | none => s
  | some f =>
    if (s.fifo q).toks.any (fun x => x.vd != vd) then s
    else
      let bad := (List.range f.toks.length).flatMap (fun i => s.miscBad vd (fifoPlace q i) 64)
      let t := s.readBack vd bad
      let t := { t with fifos := tset t.fifos q { t.fifo q with toks := f.toks.zipIdx.map (s.readTok vd q) ++ (t.fifo q).toks } }
      t.modVd vd (fun d => { d with spilledFifos := tdel d.spilledFifos q })

/-- A VD's tokens in a FIFO go to its spill (R195, R431). -/
def State.spillFifo (s : State) (vd q : Nat) : State :=
  let f := s.fifo q
  let mine := f.toks.filter (fun x => x.vd = vd)
  if mine.isEmpty then s
  else
    let all := (tget (s.vd vd).spilledFifos q { toks := [], next := 0 }).toks ++ mine
    let t := { s with fifos := tset s.fifos q { f with toks := f.toks.filter (fun x => x.vd != vd) } }
    (t.modVd vd (fun d => { d with spilledFifos := tset d.spilledFifos q { toks := all, next := 0 } })).writeMisc vd
      (all.zipIdx.map (fun x => (fifoPlace q x.2, x.1.bytes)))

/-- A band passes to a VD: what other VDs had sent into the FIFOs that the band fills goes to their spill, as the FIFO then belongs to the
VD (DESIGN CHOICE, log 23), and its own tokens come back. -/
def State.passFifos (s : State) (vd p : Nat) : State :=
  (bandFifos p).foldl (fun (t : State) x =>
    let u := if x.2 then (((t.fifo x.1).toks.map (fun k => k.vd)).eraseDups.filter (fun v => v != vd)).foldl
      (fun (t : State) v => t.spillFifo v x.1) t else t
    u.bringFifo vd x.1) s

/-- A storage passes to a VD (R159): what another VD kept there is spilled, and the storage is cleared before the first access;
so is one that no VD has held. With a pond go the FIFOs of its band (R195). -/
def State.takeStorage (s : State) (vd kind i : Nat) : State :=
  let s := if kind = 2 then s.passFifos vd i else s
  let k := storageKey kind i
  match tfind s.lastVd k with
  | none => { s with lastVd := tset s.lastVd k vd, dirty := tset s.dirty k 1 }.soon .storageClear kind i 0
  | some w =>
    if w = vd then s
    else
      let t := if w < 96 then s.spillStorage w kind i else s
      { t with lastVd := tset t.lastVd k vd, dirty := tset t.dirty k 1 }.soon .storageClear kind i 0

/-- A storage that waits to be cleared is cleared, before its first access by the VD that it has passed to, and what that VD had spilled
from it comes back (R154, R158, R159, R277). -/
def State.cleanStorage (s : State) (kind i : Nat) : State :=
  let k := storageKey kind i
  if (tfind s.dirty k).isSome then
    let t := { s.clearStorage kind i with dirty := tdel s.dirty k }
    let t := if kind = 2 then
        { t with edges := t.edges.map (fun x => if x.1 / 16 = i then
            (x.1, { x.2 with watches := Vector.replicate 4 Watch.zero, eflags := 0 }) else x) }
      else t
    match tfind s.lastVd k with
    | some v => if v < 96 then t.unspill v kind i else t
    | none => t
  else s

end Sys2Proof.Machine
end

