-- ==== Sys2Proof/Machine/Anchor.lean ====
section
/-!
DEFINITION. The anchor engine: save records, tide snapshots, freezes, saves, restores, discards (R384 to R416;
spec/15_anchor.md).
-/
namespace Sys2Proof.Machine
open Sys2Proof

/-! ### Naming regions, logging -/

/-- The region of a VD that an incarnation names: the one it was placed with, or that of its running block (R23, R406). -/
def State.regionNamed (s : State) (vd inc : Nat) : Option Region :=
  s.regions.find? (fun r => r.vd = vd && (r.inc % 2 ^ 32 = inc || r.tagInc % 2 ^ 32 = inc))

/-- A usage-log entry of an anchor operation (R476): 1 tide, 2 freeze, 3 restore, 4 discard. -/
def State.logAnchor (s : State) (vd inc kind status : Nat) : State :=
  s.log vd 0x09 [BitVec.ofNat 64 inc, BitVec.ofNat 64 kind, BitVec.ofNat 64 status]

/-- Whether a snapshot, freeze or restore of a region is in progress or holds. -/
def State.snapOf (s : State) (r : Region) : Option SnapOp := s.snaps.find? (fun o => o.region = r.lead)

/-! ### Where tide marks can reach (R391, R398) -/

/-- An input of an element that a mark enters, where it is bound, and the outputs at which the element then presents one. -/
def State.tideInput (s : State) (e i : Nat) : List (Nat × Nat) :=
  let c := vg (s.elem e).core.cfg (s.elem e).core.active ElemCfg.empty
  if bit c.bound i then (e, 8 + i) :: ((List.range 4).filter (fun n => bit c.bound (4 + n))).map (fun n => (e, 4 + n)) else []

/-- Where a port of a router leads: the link source of a neighbour in the region, or an input of the element. -/
def State.tidePort (s : State) (r : Region) (e d : Nat) : List (Nat × Nat) :=
  if d < 4 then
    match neighbourOf e d with
    | some n => if r.hasElem n then [(n, facing d)] else []
    | none => []
  else s.tideInput e (d - 4)

/-- Where a data destination leads, through a delay line too. -/
def State.tideStep (s : State) (r : Region) (e d : Nat) : List (Nat × Nat) :=
  if d < 8 then s.tidePort r e d
  else if d < 32 then s.tidePort r e (swDst (s.swWord e (d - 16)))
  else []

/-- The places that marks reach from a list of places, with fuel: sources 0 to 7 of routers, and inputs as 8 to 11. -/
def State.tideReach (s : State) (r : Region) (front seen : List (Nat × Nat)) : Nat → List (Nat × Nat)
  | 0 => seen
  | n + 1 =>
    match front with
    | [] => seen
    | x :: l =>
      if seen.contains x then State.tideReach s r l seen n
      else
        let next := if x.2 < 8 then (s.targets x.1 x.2).flatMap (fun d => s.tideStep r x.1 d) else []
        State.tideReach s r (next ++ l) (x :: seen) n

/-- The inbound channel nodes of a region in force: element and register. -/
def State.inNodes (s : State) (r : Region) : List (Nat × Nat) :=
  r.elems.flatMap (fun e => ((List.range 16).filter (fun k => swKind (s.swWord e k) = 3 && swIn (s.swWord e k))).map
    (fun k => (e, k)))

/-- The destination of an inbound channel node's word. -/
def swNodeDst (w : Nat) : Nat := swSide w

/-- The places at which tide marks start (R391): the inbound links of the column ends, and the inbound channel nodes. -/
def State.tideSources (s : State) (r : Region) : List (Nat × Nat) :=
  r.ends.map (fun g => (endRouter g, endLink g))
    ++ (s.inNodes r).flatMap (fun x => s.tideStep r x.1 (swNodeDst (s.swWord x.1 x.2)))

/-- Whether every element with a program can be reached by a tide mark along data paths (R398). -/
def State.tideable (s : State) (r : Region) : Bool :=
  let seen := s.tideReach r (s.tideSources r) [] (r.bands * 1024 * 128)
  r.elems.all (fun e =>
    let c := vg (s.elem e).core.cfg (s.elem e).core.active ElemCfg.empty
    c.slots.isEmpty || (List.range 4).any (fun i => bit c.bound i && seen.contains (e, 8 + i)))

/-! ### Beginning a snapshot (R391, R396, R397, R407, R414) -/

/-- A tide mark of a snapshot number (R27, R391). -/
def tideMark (n : Nat) : Token :=
  { payload := BitVec.ofNat 256 (2 + n % 65536 * 4), kind := 2, round := 0, tag := 0, poison := false, src := 0 }

/-- A load iteration that was fetched and not sent is dropped, with what it did to its tarn buffers (R391). -/
def BindSt.rewind (x : BindSt) (m : Image) : BindSt :=
  if x.br.dir = 1 then x
  else
    let y := { x with it := x.it - x.sendq.length, sendq := [] }
    match x.sendq, m.item (x.it - 1) with
    | _ :: _, .token n =>
      if x.br.target != 1 then y
      else
        let ends := m.endsLevel3 n
        match x.br.mode with
        | 0 => if ends then { y with gens := (m.indexOf n 3 % x.br.bufs) :: y.gens, softs := y.softs.dropLast } else y
        | 1 => { y with removed := y.removed - 1 }
        | _ => if ends then { y with rho := y.rho - vg x.br.strides 3 0 } else y
    | _, _ => y

/-- The bindings of a region at the moment S (R391). -/
def Region.rewind (r : Region) : Region :=
  let f : Option Block → Option Block := fun o => o.map (fun b => { b with binds := b.binds.map (fun (x : BindSt) => x.rewind b.img) })
  { r with cur := f r.cur, succ := f r.succ, prev := f r.prev }

/-- A tide mark put at the head of the FIFO of an inbound channel node (R391, R397). -/
def State.markNode (s : State) (e k n : Nat) : State :=
  let w := s.swWord e k
  let q := chanFifo e w
  let x : FifoTok := { tok := tideMark n, due := 0, vd := s.vdOfElem e, key := (s.chanKey e w).getD 0 }
  { s with fifos := tset s.fifos q { s.fifo q with toks := x :: (s.fifo q).toks } }

/-- The tide marks of a region injected, all in one cycle (R391). -/
def State.injectTide (s : State) (r : Region) (n : Nat) : State :=
  if r.running ≠ .running then s
  else
    let t := (s.dropWalks r).modRegion r.lead Region.rewind
    let t := r.ends.foldl (fun t g => t.modEdge g (fun x => { x with marks := x.marks ++ [tideMark n] })) t
    (s.inNodes r).foldl (fun t x => t.markNode x.1 x.2 n) t

/-- An operation of the anchor engine on a region. -/
def SnapOp.start (who : Issuer) (r : Region) (cycle : Nat) : SnapOp :=
  { who := who, region := r.lead, vd := r.vd, freeze := false, save := true, restore := false, gated := false,
    faulted := false, off := 0, snapNo := 0, at0 := cycle }

/-- A save area without room (R414): the region freezes in place, status 0x04, a shortfall event. -/
def State.shortfall (s : State) (who : Issuer) (r : Region) : State :=
  let o := { SnapOp.start who r s.cycle with freeze := true, save := false, gated := r.running = .frozen, who := .helm }
  let t := if (s.snapOf r).isSome then s else { s with snaps := s.snaps ++ [o] }
  (t.raise 1 0x0015 r.vd [BitVec.ofNat 64 r.inc]).anchorDone who 4 0 0

/-- A save of a region that is frozen already: by a fault, or in place by a freeze (R407). -/
def State.saveFrozen (s : State) (who : Issuer) (r : Region) : State :=
  match s.allocRecord r.vd r.bands with
  | none => s.shortfall who r
  | some off =>
    match s.snapOf r with
    | some o =>
      { s with snaps := s.snaps.map (fun x => if x.region = r.lead then { o with who := who, save := true, off := off } else x) }
    | none =>
      { s with snaps := s.snaps ++ [{ SnapOp.start who r s.cycle with
          freeze := true, gated := true, faulted := true, off := off, gateAt := r.faultAt }] }

/-- Whether a region is frozen: by a fault, or by a freeze whose gate has closed and which does not save. -/
def State.isFrozen (s : State) (r : Region) : Bool :=
  r.running = .frozen || (match s.snapOf r with | some o => o.gated && o.freeze && !o.save | none => false)

/-- `TIDE` of a region (R391, R398, R407): none where it must wait for another operation on the region, or for a load into
its shadow (R399). -/
def State.beginTide (s : State) (who : Issuer) (r : Region) : Option State :=
  if s.isFrozen r then some (s.saveFrozen who r)
  else if (s.snapOf r).isSome || r.shadow = .loading then none
  else
    match s.allocRecord r.vd r.bands with
    | none => some (s.shortfall who r)
    | some off =>
      let o := { SnapOp.start who r s.cycle with off := off, snapNo := s.snapNo % 65536 }
      let s := { s with snapNo := s.snapNo + 1 }
      if r.running = .running && !s.tideable r then some { s with snaps := s.snaps ++ [{ o with freeze := true }] }
      else some { s.injectTide r o.snapNo with snaps := s.snaps ++ [o] }

/-- `FREEZE` of a region (R400, R407). -/
def State.beginFreeze (s : State) (who : Issuer) (r : Region) (save : Bool) : Option State :=
  if s.isFrozen r then some (if save then s.saveFrozen who r else s.anchorDone who 0 0 0)
  else if (s.snapOf r).isSome then none
  else
    let o := { SnapOp.start who r s.cycle with freeze := true, save := save }
    if !save then some { s with snaps := s.snaps ++ [o] }
    else
      match s.allocRecord r.vd r.bands with
      | none => some (s.shortfall who r)
      | some off => some { s with snaps := s.snaps ++ [{ o with off := off }] }

/-- `SAVE` of a region (R407): status 0x03 where it is not frozen. -/
def State.beginSave (s : State) (who : Issuer) (r : Region) : Option State :=
  if s.isFrozen r then some (s.saveFrozen who r)
  else
    match s.snapOf r with
    | some _ => none
    | none => some (s.anchorDone who 3 0 0)

/-! ### The snapshot of an element (R392, R393) -/

/-- A tide mark offered at a data input, with what feeds it. -/
def State.tideAt (s : State) (e i : Nat) : Option (Feed × Token) :=
  (s.incoming e (4 + i)).filter (fun x => x.2.isMark && x.2.mark = 2)

/-- The element after its snapshot (R392): it has passed to its shadow slot, which holds what it held (R399), and presents a tide mark at
each output of the slot it left, whose switch words its router keeps (R394). -/
def Elem.snapped (m : Elem) (t : Token) : Elem :=
  let c := vg m.core.cfg m.core.active ElemCfg.empty
  let k := { m.core.discard.activate (1 - m.core.active) with
    out := Vector.ofFn (fun n => if bit c.bound (4 + n.val) then [{ tok := t, ready := true, counts := none }] else []) }
  let keep : Vector (List Nat) 8 → Vector (List Nat) 8 := fun v => Vector.ofFn (fun i => if i.val < 4 then vg v i.val [] else [])
  { m with
    core := k, snap := some m.core, snapRouter := some m.router,
    router := { m.router with
      offers := keep m.router.offers, taken := keep m.router.taken, ctaken := keep m.router.ctaken } }

/-- TIDE_MARK_SNAPSHOT at element `x`, input `y` (R392): the first tide mark taken at a bound input is the element's snapshot, in a cycle
in which it fires nothing; each closes its input. -/
def execTideMarkSnapshot (s : State) : Out :=
  let e := s.cur.x
  let i := s.cur.y
  let m := s.elem e
  let c := vg (match m.snap with | some k => k | none => m.core).cfg
    (match m.snap with | some k => k.active | none => m.core.active) ElemCfg.empty
  match s.tideAt e i with
  | none => .next s
  | some (f, t) =>
    if 4 ≤ i || m.tideClosed.getLsbD i || m.core.blocked || !bit c.bound i || (m.snap.isNone && m.last = s.cycle + 1) then .next s
    else
      let u := if m.snap.isNone then s.setElem e { m.snapped t with last := s.cycle + 1 } else s
      .next ((u.removeFeed e (4 + i) f t).modElem e (fun x => { x with tideClosed := x.tideClosed ||| (1#4 <<< i) }))

/-- A snapshot of a region that becomes a freeze now (R393, R400). -/
def State.snapToFreeze (s : State) (r : Region) : State :=
  { s with snaps := s.snaps.map (fun o =>
      if o.region = r.lead && !o.freeze then { o with freeze := true, at0 := s.cycle } else o) }

/-- CAUGHT_TOKEN at element `x`, input `y` (R393): a token that reaches a saved element before its input is closed goes to
the caught log of 16; a seventeenth turns the snapshot into a freeze. -/
def execCaughtToken (s : State) : Out :=
  let e := s.cur.x
  let i := s.cur.y
  let m := s.elem e
  match s.incoming e (4 + i), s.regionOfElem e with
  | some (f, t), some r =>
    if 4 ≤ i || m.snap.isNone || m.tideClosed.getLsbD i || (t.isMark && t.mark = 2) then .next s
    else if m.caught.length ≥ 16 then .next (s.snapToFreeze r)
    else .next ((s.removeFeed e (4 + i) f t).modElem e (fun x => { x with caught := x.caught ++ [(i, t)] }))
  | _, _ => .next s

/-- Whether an element's part of a tide snapshot is complete: every bound data input has been closed (R392). -/
def Elem.saved (m : Elem) : Bool :=
  match m.snap with
  | some k => (List.range 4).all (fun i => !bit (vg k.cfg k.active ElemCfg.empty).bound i || m.tideClosed.getLsbD i)
  | none => (List.range 4).all (fun i => !bit (vg m.core.cfg m.core.active ElemCfg.empty).bound i)

/-- Whether a tide mark is still missing from an input of a running region (R393). -/
def State.marksMissing (s : State) (r : Region) : Bool := r.running = .running && !r.elems.all (fun e => (s.elem e).saved)

/-- TIDE_TIMEOUT at region `x` (R393): a tide mark still missing from an input 10 µs after S turns the snapshot into a freeze. -/
def execTideTimeout (s : State) : Out :=
  match s.region s.cur.x with
  | none => .next s
  | some r =>
    match s.snapOf r with
    | some o => if !o.freeze && !o.restore && s.cycle ≥ o.at0 + 20000 && s.marksMissing r then .next (s.snapToFreeze r) else .next s
    | none => .next s

/-- FREEZE_GATE_CLOSES at region `x` (R400): 16 cycles after the trigger the clocks of the region are gated. A freeze that does
not save is then done (R407). -/
def execFreezeGateCloses (s : State) : Out :=
  match s.region s.cur.x with
  | none => .next s
  | some r =>
    match s.snapOf r with
    | none => .next s
    | some o =>
      if !o.freeze || o.gated || s.cycle < o.at0 + 16 then .next s
      else
        let t := { s with snaps := s.snaps.map (fun x => if x.region = r.lead then { x with gated := true, gateAt := s.cycle } else x) }
        .next (if o.save then t else t.anchorDone o.who 0 0 0)

/-! ### Completion (R395, R398) -/

/-- Whether the store bindings of a region at a column end have performed what they took; a parked one is saved parked
(R395, R415). -/
def Region.storesDone (r : Region) (g : Nat) : Bool :=
  [r.cur, r.succ, r.prev].all (fun o => match o with
    | some b => b.binds.all (fun x => x.br.dir = 0 || x.endOf r.lead != g || x.park.isSome
        || (x.takeq.isEmpty && x.unperformed = 0))
    | none => true)

/-- The words of the set that was in force in a router when its element's snapshot was taken (R394). -/
def State.oldWords (s : State) (e : Nat) : List Nat := (s.elem e).ctlCfg.sw.toList.map (fun w => w.toNat)

/-- Whether a router's part is complete: it has changed set after its element, or each used source of its set has passed its tide mark
(R394). -/
def State.routerSaved (s : State) (e : Nat) : Bool :=
  let m := s.elem e
  m.router.delay.all (fun x => x.2.isEmpty) &&
    (m.snapRouter.any (fun w => w.rset != m.router.rset)
      || (List.range 8).all (fun k => !(s.oldWords e).any (swTakes k) || m.router.tidePassed.getLsbD k
        || (4 ≤ k && !bit m.swCfg.bound k)))

/-- Whether a column end's part is complete (R395). -/
def State.endSaved (s : State) (r : Region) (g : Nat) : Bool :=
  let x := s.edge g
  x.marks.isEmpty && x.inClosed && (x.outClosed || !(s.oldWords (endRouter g)).any (swFeeds (endLink g))) && r.storesDone g

/-- Whether a snapshot, or a freeze that saves, is complete (R398, R400): what has reached the eddy units has performed (R415). A block
whose commit conditions have held commits first, and its region is not saved (R156, R415). -/
def State.snapDone (s : State) (r : Region) (o : SnapOp) : Bool :=
  o.save && !o.restore && s.unitsIdle r && (o.freeze || !r.ending) &&
  (if o.freeze then o.gated && r.ends.all (fun g => r.storesDone g)
   else r.running != .running ||
     (r.elems.all (fun e => (s.elem e).saved && s.routerSaved e) && r.ends.all (fun g => s.endSaved r g)))

/-! ### The reckoning record (R385 to R387) -/

/-- The kind of a command or request. -/
def Cmd.kind (c : Cmd) : OpKind :=
  if c.op = 64 then .lde
  else if c.op = 65 then .ste
  else if c.isStream then .stream
  else if c.isEddy then .eddy
  else if c.isSpring then .spring
  else .edgeUnit

/-- The entry of a command of a column end (R385, R386, R388). -/
def Cmd.entry (r : Region) (g : Nat) (performed : Bool) (c : Cmd) : RecEntry :=
  { kind := c.kind, state := if c.park.isSome then 3 else if performed then 2 else 1, lsid := c.tok.lsid, i1 := c.tag != 0,
    source := r.endSource g, stamp := c.stamp, seq := c.tag % 2 ^ 24,
    cause := match c.park with | some p => p.cause | none => 0, inc := r.inc,
    addr := c.target.2, round := c.tok.round.toNat,
    progress := if c.op = 0x1D then c.pos * c.spT + c.part else c.pos,
    operands := if c.isRequest then (match c.data with | some d => d.payload.toNat | none => 0) else c.tok.payload.toNat }

/-- The entry of a binding: its position (R385, R386, R389). -/
def BindSt.entry (r : Region) (m : Image) (x : BindSt) : RecEntry :=
  let n := if x.br.dir = 0 then m.produced x.it else x.it
  { kind := if x.br.dir = 1 then .storeBinding else .loadBinding, state := if x.park.isSome then 3 else 4, lsid := x.br.lsid,
    i1 := false, source := r.endSource (x.endOf r.lead), stamp := 0, seq := 0,
    cause := match x.park with | some p => p.cause | none => 0, inc := r.inc,
    addr := (x.address m n).2, round := 0, progress := n, operands := 0 }

/-- The kind of an access of a pilot. -/
def PAcc.opKind (x : PAcc) : OpKind :=
  match x.kind with
  | .load _ _ _ => .pilotLoad
  | .store _ _ => .pilotStore
  | .atom => .atom
  | .convoy _ => .convoy

/-- The entry of an access of a pilot (R385, R386): an `ATOM` has performed where it waits for its register; one whose page was missing at
a restore is parked (R415). -/
def PAcc.entry (r : Region) (p : Nat) (x : PAcc) : RecEntry :=
  { kind := x.opKind, state := if x.parked.isSome then 3 else if x.opKind = .atom then 2 else 1, lsid := 0, i1 := x.tag != 0,
    source := r.pilotSource p, stamp := x.stamp, seq := x.tag % 2 ^ 24, cause := x.parked.getD 0, inc := r.inc, addr := x.va, round := 0, progress := x.reg.toNat,
    operands := match x.kind with
      | .store _ _ => x.data.toNat
      | .atom => x.args.1.toNat + x.args.2.toNat * 2 ^ 64
      | _ => 0 }

/-- The entry of a peer send of a pilot (R385, R386). -/
def PeerOut.entry (r : Region) (e : PeerOut) : RecEntry :=
  { kind := .peerSend, state := if e.status = 255 then 1 else 2, lsid := 0, i1 := true, source := tagSource e.tag, stamp := e.stamp,
    seq := e.tag % 2 ^ 24, cause := 0, inc := r.inc, addr := e.va, round := 0, progress := 0,
    operands := match e.flit.grans with | g :: _ => g.toNat | [] => 0 }

/-- The blocks of a `SPRGQ` whose tokens a column end still holds: decoding begins again at the first of them, and the tokens of it
that were taken are not sent again (R382). -/
def Cmd.unspring (c : Cmd) (held : List Token) : Cmd :=
  if c.op != 0x1D || !c.begun || held.isEmpty then c
  else
    let n := max 1 c.spT
    let k := (held.length + n - 1) / n
    let bad := ((List.range k).filter (fun j => match held[held.length - 1 - n * (k - 1 - j)]? with
      | some t => t.poison | none => false)).length
    { c with
      pos := c.pos - k, part := (n - held.length % n) % n, off := lget c.starts (k - 1) c.off, starts := c.starts.drop k,
      written := c.written - (k - bad), poisoned := c.poisoned - bad,
      failed := match c.failed with | some f => if f.1 < c.pos - k then some f else none | none => none }

/-- The reckoning record of a region as it stands (R385): its column ends' commands and untaken results, its bindings, its pilots'
accesses and peer sends. -/
def State.reckoning (s : State) (r : Region) : List RecEntry :=
  r.ends.flatMap (fun g =>
      ((s.edge g).rsps.filterMap (fun p => p.orig) ++ (s.edge g).xouts.filterMap (fun x => x.2)).map (fun c => c.entry r g true)
        ++ (s.edge g).cmds.map (fun c => (c.unspring (s.edge g).springs).entry r g false))
    ++ [r.cur, r.succ, r.prev].flatMap (fun o => match o with | some b => b.binds.map (fun x => x.entry r b.img) | none => [])
    ++ (List.range r.bands).flatMap (fun i => ((s.pilot (r.lead + i)).pend ++ (s.pilot (r.lead + i)).redo).map (fun x => x.entry r (r.lead + i)))
    ++ (s.hb.unretired.filter (fun e => tagVd e.tag = r.vd && r.ownsTag e.tag && 0x100 ≤ tagSource e.tag && tagSource e.tag < 0x180
        && e.vc < 24)).map (fun e => e.entry r)

/-- The earlier of two first entries of sources (R389): the lower LSID, then the lower sequence number, then the lower source
(log 12). -/
def RecEntry.earlier (a b : RecEntry) : RecEntry :=
  if b.lsid < a.lsid || (b.lsid = a.lsid && (b.seq < a.seq || (b.seq = a.seq && b.source < a.source))) then b else a

/-- Entries in the order in which they re-issue (R389): those of one source by their port stamps, and across sources as above. -/
def reissueOrder : Nat → List RecEntry → List RecEntry
  | 0, _ => []
  | n + 1, l =>
    match l.filter (fun e => l.all (fun d => d.source != e.source || e.stamp ≤ d.stamp)) with
    | [] => []
    | e :: t =>
      let x := t.foldl RecEntry.earlier e
      x :: reissueOrder n (l.filter (fun d => !(d.source = x.source && d.stamp = x.stamp)))

/-- The entries that a restore re-issues, in their order (R389): those of the fabric, then the pilots' band by band; parked ones and
positions are not among them. -/
def SaveRec.order (k : SaveRec) : List RecEntry :=
  let live := k.entries.filter (fun e => e.state = 1 || e.state = 2)
  reissueOrder live.length (live.filter (fun e => e.source < 0x100))
    ++ (List.range k.bands).flatMap (fun i => reissueOrder live.length (live.filter (fun e => e.source = 0x100 + i)))

/-! ### The record (R404, R405) -/

/-- A router as it is saved: tide marks on their way are no part of the record; which destinations have taken the head of an
output of the element is as at its snapshot. -/
def Router.toSave (r : Router) (was : Option Router) : Router :=
  let outs : Vector (List Nat) 8 → Vector (List Nat) 8 → Vector (List Nat) 8 :=
    fun v w => Vector.ofFn (fun i => if i.val < 4 then vg v i.val [] else vg w i.val [])
  { r with
    taken := outs r.taken (was.getD r).taken, ctaken := outs r.ctaken (was.getD r).ctaken,
    rset := (was.getD r).rset, tidePassed := 0, swapPassed := (was.getD r).swapPassed,
    offers := Vector.replicate 8 [], rin := r.rin.mapIdx (fun _ l => l.filter (fun t => !t.isTide)),
    delay := r.delay.map (fun x => (x.1, x.2.filter (fun t => !t.1.isTide))) }

/-- An element as it is saved: its snapshot, or as it stands, with the control tokens read out at the end (R394). -/
def Elem.toSave (m : Elem) : Elem :=
  let core := match m.snap with
    | some k => { k with qin := Vector.zipWith (fun a b => a ++ b) k.qin m.core.qin }
    | none => m.core
  { core := core, router := m.router.toSave m.snapRouter, swapIn := m.swapIn, tideClosed := 0, snap := none,
    snapRouter := none, caught := m.caught, last := 0, marksFrom := m.marksFrom, upFrom := m.upFrom }

/-- What a command has begun stands where its progress says so: a stream or spring command, and a transform that is open. A request, an
eddy command and a command that answers at once perform from the start (R389, R390). -/
def Cmd.keeps (c : Cmd) : Bool := !c.isRequest && !c.isEddy

/-- A command as it is saved: it has arrived at no unit, a peer send of a stream command that has no completion is made again (R459), and
it is noted as reported where its report stands in the queue (R388). -/
def Cmd.toSave (c : Cmd) (held : List Token) (queued : Nat → Bool) (sent : Bool) : Cmd :=
  let c := c.unspring held
  { c with
    unit := none, block := none, begun := c.begun && c.keeps, pos := if c.isStream && c.peerDst && !sent then 0 else c.pos,
    park := c.park.map (fun p => { p with reported := queued c.id }) }

/-- Commands in the order in which their packets were taken. -/
def orderCmds (l : List Cmd) : List Cmd :=
  l.foldl (fun acc c => acc.takeWhile (fun d => d.id < c.id) ++ [c] ++ acc.dropWhile (fun d => d.id < c.id)) []

/-- A column end as it is saved (R382, R389, R395): a command whose result has not been taken performs again from its progress point, and
its place among the responses waits for it. -/
def Edge.toSave (queued : Nat → Bool) (sent : Nat → Bool) (g : Edge) : Edge :=
  { g with
    marks := [], inClosed := false, outClosed := false, entries := [], springs := [],
    cmds := orderCmds ((g.rsps.filterMap (fun p => p.orig) ++ g.cmds).map (fun c => c.toSave g.springs queued (sent c.tag))),
    rsps := g.rsps.map (fun p => if p.orig.isSome then { p with tok := none, orig := none } else p) }

/-- A block as it is saved: a parked binding is noted as reported where its report stands in the queue (R388). -/
def Block.toSave (b : Block) (queued : Nat → Bool) : Block :=
  { b with binds := b.binds.mapIdx (fun i x => { x with park := x.park.map (fun p => { p with reported := queued i }) }) }

/-- A region as it is saved. -/
def State.regionToSave (s : State) (r : Region) : Region :=
  { r with
    cur := r.cur.map (fun b => b.toSave (fun i => s.stillQueued (.binding r.lead 0 i))),
    succ := r.succ.map (fun b => b.toSave (fun i => s.stillQueued (.binding r.lead 1 i))),
    prev := r.prev.map (fun b => b.toSave (fun i => s.stillQueued (.binding r.lead 2 i))) }

/-- Whether a word of an element as it is saved cannot be corrected (R413, R490): a configuration word, or a register that still holds what
the error left. -/
def ElemCore.damaged (k : ElemCore) : Bool :=
  !k.parity.isEmpty || k.spoilt.any (fun x =>
    let c := vg k.ctx (x / 128) (Ctx.activated 0)
    let n := x % 128
    if n < 8 then (vg c.v n VReg.zero).poison
    else (vg (vg c.acc ((n - 8) / 8) Acc.zero).lanes (n % 8) LaneAcc.zero).ap)

/-- The cycle in which the clocks of a region that is saved stopped (R400). -/
def SnapOp.stoppedAt (o : SnapOp) (r : Region) (now : Nat) : Nat :=
  if r.running = .frozen then r.faultAt else if o.freeze then o.gateAt else now

/-- A save record (R404): kind 1 tide, 2 freeze. Places are relative to the region's lead band. A word that its code cannot correct makes
it unrestartable (R413). -/
def State.record (s : State) (r : Region) (o : SnapOp) : SaveRec :=
  let e0 := 1024 * r.lead
  let cells := drain s.mem s.stores
  let ponds := (cells.filter (fun c => pondCell e0 0 ≤ c.1 && c.1 < pondCell (e0 + 1024 * r.bands) 0)).map
    (fun c => (c.1 - pondCell e0 0, c.2))
  let charts := (cells.filter (fun c => chartCell r.lead 0 ≤ c.1 && c.1 < chartCell (r.lead + r.bands) 0)).map
    (fun c => (2 ^ 40 + (c.1 - chartCell r.lead 0), c.2))
  let inPonds : Nat → Bool := fun a => pondCell e0 0 ≤ a && a < pondCell (e0 + 1024 * r.bands) 0
  let lostPonds := (s.upsets.map (fun x => x.1)).filter (fun a => inPonds a && s.lost a)
  let badPonds := (s.poison.filter inPonds ++ lostPonds).map (fun a => a - pondCell e0 0)
  let badCharts := (s.poison.filter (fun a => chartCell r.lead 0 ≤ a && a < chartCell (r.lead + r.bands) 0)).map
    (fun a => 2 ^ 40 + (a - chartCell r.lead 0))
  let elems := (s.elems.filter (fun x => r.hasElem x.1)).map (fun x => (x.1 - e0, x.2.toSave))
  let lost := !badCharts.isEmpty || !lostPonds.isEmpty || elems.any (fun x => x.2.core.damaged)
    || s.pilots.any (fun x => r.holds x.1 && x.2.bad)
  { off := o.off, inc := r.inc, bands := r.bands, lead := r.lead, kind := if o.freeze then 2 else 1,
    unrestartable := lost, faultFrozen := o.faulted, snapNo := o.snapNo, graph := r.graph,
    time := (s.vd r.vd).guest, damaged := false, byHelm := o.who = .helm, region := s.regionToSave r,
    elems := elems,
    pilots := (s.pilots.filter (fun x => r.holds x.1)).map (fun x => (x.1 - r.lead, x.2)),
    edges := (s.edges.filter (fun x => r.hasEnd x.1)).map (fun x => (x.1 - 16 * r.lead,
      x.2.toSave (fun i => s.stillQueued (.cmd x.1 i)) s.sendDone)),
    entries := s.reckoning r, bytes := ponds ++ charts, bad := badPonds ++ badCharts,
    node := ((s.vd r.vd).graphs.find? (fun x => x.id = r.graph)).elim 0 (fun x => x.node), cycle := o.stoppedAt r s.cycle }

/-- The lines of a record that are written poisoned (R413, R431): those of its poisoned pond granules and chart words. -/
def SaveRec.badAt (k : SaveRec) : List Nat := k.bad.map (fun o => savedPlace o / 64 * 64)

/-- The bands of a saved or discarded region freed: its pilots, elements and column ends are idle, its tide marks leave the
FIFOs of its channel nodes, its snapshot is over. The image that it ran stays in its shadow slots (R150). -/
def State.vacate (s : State) (r : Region) : State :=
  let t := (s.dropWalks r).touchEdges r (fun _ g => g.discard)
  { t with
    kept := r.actImg.elim t.kept (fun m => tset t.kept r.lead { vd := r.vd, bands := r.bands, img := m }),
    regions := t.regions.filter (fun q => q.lead != r.lead),
    elems := t.elems.filter (fun x => !r.hasElem x.1),
    pilots := t.pilots.filter (fun x => !r.holds x.1),
    fifos := t.fifos.map (fun x => (x.1, x.2.noTides r.vd)),
    snaps := t.snaps.filter (fun o => o.region != r.lead) }

/-- The lines of a record that fail their check, or that are poisoned and were not written so: its digest then fails (R404, R428). -/
def State.recordBad (s : State) (vd : Nat) (k : SaveRec) : List Nat :=
  let a := (s.vd vd).saveBase + k.off
  (s.badLines a (recordSize k.bands)).filter (fun x => s.check x = .failed || !k.badAt.contains (x - a))

/-- A complete snapshot written and verified: the record and its lines (R407, R413, R431), the log entry, the bands released, the answer.
One that does not verify answers 0x09, and stays a record that cannot be restored (DESIGN CHOICE, log 23: R407 does not say). -/
def State.saveRegion (s : State) (r : Region) (o : SnapOp) : State :=
  let k := s.record r o
  let a := (s.vd r.vd).saveBase + o.off
  let t := ((s.vacate r).writeLines a (recordSize r.bands / 64) (fun i => partLine (k.parts r.vd) (64 * i)) (k.badAt.map (fun x => a + x))).modVd r.vd (fun d => { d with
    saves := d.saves ++ [k] })
  let bad := t.recordBad r.vd k
  let t := (t.readBack r.vd bad).logAnchor r.vd r.inc k.kind (if bad.isEmpty then 0 else 9)
  let t := t.anchorDone o.who (if bad.isEmpty then 0 else 9) 0 o.off
  t.soon .residencyRotation (t.vd r.vd).part 0 0

/-! ### Relocation (R410, R411) -/

/-- The number of a sender that moves: its element's. -/
def moveSrc (a b n : Nat) : Nat := if srcPath n = 0 then n else n + 1024 * 32 * b - 1024 * 32 * a

/-- A token of an element of a region that moves: its sender's number moves too. -/
def Token.move (t : Token) (a b : Nat) : Token := { t with src := moveSrc a b t.src }

/-- An output token moved, with the requests that a counted mark waits for. -/
def OutTok.move (x : OutTok) (a b : Nat) : OutTok :=
  { x with tok := x.tok.move a b, counts := x.counts.map (fun h => (h.1, h.2.map (moveSrc a b))) }

/-- The part of an element that a snapshot saves, moved. -/
def ElemCore.move (k : ElemCore) (a b : Nat) : ElemCore :=
  { k with
    inp := k.inp.mapIdx (fun _ l => l.map (fun t => t.move a b)), out := k.out.mapIdx (fun _ l => l.map (fun x => x.move a b)),
    reqs := k.reqs.map (moveSrc a b), pendCounts := k.pendCounts.map (fun x => (x.1, x.2.1, x.2.2.map (moveSrc a b))) }

/-- An element's number moved. -/
def moveElem (a b n : Nat) : Nat := n + 1024 * b - 1024 * a

/-- An element moved; its inputs receive first their saved contents and then what was caught (R393). -/
def Elem.move (m : Elem) (a b : Nat) : Elem :=
  let k := m.core.move a b
  { m with
    core := { k with inp := k.inp.mapIdx (fun i l => l ++ ((m.caught.filter (fun x => x.1 = i)).map (fun x => x.2.move a b))) },
    router := { m.router with
      rin := m.router.rin.mapIdx (fun _ l => l.map (fun t => t.move a b)),
      delay := m.router.delay.map (fun x => (x.1, x.2.map (fun t => (t.1.move a b, t.2)))) },
    caught := [], marksFrom := m.marksFrom.map (moveElem a b), upFrom := m.upFrom.map (moveElem a b) }

/-- A command moved: it walks afresh (R388). -/
def Cmd.move (c : Cmd) (a b : Nat) : Cmd :=
  { c with tok := c.tok.move a b, data := c.data.map (fun t => t.move a b), te := none, te2 := none, region := b,
           seen := if a = b then c.seen else [] }

/-- A column end moved. -/
def Edge.move (g : Edge) (a b : Nat) : Edge :=
  { g with
    cmds := g.cmds.map (fun c => c.move a b),
    rsps := g.rsps.map (fun p => { p with tok := p.tok.map (fun t => t.move a b), orig := p.orig.map (fun c => c.move a b) }),
    xouts := g.xouts.map (fun x => (x.1.move a b, x.2.map (fun c => c.move a b))), xhand := g.xhand.map (fun t => t.move a b),
    springs := g.springs.map (fun t => t.move a b), halfSte := g.halfSte.map (fun t => t.move a b),
    opens := g.opens.map (fun o => { o with group := o.group.map (fun t => t.move a b) }) }

/-- An emitter moved: store bindings keep their numbers. -/
def moveEmitter (a b n : Nat) : Nat := if n < 32 then n else n + 4096 * b - 4096 * a
/-- A sink moved. -/
def moveSink (a b n : Nat) : Nat := n + 4096 * b - 4096 * a

/-- A block moved: its bindings walk afresh (R388, R389). -/
def Block.move (k : Block) (a b : Nat) : Block :=
  { k with
    emitters := k.emitters.map (fun x => (moveEmitter a b x.1, x.2)), counted := k.counted.map (fun x => (moveEmitter a b x.1, x.2)),
    sinks := k.sinks.map (moveSink a b), sunk := k.sunk.map (moveSink a b),
    binds := k.binds.map (fun (x : BindSt) => { x with te := none }) }

/-- A queued report of an edge path moved: its column (R343, R410). -/
def SfRep.move (x : SfRep) (a b : Nat) : SfRep :=
  if x.w0.getLsbD 55 then { x with w0 := x.w0 + BitVec.ofNat 64 (8 * b * 2 ^ 41) - BitVec.ofNat 64 (8 * a * 2 ^ 41) } else x

/-- A region moved to another lead band: what is reported from now on names the new columns (R410). -/
def Region.move (r : Region) (b : Nat) : Region :=
  let f : Option Block → Option Block := fun o => o.map (fun k => k.move r.lead b)
  { r with
    lead := b, cur := f r.cur, succ := f r.succ, prev := f r.prev,
    faults := r.faults.map (fun x => { x with elem := x.elem.map (moveElem r.lead b) }), sfq := r.sfq.map (fun x => x.move r.lead b),
    failInfo := if r.shadow = .failed && r.failSub = 0 then
      r.failInfo + BitVec.ofNat 64 (8 * b * 2 ^ 8) - BitVec.ofNat 64 (8 * r.lead * 2 ^ 8) else r.failInfo,
    rewrites := r.rewrites.map (fun w => { w with
      pilot := w.pilot + b - r.lead, banks := w.banks.map (fun x => (moveElem r.lead b x.1, x.2)) }) }

/-- The binding records of the images in either slot that lie in a tarn or a reservoir, with their ranges (R411). -/
def Region.ranges (r : Region) : List (BindRec × Nat × Nat) :=
  let imgs := (([r.cur, r.succ].filterMap (fun o => o.map (fun b => b.img))) ++ ([r.shImg, r.actImg].filterMap id)).eraseDups
  imgs.flatMap (fun m => (m.streams.filter (fun b => b.target = 1 || b.target = 2)).map (fun b =>
    let q := b.range m.loops
    (b, q.1.toNat / 32 * 32, q.2.toNat)))

/-- The cell of a byte of a binding's tarn or reservoir at a placement. -/
def State.bindCell (s : State) (vd lead : Nat) (b : BindRec) (o : Nat) : Option Nat :=
  let c := 8 * lead + b.col
  if b.target = 1 then s.layerCell vd c b.side b.depth o else some (resCell (2 * c + b.side) o)

/-- The granules that a move copies: new cell, bytes, poison; none where a tarn lies outside the allocation (R411). -/
def State.moved (s : State) (vd a b : Nat) (r : Region) : Option (List (Nat × List Byte × Bool)) :=
  r.ranges.foldr (fun x acc =>
    match acc, s.bindCell vd a x.1 0, s.bindCell vd b x.1 0 with
    | some l, some p, some q =>
      some ((List.range ((x.2.2 - x.2.1) / 32)).map (fun i =>
        let o := x.2.1 + 32 * i
        (q + o, s.bytes (p + o) 32, s.badAt (p + o))) ++ l)
    | _, _, _ => none) (some [])

/-! ### Restore (R389, R390, R410 to R412) -/

/-- Whether a band can hold a restored or placed region of a VD: unharvested, in its partition, held by none, and not in a
strip that a partition change touches (R155). -/
def State.bandFree (s : State) (vd p : Nat) : Bool :=
  p < 48 && !s.harvested p && s.partOf (p / 2) = (s.vd vd).part && (s.vd vd).part != 255 && (s.regionAt p).isNone
    && (match s.change with | some c => lget c.1 (p / 2) 255 = s.partOf (p / 2) | none => true)

/-- The first run of free bands on a die (R149). -/
def State.fitDie (s : State) (vd n die : Nat) : Option Nat :=
  ((List.range (9 - n)).find? (fun o => (List.range n).all (fun i => s.bandFree vd (8 * die + o + i)))).map
    (fun o => 8 * die + o)

/-- The placement that a `RESTORE` names (R406): a die and band, first-fit on a die, or over every die. -/
def State.restorePlace (s : State) (vd n die first : Nat) : Option Nat :=
  if die = 255 then ((List.range 6).findSome? (fun d => s.fitDie vd n d))
  else if first = 255 then s.fitDie vd n die
  else if first + n ≤ 8 && (List.range n).all (fun i => s.bandFree vd (8 * die + first + i)) then some (8 * die + first)
  else none

/-- Whether a saved region holds a channel node in either slot (R410). -/
def SaveRec.hasChannel (k : SaveRec) : Bool :=
  k.elems.any (fun x => x.2.core.cfg.toList.any (fun c => c.sw.toList.any (fun w => w != 0 && swKind w.toNat = 3)))

/-- The number of entries of a record that replay (R389, R406). -/
def SaveRec.replays (k : SaveRec) : Nat := k.order.length

/-- An access of a restored pilot translated afresh (R389): where its page is missing it is parked (R388, R415). An `ATOM` has applied and
needs its register only; a window access looks up its window when it performs (R433). -/
def State.retranslate (s : State) (vd : Nat) (x : PAcc) : PAcc :=
  if x.isConvoy || decide (x.kind = PKind.atom) || x.window.isSome then { x with stale := false }
  else
    match s.place vd x.va (!x.isLoad) false [] with
    | .cell c e => { x with cell := c, te := some e, stale := false, parked := none }
    | .tarn c => { x with cell := c, te := none, stale := false, parked := none }
    | .fault c _ => { x with te := none, stale := false, parked := some c }
    | _ => { x with te := none, stale := false, parked := some 1 }

/-- The accesses of a restored pilot translated afresh (R389, R415). -/
def State.replace (s : State) (vd p : Nat) : State :=
  s.modPilot p (fun q => { q with tlb := [], pend := q.pend.map (s.retranslate vd) })

/-- An entry of a restored record re-issued (R389): it no longer waits. A convoy operation that has no answer and a peer send that has
no completion leave again with their tags (R459). -/
def State.reissue (s : State) (r : Region) (q : Nat × Nat) : State :=
  let t := { s with snaps := s.snaps.map (fun (o : SnapOp) => if o.region = r.lead then { o with todo := o.todo.filter (· != q) } else o) }
  let t := ((t.pilot (r.lead + (q.1 - 0x100))).pend.filter (fun (x : PAcc) => q.1 ≥ 0x100 && x.stamp = q.2)).foldl
    (fun (t : State) (x : PAcc) =>
      match x.kind, tfind (t.vd r.vd).routes (x.va / 65536) with
      | .convoy op, some w => if x.fault then t else t.sendConvoyRec r.vd w x.tag op x.va
      | _, _ => t) t
  (t.hb.unretired.filter (fun e => tagVd e.tag = r.vd && r.ownsTag e.tag && tagSource e.tag = q.1 && q.1 ≥ 0x100 && e.stamp = q.2
    && e.vc < 24 && e.status = 255)).foldl (fun (t : State) (e : PeerOut) =>
      match t.portTo r.vd e.vc e.module with
      | some p => t.enqueue p e.flit
      | none => t) t

/-- A record put back at a placement (R410 to R412): slots, routers, ponds, caught logs, pilots and column ends. What another VD kept in
the bands' ponds is spilled first (R158, R159, R399). The region's clocks stay gated until the restore ends. -/
def State.putBack (s : State) (who : Issuer) (vd lead : Nat) (k : SaveRec) (copies : List (Nat × List Byte × Bool)) : State :=
  let r := k.region.move lead
  let a := k.lead
  let s := s.readBack vd ((k.badAt.map (fun x => (s.vd vd).saveBase + k.off + x)).eraseDups)
  let s := (List.range r.bands).foldl (fun (t : State) i => (t.takeStorage vd 2 (lead + i)).cleanStorage 2 (lead + i)) s
  let t := copies.foldl (fun t x => t.storeUnit x.1 x.2.1 x.2.2) s
  let t := { t with
    regions := t.regions ++ [r],
    elems := (k.elems.map (fun x => (x.1 + 1024 * lead, x.2.move a lead))) ++ t.elems.filter (fun x => !r.hasElem x.1),
    pilots := (k.pilots.map (fun x => (x.1 + lead, x.2))) ++ t.pilots.filter (fun x => !r.holds x.1),
    kept := (t.dropKept lead r.bands).kept,
    poison := (k.bad.flatMap (fun o => [o / 64 * 64, o / 64 * 64 + 32])).foldl (fun l o => insertSorted l (pondCell (1024 * lead) 0 + o))
      (t.poison.filter (fun c => !(pondCell (1024 * lead) 0 ≤ c && c < pondCell (1024 * (lead + r.bands)) 0)
        && !(chartCell lead 0 ≤ c && c < chartCell (lead + r.bands) 0))),
    upsets := t.upsets.filter (fun x => !(pondCell (1024 * lead) 0 ≤ x.1 && x.1 < pondCell (1024 * (lead + r.bands)) 0)) }
  let t := k.edges.foldl (fun (t : State) (x : Nat × Edge) => t.modEdge (x.1 + 16 * lead) (fun g =>
    { x.2.move a lead with eflags := g.eflags })) t
  let t := (t.putZero (pondCell (1024 * lead) 0) (r.bands * 2 ^ 22)).putZero (chartCell lead 0) (r.bands * 65536)
  let t := (k.bytes.filter (fun x => !k.badAt.contains (savedPlace x.1 / 64 * 64))).foldl (fun (t : State) (x : Nat × Byte) => t.put (if x.1 < 2 ^ 40 then pondCell (1024 * lead) 0 + x.1
    else chartCell lead 0 + (x.1 - 2 ^ 40)) [x.2]) t
  let t := (List.range r.bands).foldl (fun (t : State) i => t.replace vd (lead + i)) t
  { t.modVd vd (fun d => { d with restoring := d.restoring + 1 }) with
    snaps := t.snaps ++ [{ SnapOp.start who r t.cycle with
      save := false, restore := true, gated := true, faulted := k.faultFrozen, off := k.off, todo := k.order.map (fun e => (e.source, e.stamp)) }] }

/-- `RESTORE` (R406 to R412): the status where it fails, or the record going back. -/
def State.beginRestore (s : State) (who : Issuer) (vd die first off : Nat) : State :=
  match (s.vd vd).saves.find? (fun k => k.off = off) with
  | none => s.anchorDone who 2 0 off
  | some k =>
    if s.snaps.any (fun o => o.restore && o.vd = vd && o.off = off) then s.anchorDone who 2 0 off
    else if !(s.recordBad vd k).isEmpty then (s.readBack vd (s.recordBad vd k)).anchorDone who 9 0 off
    else if k.damaged then s.anchorDone who 9 0 off
    else if k.unrestartable then s.anchorDone who 5 0 off
    else
      match s.restorePlace vd k.bands die first with
      | none => s.anchorDone who 6 0 off
      | some lead =>
        if k.hasChannel && lead ≠ k.lead then s.anchorDone who 7 0 off
        else
          match (if lead = k.lead then some [] else s.moved vd k.lead lead k.region) with
          | none => s.anchorDone who 8 0 off
          | some l => s.putBack who vd lead k l

/-- The requesters of a region that are parked with no report in the queue: their reports are queued again (R388). -/
def State.reparked (s : State) (r : Region) : List Requester :=
  let binds : Nat → Option Block → List Requester := fun y o => match o with
    | some b => (List.range b.binds.length).filterMap (fun i =>
        if (b.binds[i]?.bind (fun x => x.park)).any (fun p => !p.reported) then some (.binding r.lead y i) else none)
    | none => []
  binds 0 r.cur ++ binds 1 r.succ ++ binds 2 r.prev
    ++ r.ends.flatMap (fun g => ((s.edge g).cmds.filter (fun c => c.park.any (fun p => !p.reported))).map (fun c => .cmd g c.id))

/-- An element whose clocks start again `n` cycles after they stopped: what its router counts goes on from there (R198, R400). -/
def Elem.later (m : Elem) (n : Nat) : Elem :=
  { m with router := { m.router with
      delay := m.router.delay.map (fun x => (x.1, x.2.map (fun t => (t.1, t.2 + n)))), lowUntil := m.router.lowUntil.map (fun c => c + n) } }

/-- The end of a restore (R389, R412): the entries have re-issued, the clocks are ungated, with every buffer and delay line as it was
(R400); what has performed meanwhile counts (R217); the record is freed. -/
def State.endRestore (s : State) (r : Region) (o : SnapOp) : State :=
  let rec0 := (s.vd r.vd).saves.find? (fun k => k.off = o.off)
  let n := rec0.elim 0 (fun k => k.replays)
  let t := { s with snaps := s.snaps.filter (fun x => x.region != r.lead) }
  let t := t.touchElems r (fun _ m => m.later (s.cycle - rec0.elim s.cycle (fun k => k.cycle)))
  let t := (t.elems.filter (fun x => r.hasElem x.1)).foldl (fun (t : State) x => t.settle x.1) t
  let t := t.modVd r.vd (fun d => { d with restoring := d.restoring - 1, saves := d.saves.filter (fun k => k.off != o.off) })
  let t := (s.reparked r).foldl (fun t q => t.soon (.streamFault q) 0 0 0) t
  (t.logAnchor r.vd r.inc 3 0).anchorDone o.who 0 n o.off

/-! ### Discard -/

/-- The incarnations of a record: the region's and its blocks'. -/
def SaveRec.incs (k : SaveRec) : List Nat :=
  k.inc :: ([k.region.cur, k.region.succ, k.region.prev].filterMap (fun o => o.map (fun b => b.inc)))

/-- Every suppression entry of some incarnations retires (R362). -/
def State.retireAll (s : State) (vd : Nat) (incs : List Nat) : State :=
  ((s.liveTags vd).filter (fun t => incs.any (fun i => i % 2 ^ 32 = tagInc t) && tagSource t != 0x180)).foldl
    (fun t x => t.soon .suppressionRetire vd x 0) s

/-- `DISCARD` (R407): the record's entries retire, its graph's node fails with code 0x1B and detail 0x0A, its units are freed.
The status, and the graph whose node fails. -/
def State.beginDiscard (s : State) (vd off : Nat) : Nat × Option Nat × State :=
  match (s.vd vd).saves.find? (fun k => k.off = off) with
  | none => (2, none, s)
  | some k =>
    let t := s.modVd vd (fun d => { d with saves := d.saves.filter (fun x => x.off != off) })
    let asked := (k.pilots.find? (fun x => x.1 = 0)).elim [] (fun x => x.2.joining)
    (0, some k.graph, ((t.retireAll vd k.incs).leaveAll k.region asked).logAnchor vd k.inc 4 0)

end Sys2Proof.Machine
end

