-- ==== Sys2Proof/Machine/HelmOps.lean ====
section
/-!
DEFINITION. The Helm's operations: words of a VD's memory, the status of a node, the start and end of nodes and graphs
(R92, R93, R113, R138 to R142; spec/05_helm.md).
-/
namespace Sys2Proof.Machine
open Sys2Proof

/-! ### Memory as the Helm reaches it -/

/-- The cell of a word of a VD for the Helm, or the table line whose check failed: the tarn window and the peer range hold no
words of nodes (R160, R452). -/
def State.helmCell (s : State) (vd va : Nat) (write : Bool) : Except Nat Nat :=
  match s.place vd va write false [] with
  | .cell c _ => .ok c
  | .window _ c => .ok c
  | .fault _ bad => .error bad
  | _ => .error 0

/-- A read of `n` bytes: none where translation fails or the line is poisoned or fails its check (R142). -/
def State.helmRead (s : State) (vd va n : Nat) : Option (List Byte) × State :=
  match s.helmCell vd va false with
  | .error bad => (none, s.afterWalk bad)
  | .ok c => if s.viewBad c then (none, s.afterRead c) else (some (s.view c n), s)

/-- A word of a VD (R146). -/
def State.helmWord (s : State) (vd va : Nat) : Option DWord × State :=
  match s.helmRead vd va 8 with
  | (some l, t) => (some (BitVec.ofNat 64 (fromLe l)), t)
  | (none, t) => (none, t)

/-- A store of bytes: the state, and whether it was made. -/
def State.helmWrite (s : State) (vd va : Nat) (l : List Byte) : Bool × State :=
  match s.helmCell vd va true with
  | .error bad => (false, s.afterWalk bad)
  | .ok c => (true, s.write vd c l false)

/-! ### Graphs -/

/-- A graph of a VD. -/
def State.graph (s : State) (vd g : Nat) : Option Graph := (s.vd vd).graphs.find? (fun x => x.id = g)

/-- A graph replaced. -/
def State.setGraph (s : State) (vd : Nat) (x : Graph) : State :=
  s.modVd vd (fun d => { d with graphs := d.graphs.map (fun y => if y.id = x.id then x else y) })

/-- The running graphs of a queue. -/
def runningOf (l : List Graph) (q : Nat) : Nat := (l.filter (fun x => x.queue = q && x.started)).length

/-- Graphs of a queue started in acceptance order while there is room (R138: eight run at once). -/
def startMore (q : Nat) : List Graph → Nat → List Graph
  | [], _ => []
  | x :: r, n =>
    if x.queue = q && !x.started && n < 8 then { x with started := true } :: startMore q r (n + 1)
    else x :: startMore q r n

/-- The queue of a VD starts what it may. -/
def Vd.start (d : Vd) (q : Nat) : Vd := { d with graphs := startMore q d.graphs (runningOf d.graphs q) }

/-- A graph ends, and its queue begins the next (R138, R140). -/
def State.dropGraph (s : State) (vd : Nat) (x : Graph) : State :=
  s.modVd vd (fun d => { d with graphs := d.graphs.filter (fun y => y.id != x.id) }.start x.queue)

/-- The status field of a node written (R139): a page that cannot be written keeps its old status. -/
def State.nodeStatus (s : State) (vd node st : Nat) : State := (s.helmWrite vd (node + 4) (toLe 4 st)).2

/-- The vector of `HEVENT` (R133). -/
def HelmPage.vector (h : HelmPage) : Nat := h.hevent.toNat % 64

/-- A node fails (R140): its status, the vector, and the end of its graph. The region of a failed node has been released. -/
def State.failNode (s : State) (vd : Nat) (x : Graph) (code detail : Nat) : State :=
  let t := s.nodeStatus vd x.node (3 + code * 256 + detail % 65536 * 65536)
  let t := if (t.vd vd).helm.hevent.getLsbD 7 then t.msi (vd + 1) (t.vd vd).helm.vector else t
  t.dropGraph vd x

/-- The tags of a graph's atomic signals retire once its node's status is written (R362). -/
def State.retireSignals (s : State) (vd : Nat) (x : Graph) : State :=
  ((s.liveTags vd).filter (fun t => tagSource t = 0x180 && tagInc t = x.serial)).foldl
    (fun t k => t.soon .suppressionRetire vd k 0) s

/-- A node completes (R139): its final status, and the graph goes on at the next node or ends. -/
def State.finishNode (s : State) (vd : Nat) (x : Graph) (detail next : Nat) (last : Bool) : State :=
  let t := (s.nodeStatus vd x.node (2 + detail % 65536 * 65536)).retireSignals vd x
  if last then t.dropGraph vd x else t.setGraph vd { x with node := next, state := .begin, todo := [], acted := [], answer := none }

/-- The vector that a `HOSTNOTE` raises as it completes (R148). -/
def State.noteVector (s : State) (vd : Nat) (x : Graph) : State :=
  if rd x.line 0 1 = 9 && rd x.line 0x20 2 ≠ 0xFFFF then s.msi (vd + 1) (rd x.line 0x20 2) else s

/-- The final status of a node, complete or failed with a code (R139, R140). -/
def State.closeNode (s : State) (vd : Nat) (x : Graph) (code detail next : Nat) (last : Bool) : State :=
  if code = 0 then (s.finishNode vd x detail next last).noteVector vd x else s.failNode vd x code detail

/-- A node has had its effect (R113): the release of its final status is at `DEVICE` scope, or, where `sys` says so, at `SYSTEM` scope,
and then it waits for every store before it (R126). -/
def State.endNode (s : State) (vd : Nat) (x : Graph) (detail next : Nat) (last : Bool) (sys : Bool := false) (code : Nat := 0) :
    State :=
  if sys && !s.sysReady vd then s.setGraph vd { x with state := .ending code detail next last } else s.closeNode vd x code detail next last

/-! ### The fields of a node (R92, R141) -/

/-- An address of a VD's space with an alignment. -/
def addrOk (a n : Nat) : Bool := a % n = 0 && a < 2 ^ 52

/-- The next node address. -/
def nodeNext (l : List Byte) : Nat := rd l 8 8

/-- The flags that a kind may set (R141). -/
def flagsOk (kind flags : Nat) : Bool := if kind = 5 || kind = 8 then flags ≤ 1 else flags = 0

/-- Whether the fields of a node lie in the limits of R141. Those of a `WINOP`'s fields are judged by
R437, with codes of its own. -/
def fieldsOk (l : List Byte) : Bool :=
  let f : Nat → Nat := fun o => rd l o 8
  let z : Nat → Nat → Bool := fun o n => rd l o n = 0
  flagsOk (rd l 0 1) (rd l 1 1) &&
  match rd l 0 1 with
  | 1 => addrOk (f 0x10) 64 && addrOk (f 0x18) 8 && 1 ≤ rd l 0x20 1 && rd l 0x20 1 ≤ 8 && rd l 0x21 1 < 64 && z 0x22 6
      && addrOk (f 0x28) 64 && addrOk (f 0x30) 64 && addrOk (f 0x38) 64
  | 2 => addrOk (f 0x10) 4 && 4 ≤ rd l 0x18 4 && rd l 0x18 4 ≤ 65536 && rd l 0x18 4 % 4 = 0 && rd l 0x1C 4 % 4 = 0
      && rd l 0x1C 4 < rd l 0x18 4 && 1 ≤ rd l 0x20 1 && rd l 0x20 1 ≤ 8 && rd l 0x21 1 < 64 && z 0x22 6 && z 0x30 16
  | 3 => addrOk (f 0x10) 32 && addrOk (f 0x18) 32 && f 0x20 % 32 = 0 && 32 ≤ f 0x20 && f 0x20 ≤ 2 ^ 40 && z 0x28 24
  | 4 => addrOk (f 0x10) 8 && rd l 0x28 1 ≤ 5 && z 0x29 7 && addrOk (f 0x30) 64 && f 0x30 != 0 && z 0x38 8
  | 5 => addrOk (f 0x10) 64 && (if rd l 1 1 = 1 then addrOk (f 0x18) 8 else z 0x1C 4) && addrOk (f 0x20) 8 && z 0x28 24
  | 6 => addrOk (f 0x10) 8 && z 0x18 8 && addrOk (f 0x20) 64 && addrOk (f 0x28) 64 && addrOk (f 0x30) 64 && addrOk (f 0x38) 64
  | 7 => addrOk (f 0x10) 8 && rd l 0x28 1 ≤ 5 && z 0x29 7 && z 0x38 8
  | 8 => addrOk (f 0x10) 8 && z 0x20 32
  | 9 => addrOk (f 0x10) 8 && (rd l 0x20 2 < 64 || rd l 0x20 2 = 0xFFFF) && z 0x22 30
  | 10 => rd l 0x10 1 ≤ 3 && rd l 0x11 1 < 16 && z 0x12 6 && addrOk (f 0x18) 8 && z 0x20 32
  | 11 => true
  | 12 => addrOk (f 0x10) 8 && z 0x20 32 && z 8 8
  | _ => false

/-- The failure of a node as it begins, if any (R93, R142). The next field of an `END` is a field of its kind. -/
def nodeFault (l : List Byte) : Option Nat :=
  if rd l 0 1 = 0 || rd l 0 1 > 12 then some 1
  else if rd l 2 2 ≠ 0 then some 2
  else if !(addrOk (nodeNext l) 64) && rd l 0 1 ≠ 12 then some 3
  else if !fieldsOk l then some 0x10
  else none

/-! ### A step of a node -/

/-- Whether the Helm acts on a graph: the device runs, and the graph has started (R138, R488). -/
def State.helmRuns (s : State) (vd : Nat) (x : Graph) : Bool := s.vox.devstate = 2 && (s.vd vd).present && x.started

/-- Whether a node in hand is the one a row of the table acts on. -/
def nodeIs (kind : Nat) (sel : Nat → Bool) (l : List Byte) : Bool := rd l 0 1 = kind && sel (rd l 0x10 1)

/-- A node begins (R139): its line is read whole, its status shows 0x01, and its fields are checked. A node that cannot be
read, or of no kind, fails under whichever row reaches it. -/
def State.beginNode (s : State) (vd : Nat) (x : Graph) (kind : Nat) (sel : Nat → Bool) (k : State → Graph → Out) : Out :=
  match s.helmRead vd x.node 64 with
  | (none, t) => .next (t.failNode vd x 4 0)
  | (some l, t) =>
    if rd l 0 1 = 0 || rd l 0 1 > 12 then .next (t.failNode vd x 1 0)
    else if !nodeIs kind sel l then .next s
    else
      let x := { x with line := l, since := s.chron.toNat, lastRead := s.chron.toNat, waited := 0 }
      let t := (t.setGraph vd x).nodeStatus vd x.node 1
      match nodeFault l with
      | some c => .next (t.failNode vd x c 0)
      | none => k t x

/-- A step of the node of graph `y` of VD `x`: of a kind and of an operation that `sel` accepts. `first` is what the node does as
it begins, `later` what it does after. A quarantined VD's graphs begin no node (R472). A node that ends at `SYSTEM` scope waits for the
stores before its status (R113, R126). -/
def State.onNode (s : State) (kind : Nat) (sel : Nat → Bool) (first later : State → Nat → Graph → Out) : Out :=
  let vd := s.cur.x
  match s.graph vd s.cur.y with
  | none => .next s
  | some x =>
    if !s.helmRuns vd x then .next s
    else
      match x.state with
      | .begin =>
        if (s.vd vd).quarantined then .next s
        else if x.stack.any (fun f => f.addr = x.node) then (if kind = 5 then first s vd x else .next s)
        else s.beginNode vd x kind sel (fun t y => first t vd y)
      | .ending c d n last =>
        .next (if nodeIs kind sel x.line && s.sysReady vd then s.closeNode vd x c d n last else s)
      | _ => if nodeIs kind sel x.line then later s vd x else .next s

/-- Any operation byte. -/
def anyOp (_ : Nat) : Bool := true

/-- A node with nothing to do after it has begun. -/
def noLater (s : State) (_ : Nat) (_ : Graph) : Out := .next s

end Sys2Proof.Machine
end

