-- ==== Sys2Proof/Machine/Nodes.lean ====
section
/-!
DEFINITION. Graph nodes: launches, copies, control nodes, signals, notes, pre-emption, end (R143 to R148, R409;
spec/05_helm.md, spec/15_anchor.md).
-/
namespace Sys2Proof.Machine
open Sys2Proof

/-! ### Launching nodes (R143, R144) -/

/-- The region that a graph's node was placed in. -/
def State.graphRegion (s : State) (vd g : Nat) : Option Region := s.regions.find? (fun r => r.vd = vd && r.graph = g)

/-- A launching node begins: its launch competes for bands (R149, R152). -/
def startLaunch (s : State) (vd : Nat) (x : Graph) : Out :=
  .next ((s.setGraph vd { x with state := .placing, tried := false }).soon .placeLaunch (s.vd vd).part 0 0)

/-- The stores of a completion record: each write-back that the block declares, and the branch index (R143). -/
def recordStores (wbMask branch : Nat) (wbs : Tbl DWord) : List (Nat × List Byte) :=
  (4, toLe 4 branch) :: ((List.range 16).filter (fun n => bit wbMask n)).map (fun n => (8 + 8 * n, toLe 8 (tget wbs n 0).toNat))

/-- Stores at offsets of an address, where every one of them translates. -/
def State.helmWrites (s : State) (vd va : Nat) : List (Nat × List Byte) → Bool × State
  | [] => (true, s)
  | w :: r =>
    match s.helmWrite vd (va + w.1) w.2 with
    | (false, t) => (false, t)
    | (true, t) => State.helmWrites t vd va r

/-- A completion record written, or the state with only what its translation did (R143). -/
def State.writeRecord (s : State) (vd va : Nat) (l : List (Nat × List Byte)) : Bool × State :=
  if l.all (fun w => match s.helmCell vd (va + w.1) true with | .ok _ => true | .error _ => false) then s.helmWrites vd va l
  else
    match l.findSome? (fun w => match s.helmCell vd (va + w.1) true with | .ok _ => none | .error b => some b) with
    | some b => (false, s.afterWalk b)
    | none => (false, s)

/-- The target that a branch index chooses (R143). -/
def branchTarget (l : List Byte) (k : Nat) : Nat := if k = 0 then nodeNext l else rd l (0x20 + 8 * k) 8

/-- A region released, and its bands offered to the next launch (R23, R152). -/
def State.releaseBands (s : State) (r : Region) : State := (s.releaseRegion r).soon .placeLaunch (s.vd r.vd).part 0 0

/-- Whether the header of a region's block asks for `SYSTEM` scope (R87, R111). -/
def Region.sysRecord (r : Region) : Bool := match r.actImg with | some m => bit m.flags 2 | none => false

/-- The status word of a completion record stored, as the release of R111; the region is released, and the node gets its own status
(R143): the record was not written, the block failed, the chosen target is zero, or it goes on there. -/
def State.blockStatus (s : State) (vd : Nat) (x : Graph) (r : Region) (status : BitVec 34) : State :=
  let st := status.toNat % 2 ^ 32
  let k := status.toNat / 2 ^ 32
  let w := s.writeRecord vd (rd x.line 0x18 8) [(0, toLe 4 st)]
  let t := w.2.releaseBands r
  if !w.1 then t.failNode vd x 0x1A 4
  else if st ≠ 1 then t.endNode vd x (st % 65536) 0 false r.sysRecord 0x12
  else if branchTarget x.line k = 0 then t.endNode vd x 0 0 false r.sysRecord 0x13
  else t.endNode vd x k (branchTarget x.line k) false r.sysRecord

/-- The end of a `BLOCK` node's block (R143, R35): the write-backs and the branch index of a block that committed, and then the status
word, which at `SYSTEM` scope waits for them (R111). -/
def State.blockEnds (s : State) (vd : Nat) (x : Graph) (r : Region) (c : Comp) (status : BitVec 34) : State :=
  let st := status.toNat % 2 ^ 32
  let mask := match r.actImg with | some m => m.wbMask | none => 0
  let l := if st = 1 then recordStores mask (status.toNat / 2 ^ 32) c.wbs else []
  let va := rd x.line 0x18 8
  if (l ++ [(0, [])]).all (fun w => match s.helmCell vd (va + w.1) true with | .ok _ => true | .error _ => false) then
    let t := (s.writeRecord vd va l).2
    if r.sysRecord && !t.sysReady vd then t.setGraph vd { x with state := .recording } else t.blockStatus vd x r status
  else ((s.writeRecord vd va (l ++ [(0, [])])).2.releaseBands r).endNode vd x 4 0 true r.sysRecord 0x1A

/-- A `BLOCK` node whose region stands: it waits for its block, and then, where its record's write-backs have been stored, for the host
to see them (R111, R143). -/
def State.blockLater (s : State) (vd : Nat) (x : Graph) : Out :=
  match s.graphRegion vd x.id with
  | none => .next s
  | some r =>
    match r.running, r.compQ.getLast? with
    | .none, some c =>
      match c.status with
      | none => .next s
      | some v =>
        .next (if x.state = .recording then (if s.sysReady vd then s.blockStatus vd x r v else s) else s.blockEnds vd x r c v)
    | _, _ => .next s

/-- NODE_BLOCK of graph `y` of VD `x` (R143). -/
def execNodeBlock (s : State) : Out := s.onNode 1 anyOp startLaunch State.blockLater

/-- The first pilot of a region that has stopped at a trap (R319, R144). -/
def State.stoppedPilot (s : State) (r : Region) : Option Nat :=
  ((List.range r.bands).map (fun i => r.lead + i)).find? (fun p => (s.pilot p).run = .stopped)

/-- A `PILOT` node whose region stands (R144): it completes when the lead pilot has parked, or fails where a pilot has stopped;
a running block ends first. -/
def State.pilotLater (s : State) (vd : Nat) (x : Graph) : Out :=
  match s.graphRegion vd x.id with
  | none => .next s
  | some r =>
    if r.running = .running || (s.snapOf r).isSome then .next s
    else
      match s.stoppedPilot r with
      | some p => .next ((s.releaseBands r).failNode vd x 0x12 ((s.pilot p).trapcause.toNat % 65536))
      | none =>
        if (s.pilot r.lead).run = .parked && (List.range r.bands).all (fun i => (s.pilot (r.lead + i)).pend.isEmpty) then
          .next ((s.releaseBands r).endNode vd x (((s.pilot r.lead).get 1).toNat % 65536) (nodeNext x.line) false)
        else .next s

/-- NODE_PILOT of graph `y` of VD `x` (R144). -/
def execNodePilot (s : State) : Out := s.onNode 2 anyOp startLaunch State.pilotLater

/-! ### COPY (R145) -/

/-- Where a granule of a copy lies: a cell, or the table line whose check failed. Tarn addresses are allowed (R160). -/
def State.copyCell (s : State) (vd va : Nat) (write : Bool) : Except Nat Nat :=
  match s.place vd va write false [] with
  | .cell c _ => .ok c
  | .window _ c => .ok c
  | .tarn c => .ok c
  | .fault _ bad => .error bad
  | _ => .error 0

/-- Whether an address lies in the tarn window, whose storage a non-resident VD does not hold (R158). -/
def inTarnWindow (va : Nat) : Bool := tarnWindow ≤ va && va < 2 ^ 52

/-- One granule of a `COPY` node, in ascending order (DESIGN CHOICE, log 39: R145 leaves it open); after the last the node completes, with detail 1 where a source was
poisoned, and at `SYSTEM` scope where a range lies in host memory. A range that only residence gives the VD waits for it (R158). -/
def State.copyGranule (s : State) (vd : Nat) (x : Graph) (pos : Nat) (bad host : Bool) : State :=
  let d := rd x.line 0x10 8 + pos
  let f := rd x.line 0x18 8 + pos
  if pos = rd x.line 0x20 8 then s.endNode vd x (b2n bad) (nodeNext x.line) false host
  else
    match s.copyCell vd f false with
    | .error b => if (s.vd vd).resident then (s.afterWalk b).failNode vd x 0x1A 3 else s
    | .ok c =>
      match s.copyCell vd d true with
      | .error b => if (s.vd vd).resident then (s.afterWalk b).failNode vd x 0x1A 3 else s
      | .ok e =>
        let p := s.viewBad c
        ((s.afterRead c).write vd e (s.view c 32) p).setGraph vd { x with state := .copying (pos + 32) (bad || p) (host || isHost c || isHost e) }

/-- A `COPY` node in progress. -/
def State.copyLater (s : State) (vd : Nat) (x : Graph) : Out :=
  match x.state with
  | .copying pos bad host =>
    if !(s.vd vd).resident && (inTarnWindow (rd x.line 0x10 8) || inTarnWindow (rd x.line 0x18 8)) then .next s
    else .next (s.copyGranule vd x pos bad host)
  | _ => .next s

/-- A `COPY` node begins: ranges that overlap fail it (R142). -/
def copyFirst (s : State) (vd : Nat) (x : Graph) : Out :=
  if overlap (rd x.line 0x10 8) (rd x.line 0x20 8) (rd x.line 0x18 8) (rd x.line 0x20 8) then .next (s.failNode vd x 0x16 0)
  else .next (s.setGraph vd { x with state := .copying 0 false false })

/-- NODE_COPY of graph `y` of VD `x` (R145): its start, or one granule. -/
def execNodeCopy (s : State) : Out := s.onNode 3 anyOp copyFirst State.copyLater

/-! ### Control nodes (R146, R147) -/

/-- A node acts on the word at offset 0x10, or fails (R146). -/
def State.withWord (s : State) (vd : Nat) (x : Graph) (va : Nat) (k : State → DWord → State) : State :=
  match s.helmWord vd va with
  | (some w, t) => k t w
  | (none, t) => t.failNode vd x 0x1A 1

/-- Whether the condition of a `COND` or `WAITW` node holds for a word. -/
def nodeCond (l : List Byte) (w : DWord) : Bool :=
  waitCond (rd l 0x28 1) (w &&& BitVec.ofNat 64 (rd l 0x20 8)) (BitVec.ofNat 64 (rd l 0x18 8))

/-- `COND` (R146). -/
def condFirst (s : State) (vd : Nat) (x : Graph) : Out :=
  .next (s.withWord vd x (rd x.line 0x10 8) (fun t w =>
    t.endNode vd x 0 (if nodeCond x.line w then rd x.line 0x30 8 else nodeNext x.line) false))

/-- NODE_COND of graph `y` of VD `x` (R146). -/
def execNodeCond (s : State) : Out := s.onNode 4 anyOp condFirst noLater

/-- The node at which a `SWITCH` goes on. -/
def switchTarget (l : List Byte) (k : Nat) : Nat :=
  if k < 4 && rd l (0x20 + 8 * k) 8 ≠ 0 then rd l (0x20 + 8 * k) 8 else nodeNext l

/-- `SWITCH` (R146). -/
def switchFirst (s : State) (vd : Nat) (x : Graph) : Out :=
  .next (s.withWord vd x (rd x.line 0x10 8) (fun t w =>
    t.endNode vd x (w.toNat % 65536) (switchTarget x.line (w.toNat % 2 ^ 32)) false))

/-- NODE_SWITCH of graph `y` of VD `x` (R146). -/
def execNodeSwitch (s : State) : Out := s.onNode 6 anyOp switchFirst noLater

/-- One pass of a `WAITW` node (R146): it reads its word; where the condition fails it fails at its timeout, and otherwise waits. -/
def State.waitPass (s : State) (vd : Nat) (x : Graph) : State :=
  s.withWord vd x (rd x.line 0x10 8) (fun t w =>
    if nodeCond x.line w then t.endNode vd x 0 (nodeNext x.line) false
    else if rd x.line 0x30 8 ≠ 0 && t.chron.toNat - x.since ≥ rd x.line 0x30 8 then t.failNode vd x 0x17 0
    else t.setGraph vd { x with state := .waiting, lastRead := t.chron.toNat })

/-- A `WAITW` node begins. -/
def waitFirst (s : State) (vd : Nat) (x : Graph) : Out := .next (s.waitPass vd x)

/-- NODE_WAITW of graph `y` of VD `x` (R146): the node begins. -/
def execNodeWaitw (s : State) : Out := s.onNode 7 anyOp waitFirst noLater

/-- NODE_WAITW_RECHECK of graph `y` of VD `x` (R146): its word's line has been written, or 10 µs have passed: it reads its word
again. A read at any other moment gives what the last one gave, so the step asks only that the node waits (log 13). -/
def execNodeWaitwRecheck (s : State) : Out :=
  match s.graph s.cur.x s.cur.y with
  | some x => if x.state = .waiting then s.onNode 7 anyOp noLater (fun t vd y => .next (t.waitPass vd y)) else .next s
  | none => .next s

/-- NODE_WAITW_TIMEOUT of graph `y` of VD `x` (R146): the timeout has passed, and the condition still fails. -/
def execNodeWaitwTimeout (s : State) : Out :=
  match s.graph s.cur.x s.cur.y with
  | some x =>
    if x.state = .waiting && rd x.line 0x30 8 ≠ 0 && s.chron.toNat - x.since ≥ rd x.line 0x30 8 then
      s.onNode 7 anyOp noLater (fun t vd y => .next (t.waitPass vd y))
    else .next s
  | none => .next s

/-- Whether a loop's pass may begin: the release of its pass index to a word in host memory is at `SYSTEM` scope, as that of a `SIGNAL`
is (R147, R148; DESIGN CHOICE, log 39), and waits for the stores before it. -/
def State.loopReady (s : State) (vd : Nat) (f : LoopSt) : Bool :=
  match (if f.iter = 0 then .error 0 else s.helmCell vd f.iter true) with
  | .ok c => !isHost c || s.sysReady vd
  | .error _ => true

/-- A pass of a loop begins (R147): the pass index goes to the iteration word, and the walk to the body. -/
def State.loopPass (s : State) (vd : Nat) (x : Graph) (f : LoopSt) : State :=
  let go : State → State := fun t => t.setGraph vd { x with stack := f :: x.stack, node := f.body, state := .begin }
  if f.iter = 0 then go s
  else
    match s.helmWrite vd f.iter (toLe 8 f.pass) with
    | (true, t) => go t
    | (false, t) => t.failNode vd { x with node := f.addr } 0x1A 1

/-- The first pass of a loop, which the stack holds while it waits. -/
def State.firstPass (s : State) (vd : Nat) (x : Graph) (f : LoopSt) : State :=
  if s.loopReady vd f then s.loopPass vd x f else s.setGraph vd { x with stack := f :: x.stack, state := .waiting }

/-- A `LOOP` that is on no stack begins, with its count (R147). -/
def State.loopStart (s : State) (vd : Nat) (x : Graph) (count : Nat) : State :=
  let l := x.line
  if count = 0 then s.endNode vd x 0 (nodeNext l) false
  else if x.stack.length ≥ 8 then s.failNode vd x 0x19 0
  else s.firstPass vd x { addr := x.node, pass := 0, count := count, body := rd l 0x10 8, next := nodeNext l, iter := rd l 0x20 8 }

/-- `LOOP` (R147): a pass ends where the address is on the stack, and every loop above it ends with it. -/
def loopFirst (s : State) (vd : Nat) (x : Graph) : Out :=
  match x.stack.dropWhile (fun f => f.addr != x.node) with
  | f :: rest =>
    let y := { x with stack := rest }
    if f.pass + 1 = f.count then .next (s.finishNode vd y (f.count % 65536) f.next false)
    else .next (if s.loopReady vd f then s.loopPass vd y { f with pass := f.pass + 1 } else s)
  | [] =>
    if rd x.line 1 1 = 1 then .next (s.withWord vd x (rd x.line 0x18 8) (fun t w => t.loopStart vd x (w.toNat % 2 ^ 32)))
    else .next (s.loopStart vd x (rd x.line 0x18 4))

/-- A `LOOP` whose first pass waits. -/
def loopLater (s : State) (vd : Nat) (x : Graph) : Out :=
  match x.stack with
  | f :: rest => .next (s.firstPass vd { x with stack := rest } f)
  | [] => .next s

/-- NODE_LOOP of graph `y` of VD `x` (R147). -/
def execNodeLoop (s : State) : Out := s.onNode 5 anyOp loopFirst loopLater

/-! ### Signals, notes, end (R148) -/

/-- The next node after a store that a node makes with release: a host word waits for every earlier store (R126, R148). -/
def State.nodeStore (s : State) (vd : Nat) (x : Graph) (sys last : Bool) : Out :=
  let va := rd x.line 0x10 8
  match s.helmCell vd va true with
  | .error b => .next ((s.afterWalk b).failNode vd x 0x1A 1)
  | .ok c =>
    if (sys || isHost c) && !s.sysReady vd then .next (s.setGraph vd { x with state := .waiting })
    else
      .next ((s.write vd c (toLe 8 (rd x.line 0x18 8)) false).endNode vd x 0 (nodeNext x.line) last sys)

/-- The atomic add of a `SIGNAL` (R148, R356): `AADD.s64` with the order flag, under the graph's tag. It waits for room in the table and
for its turn at its location (R350, R357, R361). An address that R117 refuses, in the
tarn window or in host memory, fails it with code 0x18 (R142). -/
def State.signalAdd (s : State) (vd : Nat) (x : Graph) : Out :=
  let va := rd x.line 0x10 8
  match (if inTarnWindow va then .ok (tarnCell 0 0 0 0) else s.helmCell vd va true) with
  | .error b => .next ((s.afterWalk b).failNode vd x 0x1A 1)
  | .ok c =>
    if !(isHbm c || isRes c) then .next (s.failNode vd x 0x18 0)
    else if ((s.liveTags vd).filter (fun t => tagSource t = 0x180)).length ≥ 32 || !s.tagRoom vd || !s.unitFree c then
      .next (s.setGraph vd { x with state := .waiting })
    else
      let tag := mkTag vd x.serial 0x180 0 x.seq
      let y := { x with seq := x.seq + 1 }
      match s.lookup tag (locOf c) 0 with
      | .again _ => .next (s.endNode vd y 0 (nodeNext x.line) false)
      | .mismatch => .next ((s.mismatched tag (stackOfCell c)).failNode vd y 0x18 0)
      | .fresh =>
        if s.badAt c then
          .next (((s.afterRead c).raise (0x10 + stackOfCell c) 0x0013 vd [BitVec.ofNat 64 va]).failNode vd y 0x18 0)
        else
          let m := BitVec.ofNat 64 (s.readLe c 8)
          let t := (s.storeUnit c (toLe 8 (m + BitVec.ofNat 64 (rd x.line 0x18 8)).toNat) false).enter tag (locOf c) 0 m 0 0
          .next (t.endNode vd y 0 (nodeNext x.line) false)

/-- `SIGNAL` (R148). -/
def signalFirst (s : State) (vd : Nat) (x : Graph) : Out :=
  if rd x.line 1 1 = 1 then s.signalAdd vd x else s.nodeStore vd x false false

/-- NODE_SIGNAL of graph `y` of VD `x` (R148). -/
def execNodeSignal (s : State) : Out := s.onNode 8 anyOp signalFirst signalFirst

/-- `HOSTNOTE` (R148). -/
def noteFirst (s : State) (vd : Nat) (x : Graph) : Out := s.nodeStore vd x true false

/-- NODE_HOSTNOTE of graph `y` of VD `x` (R148): the vector is raised when the host can see the store. -/
def execNodeHostnote (s : State) : Out := s.onNode 9 anyOp noteFirst noteFirst

/-- `END` (R148): its store, if it names one, and the end of the graph. -/
def endFirst (s : State) (vd : Nat) (x : Graph) : Out :=
  if rd x.line 0x10 8 = 0 then .next (s.endNode vd x 0 0 true) else s.nodeStore vd x false true

/-- NODE_END of graph `y` of VD `x` (R148). -/
def execNodeEnd (s : State) : Out := s.onNode 12 anyOp endFirst endFirst

/-! ### PREEMPT (R148, R409) -/

/-- Things with the number of their region's launch, in the order of those numbers; those of one number keep their order. -/
def byOrig (l : List (Nat × Nat × Nat)) : List (Nat × Nat × Nat) :=
  l.foldl (fun acc x => acc.takeWhile (fun y => y.1 ≤ x.1) ++ [x] ++ acc.dropWhile (fun y => y.1 ≤ x.1)) []

/-- The handles of a descriptor in the order of original launch of what they name (R409); one that names no record comes last (DESIGN
CHOICE, log 39: R409 orders regions). -/
def State.inLaunchOrder (s : State) (vd : Nat) (l : List (Nat × Nat)) : List (Nat × Nat) :=
  (byOrig (l.map (fun h => (((s.vd vd).saves.find? (fun k => k.off = h.2)).elim (2 ^ 64) (fun k => k.region.orig), h)))).map (fun x => x.2)

/-- The regions of a VD whose graphs lie in queues of a mask, except one graph's own, in order of launch (R148, R409). -/
def State.preemptSet (s : State) (vd : Nat) (x : Graph) : List (Nat × Nat) :=
  let l := s.regions.filter (fun r => r.vd = vd && r.graph ≠ x.id &&
    (match s.graph vd r.graph with | some g => bit (rd x.line 0x11 1) g.queue | none => false))
  (byOrig (l.map (fun r => (r.orig, (r.inc, 0))))).map (fun x => x.2)

/-- `n` handles from an address of a VD: none where one cannot be read. -/
def State.handleWords (s : State) (vd va : Nat) : Nat → Option (List (Nat × Nat)) × State
  | 0 => (some [], s)
  | n + 1 =>
    match s.helmWord vd va with
    | (none, t) => (none, t)
    | (some h, t) =>
      let x := State.handleWords t vd (va + 8) n
      (x.1.map (fun l => (h.toNat / 2 ^ 32, h.toNat % 2 ^ 32 * 0x10000) :: l), x.2)

/-- The handles of a save descriptor: none where a word cannot be read; its count and zero word may lie outside the limits
(R409). -/
def State.handles (s : State) (vd va : Nat) : Option (Option (List (Nat × Nat))) × State :=
  match s.helmWord vd va with
  | (none, t) => (none, t)
  | (some w, t) =>
    if w.toNat > 48 then (some none, t)
    else
      let x := t.handleWords vd (va + 8) w.toNat
      (x.1.map some, x.2)

/-- A handle and the count written to a save descriptor (R409). -/
def State.putHandle (s : State) (vd va i inc off : Nat) : Bool × State :=
  match s.helmWrite vd (va + 8 + 8 * i) (toLe 8 (inc % 2 ^ 32 * 2 ^ 32 + off / 0x10000)) with
  | (true, t) => t.helmWrite vd va (toLe 8 (i + 1))
  | (false, t) => (false, t)

/-- A `PREEMPT` node that stores handles begins: the regions it will act on, and an empty descriptor. -/
def preemptOut (s : State) (vd : Nat) (x : Graph) : Out :=
  match s.helmWrite vd (rd x.line 0x18 8) (toLe 8 0) with
  | (false, t) => .next (t.failNode vd x 0x1A 1)
  | (true, t) => .next (t.setGraph vd { x with state := .waiting, todo := s.preemptSet vd x })

/-- Whether a handle of a descriptor is of the node's regions (R148): the record is of a graph of a queue in the mask, and not of its
own; a handle that names no record stays, for the command's status (R408). -/
def State.preempts (s : State) (vd : Nat) (x : Graph) (h : Nat × Nat) : Bool :=
  match (s.vd vd).saves.find? (fun k => k.off = h.2) with
  | some k => k.graph ≠ x.id && (match s.graph vd k.graph with | some g => bit (rd x.line 0x11 1) g.queue | none => false)
  | none => true

/-- A `PREEMPT` node that reads handles begins. -/
def preemptIn (s : State) (vd : Nat) (x : Graph) : Out :=
  match s.handles vd (rd x.line 0x18 8) with
  | (none, t) => .next (t.failNode vd x 0x1A 1)
  | (some none, t) => .next (t.failNode vd x 0x1B 1)
  | (some (some l), t) => .next (t.setGraph vd { x with state := .waiting, todo := s.inLaunchOrder vd (l.filter (s.preempts vd x)) })

/-- The answer of a command is taken (R409): the first that is not 0x00 fails the node; a save's handle is stored. -/
def State.preemptAnswer (s : State) (vd : Nat) (x : Graph) (code off : Nat) (store : Bool) : State :=
  match x.todo with
  | [] => s.setGraph vd { x with answer := none }
  | h :: rest =>
    if code ≠ 0 then s.failNode vd x 0x1B code
    else
      let t := if store then s.putHandle vd (rd x.line 0x18 8) x.acted.length h.1 off else (true, s)
      if t.1 then t.2.setGraph vd { x with todo := rest, answer := none, acted := x.acted ++ [(h.1, off)] }
      else t.2.failNode vd x 0x1A 1

/-- A `PREEMPT` node in progress: one region or record after another. `start` begins a command, or must wait. -/
def State.preemptLater (s : State) (vd : Nat) (x : Graph) (store : Bool) (start : State → Nat × Nat → Option State) : Out :=
  match x.answer with
  | some a => .next (s.preemptAnswer vd x a.1 a.2 store)
  | none =>
    if s.snaps.any (fun o => o.who = .node vd x.id) then .next s
    else
      match x.todo with
      | [] => .next (s.endNode vd x x.acted.length (nodeNext x.line) false)
      | h :: _ => .next ((start s h).getD s)

/-- A command on the region that an incarnation names; status 0x02 where no region has it (R408). -/
def State.onNamed (s : State) (vd inc : Nat) (who : Issuer) (k : Region → Option State) : Option State :=
  match s.regionNamed vd (inc % 2 ^ 32) with
  | some r => k r
  | none => some (s.anchorDone who 2 0 0)

/-- NODE_PREEMPT_TIDE of graph `y` of VD `x` (R148, R409). -/
def execNodePreemptTide (s : State) : Out :=
  s.onNode 10 (fun o => o = 0 || o > 3) preemptOut (fun t vd x => t.preemptLater vd x true (fun u h =>
    u.onNamed vd h.1 (.node vd x.id) (fun r => u.beginTide (.node vd x.id) r)))

/-- NODE_PREEMPT_FREEZE of graph `y` of VD `x` (R148, R409): a freeze that saves, since it returns handles. -/
def execNodePreemptFreeze (s : State) : Out :=
  s.onNode 10 (fun o => o = 1) preemptOut (fun t vd x => t.preemptLater vd x true (fun u h =>
    u.onNamed vd h.1 (.node vd x.id) (fun r => u.beginFreeze (.node vd x.id) r true)))

/-- NODE_PREEMPT_RESTORE of graph `y` of VD `x` (R148, R409): first-fit over every die of the partition. -/
def execNodePreemptRestore (s : State) : Out :=
  s.onNode 10 (fun o => o = 2) preemptIn (fun t vd x => t.preemptLater vd x false (fun u h =>
    some (u.beginRestore (.node vd x.id) vd 255 255 h.2)))

/-- The graph whose region a discarded record held fails its node with code 0x1B and detail 0x0A (R407). -/
def State.failDiscarded (s : State) (vd : Nat) (g : Option Nat) : State :=
  match g with
  | none => s
  | some g =>
    match s.graph vd g with
    | some x => s.failNode vd x 0x1B 0x0A
    | none => s

/-- `DISCARD` of a record (R407), with the failure of its graph's node. -/
def State.discard (s : State) (who : Issuer) (vd off : Nat) : State :=
  let r := s.beginDiscard vd off
  (r.2.2.failDiscarded vd r.2.1).anchorDone who r.1 0 off

/-- NODE_PREEMPT_DISCARD of graph `y` of VD `x` (R148, R409). -/
def execNodePreemptDiscard (s : State) : Out :=
  s.onNode 10 (fun o => o = 3) preemptIn (fun t vd x => t.preemptLater vd x false (fun u h =>
    some (u.discard (.node vd x.id) vd h.2)))

end Sys2Proof.Machine
end

