-- ==== Sys2Proof/Machine/Residency.lean ====
section
/-!
DEFINITION. Residency: what a VD holds while it is resident, what goes with it, and the rotation of VDs in a partition (R20, R153, R154,
R158, R159, R195, R363, R493; spec/05_helm.md, spec/06_tarns.md).
-/
namespace Sys2Proof.Machine
open Sys2Proof

/-! ### Clearing (R159) -/

/-- STORAGE_CLEAR of storage `y` of kind `x` (R154, R158, R159, R277). -/
def execStorageClear (s : State) : Out := .next (s.cleanStorage s.cur.x s.cur.y)

/-! ### Allocation at residency (R20, R158, R493) -/

/-- The layers that a VD holds in its partition (R493). -/
def State.layerCount (s : State) (vd : Nat) : Nat :=
  let n := (s.partStrips (s.vd vd).part).length
  if n = 0 then 0 else min 16 ((s.vd vd).q.tarns / (16 * n))

/-- The resident VDs of a partition. -/
def State.residents (s : State) (part : Nat) : List Nat :=
  (s.vds.filter (fun x => x.2.present && x.2.resident && x.2.part = part)).map (fun x => x.1)

/-- The quarters of a partition: stack · 4 + quarter of the strip (R98). -/
def State.partQuarters (s : State) (part : Nat) : List Nat :=
  (s.partStrips part).flatMap (fun k => [k / 4 * 8 + k % 4, k / 4 * 8 + 4 + k % 4])

/-- The layers and quarters that a VD would get now: none where too few are free, or where a quarter that it held before is
held by another. -/
def State.allocation (s : State) (vd : Nat) : Option (List Nat × List Nat) :=
  let d := s.vd vd
  let res := s.residents d.part
  let usedL := res.flatMap (fun v => (s.vd v).layers)
  let usedQ := res.flatMap (fun v => (s.vd v).quarters)
  let l := ((List.range 16).filter (fun k => !usedL.contains k)).take (s.layerCount vd)
  let old := d.quarters.take d.q.quarters
  let q := (old ++ (s.partQuarters d.part).filter (fun k => !usedQ.contains k && !old.contains k)).take d.q.quarters
  if l.length = s.layerCount vd && q.length = d.q.quarters && !q.any usedQ.contains
      && res.length < 4 * (s.partStrips d.part).length then some (l, q) else none

/-- A suppression entry as it comes back from the save area: where its line is poisoned or fails its check the operation is known and its
result is lost, which it answers as poisoned (R431; DESIGN CHOICE, log 23). -/
def State.readSupp (s : State) (vd : Nat) (x : Supp × Nat) : Supp :=
  if (s.miscBad vd (suppPlace x.2) 64).isEmpty then x.1 else { x.1 with result := 0, status := 2 }

/-- A VD made resident with an allocation (R154, R158): its storage passes to it, its FIFO tokens and suppression entries come back
(R195, R363), the log shows it. -/
def State.seat (s : State) (vd : Nat) (a : List Nat × List Nat) : State :=
  let d := s.vd vd
  let t := s.setVd vd { d with resident := true, layers := a.1, quarters := a.2, deficit := 0 }
  let cols := (s.partStrips d.part).flatMap (fun k => (List.range 16).map (fun c => 16 * k + c))
  let t := a.1.foldl (fun t l => cols.foldl (fun t c => t.takeStorage vd 0 (tarnAt c l)) t) t
  let t := a.2.foldl (fun t q => t.takeStorage vd 1 q) t
  let t := d.spilledFifos.foldl (fun (t : State) (x : Nat × Fifo) => t.bringFifo vd x.1) t
  let bad := (List.range d.spilledSupp.length).flatMap (fun i => s.miscBad vd (suppPlace i) 64)
  ((t.readBack vd bad).modVd vd (fun d => { d with supp := d.spilledSupp.zipIdx.map (s.readSupp vd) ++ d.supp, spilledSupp := [] })).log
    vd 0x04 [1, d.stolen]

/-- The storage of a VD's allocation, and the bands whose ponds hold its data. -/
def State.holdings (s : State) (vd : Nat) : List (Nat × Nat) :=
  let d := s.vd vd
  let cols := (s.partStrips d.part).flatMap (fun k => (List.range 16).map (fun c => 16 * k + c))
  let own : Nat × Nat → Bool := fun x => tfind s.lastVd (storageKey x.1 x.2) = some vd
  (d.layers.flatMap (fun l => cols.map (fun c => (0, tarnAt c l))) ++ d.quarters.map (fun q => (1, q))
    ++ ((s.partStrips d.part).flatMap (fun k => [(2, 2 * k), (2, 2 * k + 1)]))).filter own

/-- A VD made non-resident (R154 steps 4 and 5, R158, R195, R363): its on-package state is spilled; the images in its bands' shadow
slots stay (R150). Where its quota had run out the log shows the overrun (R153, R476). -/
def State.dismiss (s : State) (vd : Nat) : State :=
  let t := (s.holdings vd).foldl (fun t x => t.spillStorage vd x.1 x.2) (s.modVd vd (fun d => { d with spillTarns := d.q.tarns }))
  let t := s.fifos.foldl (fun (t : State) x => t.spillFifo vd x.1) t
  let supp := (t.vd vd).spilledSupp ++ (t.vd vd).supp
  let t := t.writeMisc vd (supp.zipIdx.map (fun x => (suppPlace x.2, x.1.bytes)))
  let t := if (s.vd vd).exhausted then t.log vd 0x03 [BitVec.ofNat 64 ((s.vd vd).charge - (s.vd vd).q.bricks)] else t
  (t.modVd vd (fun d => { d with
    resident := false, switching := false, injected := false, layers := [], waitSince := t.chron.toNat, spilledSupp := supp, supp := [] })).log vd 0x04 [0, (s.vd vd).stolen]

/-! ### Partition changes: the VDs that they touch (R155) -/

/-- The strips of a partition in a map. -/
def mapStrips (m : List Nat) (p : Nat) : List Nat := (List.range 24).filter (fun k => lget m k 255 = p)

/-- The partition of a VD after a change. -/
def State.newPart (s : State) (firsts : List Nat) (vd : Nat) : Nat :=
  if lget firsts vd 255 = 255 then (s.vd vd).part else lget firsts vd 255

/-- The VDs that a change touches: their partition, or its set of strips, changes. -/
def State.touched (s : State) (m firsts : List Nat) : List Nat :=
  (s.vds.filter (fun x => x.2.present && (s.newPart firsts x.1 ≠ x.2.part
    || mapStrips m (s.newPart firsts x.1) ≠ s.partStrips x.2.part))).map (fun x => x.1)

/-- Whether a partition change in progress touches a VD: it stays away until the change has been applied. -/
def State.changing (s : State) (vd : Nat) : Bool :=
  match s.change with
  | some (m, firsts, _) => (s.touched m firsts).contains vd
  | none => false

/-! ### Rotation (R154) -/

/-- Whether a graph waits for bands, or copies tarns. -/
def Graph.wantsFabric (x : Graph) : Bool :=
  x.started && (match x.state with
    | .placing => true
    | .copying _ _ _ => true
    | _ => false)

/-- Whether a VD has runnable work: launches that wait, or regions that the Helm has saved. -/
def Vd.hasWork (d : Vd) : Bool :=
  d.present && !d.exhausted && !d.migrating &&
    (d.saves.any (fun k => k.byHelm) || (!d.quarantined && d.graphs.any Graph.wantsFabric))

/-- The non-resident VDs of a partition with runnable work, longest waiting first, but for those that a partition change touches
(R155). A VD waits from when it left residence, or was created (DESIGN CHOICE, log 40: R154 does not say from when). -/
def State.waiting (s : State) (part : Nat) : List Nat :=
  let l := (s.vds.filter (fun x => x.2.part = part && !x.2.resident && x.2.hasWork && !s.changing x.1)).map (fun x => (x.2.waitSince, x.1))
  (l.foldl (fun acc x => (acc.takeWhile (fun y => y.1 < x.1 || (y.1 = x.1 && y.2 < x.2))) ++ [x]
    ++ acc.dropWhile (fun y => y.1 < x.1 || (y.1 = x.1 && y.2 < x.2))) []).map (fun x => x.2)

/-- A region of a VD that leaves, from which the Helm may start to save now. -/
def State.leaving (s : State) (r : Region) : Bool :=
  (s.vd r.vd).switching && r.shadow ≠ .loading &&
    (match s.snapOf r with
     | none => true
     | some o => !o.save && !o.restore && s.isFrozen r && (s.allocRecord r.vd r.bands).isSome)

/-- Where a Helm's own record of a VD goes back (R149, R155 step 6): first-fit, or its original place where it holds a channel node. -/
def State.returnPlace (s : State) (v : Nat) (k : SaveRec) : Option Nat :=
  if !k.byHelm || s.snaps.any (fun o => o.restore && o.vd = v && o.off = k.off) then none
  else if k.hasChannel then s.restorePlace v k.bands (k.lead / 8) (k.lead % 8)
  else s.restorePlace v k.bands 255 255

/-- The Helm's own record of a resident VD of a partition that goes back next, and its band: of those that fit, the one that was
launched first (R155 step 6). -/
def State.returning (s : State) (part : Nat) : Option (Nat × SaveRec × Nat) :=
  let l := ((s.residents part).filter (fun v => !(s.vd v).switching && !s.changing v)).flatMap (fun v =>
    (s.vd v).saves.filterMap (fun k => (s.returnPlace v k).map (fun b => (v, k, b))))
  l.foldl (fun (best : Option (Nat × SaveRec × Nat)) x =>
    match best with
    | some y => if x.2.1.region.orig < y.2.1.region.orig then some x else best
    | none => some x) none

/-- A record that the Helm puts back; one that cannot be restored is left to software. -/
def State.helmRestore (s : State) (v : Nat) (k : SaveRec) (b : Nat) : State :=
  let t := s.beginRestore .helm v (b / 8) (b % 8) k.off
  if t.snaps.any (fun o => o.restore && o.vd = v && o.off = k.off) then t
  else t.modVd v (fun d => { d with saves := d.saves.map (fun y => if y.off = k.off then { y with byHelm := false } else y) })

/-- One thing that a partition's residency calls for, if any: a region of a leaving VD is saved, a VD that has left is spilled, a
VD that waits is made resident, a saved region is restored. Where the room that a VD has left does not hold the one that waits longest, the
first that it holds becomes resident, which may be the VD that left (DESIGN CHOICE, log 40: R154 does not say who does). -/
def State.settleStep (s : State) (part : Nat) : Option State :=
  match (s.regions.filter (fun r => (s.vd r.vd).part = part && s.leaving r)).findSome? (fun r =>
      (s.beginTide .helm r).map (fun t => t.modVd r.vd (fun d => { d with injected := true }))) with
  | some t => some t
  | none =>
    match s.vds.find? (fun x => x.2.part = part && x.2.present && x.2.switching && x.2.resident
        && !s.regions.any (fun r => r.vd = x.1) && !s.hostOpen x.1) with
    | some x => some (s.dismiss x.1)
    | none =>
      match (s.waiting part).findSome? (fun v => (s.allocation v).map (fun a => (v, a))) with
      | some (v, a) => some (s.seat v a)
      | none =>
        match s.returning part with
        | some (v, k, b) => some (s.helmRestore v k b)
        | none => none

/-- The resident VD that is rotated out (R154): one without work, then the lowest deficit. One that holds a resident slot and one that is
quarantined stay (R469, R472). -/
def State.victim (s : State) (part : Nat) : Option Nat :=
  let l := (s.residents part).filter (fun v => (s.vd v).q.slot = 0 && !(s.vd v).quarantined)
  match l.find? (fun v => !(s.vd v).hasWork && !s.regions.any (fun r => r.vd = v)) with
  | some v => some v
  | none => l.foldl (fun best v =>
      match best with
      | none => some v
      | some b => if (s.vd v).deficit < (s.vd b).deficit then some v else some b) none

/-- The rotation of every 1 ms (R154): where R20 leaves the longest-waiting VD no room, it takes the place of another. -/
def State.rotate (s : State) (part : Nat) : State :=
  match (s.waiting part).head? with
  | none => s
  | some w =>
    if (s.residents part).any (fun v => (s.vd v).switching) then s
    else if (s.allocation w).isSome then s.soon .residencyRotation part 0 0
    else
      match s.victim part with
      | some v => (s.modVd v (fun d => { d with switching := true })).soon .residencyRotation part 0 0
      | none => s

/-- RESIDENCY_ROTATION of partition `x` (R154): `y` is 1 at the 1 ms rotation; otherwise one step of what residency calls for. -/
def execResidencyRotation (s : State) : Out :=
  if s.vox.devstate ≠ 2 then .next s
  else if s.cur.y = 1 then .next (s.rotate s.cur.x)
  else
    match s.settleStep s.cur.x with
    | some t => .next (t.soon .residencyRotation s.cur.x 0 0)
    | none => .next s

end Sys2Proof.Machine
end

