-- ==== Sys2Proof/Machine/Place.lean ====
section
/-!
DEFINITION. Placement and sharing: the choice among launches, placing a region and starting its block or its pilots, the sharing
period, the exhaustion of a quota (R39, R40, R142 to R144, R149 to R153; spec/05_helm.md).
-/
namespace Sys2Proof.Machine
open Sys2Proof

/-! ### Where a launch fits (R142, R149) -/

/-- The dies that an affinity mask names: every die when it is zero. -/
def maskDies (mask : Nat) : List Nat := (List.range 6).filter (fun d => mask = 0 || bit mask d)

/-- Whether a band belongs to a VD's partition and is not harvested. -/
def State.bandOwn (s : State) (vd p : Nat) : Bool :=
  !s.harvested p && s.partOf (p / 2) = (s.vd vd).part && (s.vd vd).part != 255

/-- The first run of free bands under a mask (R149). -/
def State.fitMask (s : State) (vd n mask : Nat) : Option Nat := (maskDies mask).findSome? (fun d => s.fitDie vd n d)

/-- Whether every die of a mask is harvested or holds no strip of the partition (R142, code 0x14). A die whose bands of the partition
are all harvested counts as harvested (DESIGN CHOICE, log 39). -/
def State.noDie (s : State) (vd mask : Nat) : Bool :=
  (maskDies mask).all (fun d => (List.range 8).all (fun o => !s.bandOwn vd (8 * d + o)))

/-- Whether no die of a mask could ever hold `n` bands (R142, code 0x15). -/
def State.neverFits (s : State) (vd n mask : Nat) : Bool :=
  (maskDies mask).all (fun d => (List.range (9 - n)).all (fun o =>
    !(List.range n).all (fun i => s.bandOwn vd (8 * d + o + i))))

/-- The band count and the affinity mask of a launching node. -/
def Graph.bands (x : Graph) : Nat := rd x.line 0x20 1
/-- The affinity mask of a launching node. -/
def Graph.mask (x : Graph) : Nat := rd x.line 0x21 1

/-- Whether the Helm may place launches of a VD (R152 to R155, R472). -/
def Vd.mayPlace (d : Vd) : Bool := d.present && d.resident && !d.switching && !d.quarantined && !d.exhausted && !d.migrating

/-- The launches of a partition that wait: VD and graph. -/
def State.launches (s : State) (part : Nat) : List (Nat × Graph) :=
  (s.vds.filter (fun x => x.2.part = part && x.2.mayPlace)).flatMap (fun x =>
    (x.2.graphs.filter (fun g => g.started && g.state = .placing)).map (fun g => (x.1, g)))

/-! ### The choice (R152) -/

/-- The effective priority of a launch: the queue number less a step for each 200 µs of runnable wait. -/
def Graph.priority (x : Graph) : Nat := x.queue - x.waited / 200000

/-- The last VD that was served in a partition; before any was, 95, so that VD 0 has the first turn (DESIGN CHOICE, log 3: R152 does not
say). -/
def State.lastServed (s : State) (part : Nat) : Nat := tget s.lastVd (storageKey 3 part) 95

/-- The rank of a launch: rule 1 (oldest first), then priority, deficit and round-robin place, acceptance. Smaller is first. -/
def State.rank (s : State) (part : Nat) (x : Nat × Graph) : List Nat :=
  let turn := (x.1 + 96 - s.lastServed part - 1) % 96
  if x.2.waited ≥ 600000 then [0, 2 ^ 64 - x.2.waited, turn, x.2.id]
  else [1, x.2.priority, b2n ((s.vd x.1).deficit ≤ 0), turn, x.2.id]

/-- Lexicographic order. -/
def lexLt : List Nat → List Nat → Bool
  | _, [] => false
  | [], _ :: _ => true
  | a :: l, b :: r => a < b || (a = b && lexLt l r)

/-- The runnable launch that is placed next. -/
def State.nextLaunch (s : State) (part : Nat) : Option (Nat × Graph) :=
  ((s.launches part).filter (fun x => (s.fitMask x.1 x.2.bands x.2.mask).isSome)).foldl (fun best x =>
    match best with
    | none => some x
    | some b => if lexLt (s.rank part x) (s.rank part b) then some x else some b) none

/-! ### Placing (R23, R149, R150) -/

/-- The bands of a region pass to its VD, with their ponds (R159). -/
def State.takeBands (s : State) (vd lead n : Nat) : State :=
  (List.range n).foldl (fun t i => t.takeStorage vd 2 (lead + i)) s

/-- A region placed for a graph, and the graph's node under way. -/
def State.placeFor (s : State) (vd : Nat) (x : Graph) (r : Region) : State :=
  ((((s.dropKept r.lead r.bands).placeRegion r).takeBands vd r.lead r.bands).setGraph vd { x with state := .placed })

/-- The kept image that makes a launch warm: loaded for the same VD, on the same bands, with the same address and check (R150). -/
def State.warmImage (s : State) (vd lead n addr : Nat) : Option Image :=
  match tfind s.kept lead, s.fetch vd addr 4 with
  | some k, .ok h => if k.vd = vd && k.bands = n && k.img.addr = addr && k.img.check = rd h 0x38 4 then some k.img else none
  | _, _ => none

/-- A `BLOCK` launch at a placement (R40, R142, R143): a failure shows before any region is held, and its report names the element and
the code. -/
def State.placeBlock (s : State) (vd : Nat) (x : Graph) (lead : Nat) : State :=
  let n := x.bands
  let addr := rd x.line 0x10 8
  let r := Region.start lead n vd x.id s.incs .block
  match s.warmImage vd lead n addr with
  | some m => (s.placeFor vd x r).launch r m
  | none =>
    match s.loadImage vd lead n addr with
    | .fail f => (s.modVd vd (fun d => { d with
        failReport := some (f.code, elemAt (8 * lead + f.col) f.row) })).failNode vd x 0x11 f.code
    | .fetch _ bad => (s.afterWalk bad).failNode vd x 0x1A 2
    | .image m => ((s.placeFor vd x r).install r m).launch r m

/-- The bytes of a chart image (R144): none where a word cannot be read. -/
def State.chartImage (s : State) (vd va n : Nat) : Option (List Byte) × State :=
  (List.range (n / 4)).foldl (fun acc i =>
    match acc with
    | (none, t) => (none, t)
    | (some l, t) =>
      match t.helmRead vd (va + 4 * i) 4 with
      | (some b, u) => (some (l ++ b), u)
      | (none, u) => (none, u)) (some [], s)

/-- A pilot as a `PILOT` node starts it (R144). -/
def Pilot.startAt (entry arg index : Nat) : Pilot :=
  let p := { Pilot.reset with pc := chartBase + BitVec.ofNat 64 entry, run := .running }
  (p.set 1 (BitVec.ofNat 64 arg)).set 2 (BitVec.ofNat 64 index)

/-- Pilots of a region with a chart image at offset 0 of their chart memories (R144); the rest reads zero. -/
def State.startPilots (s : State) (r : Region) (l : List Byte) (entry arg : Nat) : State :=
  (List.range r.bands).foldl (fun t i =>
    let p := r.lead + i
    let u := { t.putZero (chartCell p 0) 65536 with
      poison := t.poison.filter (fun c => c < chartCell p 0 || chartCell p 65536 ≤ c) }
    (u.put (chartCell p 0) l).setPilot p (Pilot.startAt entry arg i)) s

/-- A `PILOT` launch at a placement (R144). -/
def State.placePilot (s : State) (vd : Nat) (x : Graph) (lead : Nat) : State :=
  match s.chartImage vd (rd x.line 0x10 8) (rd x.line 0x18 4) with
  | (none, t) => t.failNode vd x 0x1A 2
  | (some l, t) =>
    let r := Region.start lead x.bands vd x.id t.incs .pilot
    (t.freshInc.placeFor vd x r).startPilots r l (rd x.line 0x1C 4) (rd x.line 0x28 8)

/-- A launch placed, of either kind. -/
def State.placeLaunch (s : State) (vd : Nat) (x : Graph) (lead : Nat) : State :=
  let t := { s with lastVd := tset s.lastVd (storageKey 3 (s.vd vd).part) vd }
  if rd x.line 0 1 = 1 then t.placeBlock vd x lead else t.placePilot vd x lead

/-- The launches of a partition that wait have been tried (R149). -/
def State.markTried (s : State) (part : Nat) : State :=
  { s with vds := s.vds.map (fun x =>
      if x.2.part = part && x.2.mayPlace then
        (x.1, { x.2 with graphs := x.2.graphs.map (fun g => if g.started && g.state = .placing then { g with tried := true } else g) })
      else x) }

/-- PLACE_LAUNCH of partition `x` (R149 to R152): a launch that can never be placed fails at its first attempt; otherwise the choice
order's first is placed; and the next may follow. -/
def execPlaceLaunch (s : State) : Out :=
  let part := s.cur.x
  if s.vox.devstate ≠ 2 then .next s
  else
    match (s.launches part).find? (fun x => !x.2.tried && s.neverFits x.1 x.2.bands x.2.mask) with
    | some x =>
      .next ((s.failNode x.1 x.2 (if s.noDie x.1 x.2.mask then 0x14 else 0x15) 0).soon .placeLaunch part 0 0)
    | none =>
      let s := s.markTried part
      match s.nextLaunch part with
      | none => .next s
      | some x =>
        match s.fitMask x.1 x.2.bands x.2.mask with
        | some lead => .next ((s.placeLaunch x.1 x.2 lead).soon .placeLaunch part 0 0)
        | none => .next s

/-! ### Sharing brick-cycles (R151 to R153) -/

/-- The elements of a partition: 1,024 for each band that is not harvested (R17). -/
def State.partElems (s : State) (part : Nat) : Nat :=
  1024 * ((s.partStrips part).flatMap (fun k => [2 * k, 2 * k + 1].filter (fun p => !s.harvested p))).length

/-- The brick-cycles of a partition in a period (R152). -/
def State.periodQ (s : State) (part : Nat) : Int := 256 * (s.partElems part : Nat) * 100000

/-- The deficit of a VD at the end of a sharing period (R152). `Q` × `W`v / (the sum of `W`u) is rounded down (DESIGN CHOICE, log 40: R152
does not say how). -/
def newDeficit (q d : Int) (w sum charge : Nat) : Int :=
  max (min (2 * q) (d + q * (w : Int) / (sum : Int)) - (charge : Int)) (-(2 * q))

/-- SHARING_PERIOD (R152): the deficits of every resident VD, each 50 µs. -/
def execSharingPeriod (s : State) : Out :=
  .next { s with vds := s.vds.map (fun x =>
    if x.2.present && x.2.resident then
      let sum := ((s.residents x.2.part).map (fun v => (s.vd v).q.weight)).sum
      (x.1, { x.2 with
        deficit := newDeficit (s.periodQ x.2.part) x.2.deficit x.2.q.weight sum x.2.periodCharge, periodCharge := 0 })
    else (x.1, { x.2 with periodCharge := 0 })) }

/-- QUOTA_EXHAUSTED of VD `x` (R153, R471): its launches wait, its regions are switched out, and it stays non-resident until the
interval renews. -/
def execQuotaExhausted (s : State) : Out :=
  let d := s.vd s.cur.x
  if d.present && !d.exhausted && d.q.bricks ≠ 0 && d.charge ≥ d.q.bricks then
    .next ((s.setVd s.cur.x { d with exhausted := true, switching := d.resident }).soon .residencyRotation d.part 0 0)
  else .next s

end Sys2Proof.Machine
end

