-- ==== Sys2Proof/Machine/AnchorCmd.lean ====
section
/-!
DEFINITION. The anchor commands (R406 to R408): sizes, tides, freezes, saves, restores and discards, as the mailbox issues them,
and their completion, whoever issued them.
-/
namespace Sys2Proof.Machine
open Sys2Proof

/-- A byte or field of the latched anchor record (R406): the record lies at buffer offset 0x08 (R463). -/
def Voxkan.anchor (v : Voxkan) (o n : Nat) : Nat := v.field (8 + o) n

/-- Whether the fields of an anchor record lie in their limits (R406, R408 code 0x01). -/
def Voxkan.anchorOk (v : Voxkan) : Bool :=
  let f := v.anchor
  let op := f 0 1
  let flag := f 1 1
  1 ≤ op && op ≤ 6 && (flag = 0 || (flag = 1 && (op = 1 || op = 3))) && f 2 1 < 96
    && (match op with
        | 1 => 1 ≤ f 3 1 && f 3 1 ≤ 48
        | 5 => f 3 1 ≤ 5 || (f 3 1 = 255 && f 4 1 = 255)
        | _ => f 3 1 = 0)
    && (if op = 5 then f 4 1 ≤ 7 || f 4 1 = 255 else f 4 1 = 0)
    && f 5 3 = 0 && (2 ≤ op && op ≤ 4 || f 8 4 = 0) && f 0xC 4 = 0

/-- The mailbox's anchor command, while it has not begun: a command that must wait stays so. -/
def State.anchorOpen (s : State) (op : Nat) : Bool :=
  s.vox.busy && s.vox.devstate = 2 && s.vox.latched = some 0x21 && (s.vox.anchor 0 1 = op || !s.vox.anchorOk)
    && !s.snaps.any (fun o => o.who = .mailbox)

/-- A mailbox anchor command on a VD that exists (R408, R464). -/
def State.anchorRow (s : State) (op : Nat) (k : Nat → Option State) : Out :=
  if !s.anchorOpen op then .next s
  else if !s.vox.anchorOk then .next (s.anchorDone .mailbox 1 0 (s.vox.anchor 0x10 8))
  else if !(s.vd (s.vox.anchor 2 1)).present then .next (s.anchorDone .mailbox 2 0 (s.vox.anchor 0x10 8))
  else .next ((k (s.vox.anchor 2 1)).getD s)

/-- A snapshot, freeze or save of region `lead` that is complete is written (R398, R400, R407); nothing is in fatal state (R488). -/
def State.snapRow (s : State) (lead : Nat) : Out :=
  match s.region lead with
  | none => .next s
  | some r =>
    match s.snapOf r with
    | some o => if s.vox.devstate != 3 && s.snapDone r o then .next (s.saveRegion r o) else .next s
    | none => .next s

/-- CTXSIZE (R403, R407). -/
def execCtxsize (s : State) : Out :=
  let n := s.vox.anchor 3 1
  if !s.anchorOpen 1 then .next s
  else if !s.vox.anchorOk then .next (s.anchorDone .mailbox 1 0 (s.vox.anchor 0x10 8))
  else if s.vox.anchor 1 1 = 0 then .next (s.anchorDone .mailbox 0 0 (recordSize n))
  else
    let d := s.vd (s.vox.anchor 2 1)
    if d.present then .next (s.anchorDone .mailbox 0 0 (areaSize n d.spill d.q.tarns d.q.quarters))
    else .next (s.anchorDone .mailbox 2 0 (s.vox.anchor 0x10 8))

/-- TIDE (R391, R407): `x` 0 the mailbox's command begins; `x` 1 the snapshot of region `y` is complete. -/
def execTide (s : State) : Out :=
  if s.cur.x = 1 then s.snapRow s.cur.y
  else s.anchorRow 2 (fun v => s.onNamed v (s.vox.anchor 8 4) .mailbox (fun r => s.beginTide .mailbox r))

/-- FREEZE (R400, R407): `x` as for TIDE; flag [0] also saves. -/
def execFreeze (s : State) : Out :=
  if s.cur.x = 1 then s.snapRow s.cur.y
  else s.anchorRow 3 (fun v => s.onNamed v (s.vox.anchor 8 4) .mailbox (fun r => s.beginFreeze .mailbox r (s.vox.anchor 1 1 = 1)))

/-- SAVE (R407): `x` as for TIDE. -/
def execSave (s : State) : Out :=
  if s.cur.x = 1 then s.snapRow s.cur.y
  else s.anchorRow 4 (fun v => s.onNamed v (s.vox.anchor 8 4) .mailbox (fun r => s.beginSave .mailbox r))

/-- RESTORE (R389, R407, R410 to R412): `x` 0 the mailbox's command begins; `x` 1 the restore of region `y` re-issues its next entry,
and ends when it has re-issued them all; in fatal state it stays where it is (R488). -/
def execRestore (s : State) : Out :=
  if s.cur.x = 1 then
    match s.region s.cur.y with
    | none => .next s
    | some r =>
      match s.snapOf r with
      | some o =>
        if o.restore && s.vox.devstate != 3 then
          match o.todo with
          | q :: _ => .next ((s.reissue r q).soon .restore 1 s.cur.y 0)
          | [] => .next (s.endRestore r o)
        else .next s
      | none => .next s
  else
    s.anchorRow 5 (fun v => some (s.beginRestore .mailbox v (s.vox.anchor 3 1) (s.vox.anchor 4 1) (s.vox.anchor 0x10 8)))

/-- DISCARD (R407, R413) from the mailbox. -/
def execDiscard (s : State) : Out :=
  s.anchorRow 6 (fun v => some (s.discard .mailbox v (s.vox.anchor 0x10 8)))

end Sys2Proof.Machine
end

