-- ==== Sys2Proof/Machine/HelmRegs.lean ====
section
/-!
DEFINITION. The Helm page: watch lines, launch words, invalidations (R123, R125, R133 to R138; spec/05_helm.md).
-/
namespace Sys2Proof.Machine
open Sys2Proof

/-! ### Invalidation (R123, R134) -/

/-- Whether a translation entry meets a range of addresses. -/
def TEntry.meets (e : TEntry) (lo hi : Nat) : Bool := e.va < hi && lo < e.va + 2 ^ e.size

/-- An entry kept, unless it meets the range. -/
def keepEntry (lo hi : Nat) (e : Option TEntry) : Option TEntry := e.filter (fun x => !x.meets lo hi)

/-- The bindings of a block without entries of a range. -/
def Block.invalidate (b : Block) (lo hi : Nat) : Block :=
  { b with binds := b.binds.map (fun (x : BindSt) => { x with te := keepEntry lo hi x.te }) }

/-- The entries of an edge unit without those of a range. -/
def Edge.invalidate (g : Edge) (lo hi : Nat) : Edge :=
  { g with
    entries := g.entries.filter (fun x => !x.2.meets lo hi),
    cmds := g.cmds.map (fun c => { c with te := keepEntry lo hi c.te, te2 := keepEntry lo hi c.te2 }) }

/-- A pilot at an invalidation: its entries are emptied (R323), and an access in flight that an entry of the range translated is noted,
for the drain to wait for it (R123, R134). -/
def Pilot.invalidate (p : Pilot) (lo hi : Nat) : Pilot :=
  { p with tlb := [], pend := p.pend.map (fun x => { x with stale := x.stale || x.te.any (fun e => e.meets lo hi) }) }

/-- An invalidation broadcast to every pilot, address generator and engine of a VD (R123). -/
def State.invalidate (s : State) (vd lo hi : Nat) : State :=
  let s := { s with hb := { s.hb with entries := s.hb.entries.filter (fun x => !(x.1 = vd && x.2.va < hi && lo < x.2.va + 2 ^ x.2.size)) } }
  (s.regions.filter (fun r => r.vd = vd)).foldl (fun t r =>
    let t := t.touchPilots r (fun _ p => p.invalidate lo hi)
    let t := t.touchEdges r (fun _ g => g.invalidate lo hi)
    t.modRegion r.lead (fun q => { q with
      cur := q.cur.map (fun b => b.invalidate lo hi), succ := q.succ.map (fun b => b.invalidate lo hi),
      prev := q.prev.map (fun b => b.invalidate lo hi) })) s

/-- Whether every access of a VD that an old entry had translated before the broadcast has performed (R123, R134): those of its pilots,
and the commands that had arrived at the eddy units when `since` packets had been counted. An engine's other accesses translate as they perform. -/
def State.drainedOld (s : State) (vd since : Nat) : Bool :=
  (s.regions.filter (fun r => r.vd = vd)).all (fun r =>
    (List.range r.bands).all (fun i => (s.pilot (r.lead + i)).pend.all (fun x => !x.stale))
      && r.ends.all (fun g => (s.edge g).cmds.all (fun c => c.unit.all (fun u => since ≤ u.1))))

/-- `HINVCTL` written by VD `x` (R133, R134): a request, unless eight are pending. -/
def execHinvctl (v : DWord) (s : State) : Out :=
  .next (s.modVd s.cur.x (fun d =>
    let h := d.helm
    if h.invq.length ≥ 8 then { d with helm := { h with overflow := true } }
    else { d with helm := { h with invq := h.invq ++
      [(h.hinva.toNat, v.toNat / 2 ^ 44 + 1, v.toNat % 2 ^ 32, h.hinvdst.toNat)] } }))

/-- INVALIDATION_COMPLETE of VD `x` (R123, R134): the oldest request is broadcast; once it has drained its sequence number is
stored as a release. A destination that cannot be translated or stored to gets nothing, and the request completes (DESIGN CHOICE, log 39:
R134 does not say). -/
def execInvalidationComplete (s : State) : Out :=
  let vd := s.cur.x
  let h := (s.vd vd).helm
  match h.invq with
  | [] => .next s
  | (a, n, seq, dst) :: rest =>
    if !h.draining then
      .next ((s.invalidate vd a (a + 4096 * n)).modVd vd (fun d => { d with helm := { d.helm with draining := true, drainFrom := s.cmdNo } }))
    else if !s.drainedOld vd h.drainFrom then .next s
    else
      let done : State → State := fun t => t.modVd vd (fun d => { d with helm := { d.helm with invq := rest, draining := false } })
      match s.helmCell vd dst true with
      | .error b => .next (done (s.afterWalk b))
      | .ok c =>
        if isHost c && !s.sysReady vd then .next s
        else .next (done (s.write vd c (toLe 8 seq) false))

/-! ### Watch lines and launch words (R133, R135 to R138) -/

/-- The address of a watch line. -/
def HelmPage.line (h : HelmPage) (q : Nat) : Nat := (h.hwatch &&& 0x000FFFFFFFFFFF00).toNat + 64 * q
/-- Whether the watch lines are held. -/
def HelmPage.enabled (h : HelmPage) : Bool := h.hwatch.getLsbD 0

/-- The cell of a watch line: it must lie in host memory (R135). -/
def State.watchCell (s : State) (vd q : Nat) : Option Nat :=
  match s.helmCell vd ((s.vd vd).helm.line q) false with
  | .ok c => if isHost c then some c else none
  | .error _ => none

/-- An accept word: the launch number and the verdict (R135). -/
def acceptWord (l verdict : Nat) : Nat := l * 2 ^ 52 + verdict

/-- An accept word of a queue, a release at `SYSTEM` scope: it waits for the stores before it (R126, R135, R136). -/
def State.putAccept (s : State) (vd q c l verdict : Nat) : State :=
  if s.sysReady vd then s.write vd (c + 8) (toLe 8 (acceptWord l verdict)) false
  else s.modVd vd (fun d => { d with helm := { d.helm with owed := tset d.helm.owed q (acceptWord l verdict) } })

/-- An accept word that has waited, stored where its line still lies. -/
def State.payAccept (s : State) (vd q w : Nat) : State :=
  let t := s.modVd vd (fun d => { d with helm := { d.helm with owed := tdel d.helm.owed q } })
  match t.watchCell vd q with
  | some c => t.write vd (c + 8) (toLe 8 w) false
  | none => t

/-- The launch word of a queue read as the lines are enabled: the copy of its number, and the accept word (R135). -/
def State.openLine (s : State) (vd q : Nat) : State :=
  match s.watchCell vd q with
  | none => s
  | some c =>
    let l := fromLe (s.view c 8) / 2 ^ 52
    (s.modVd vd (fun d => { d with helm := { d.helm with
      accepts := vs d.helm.accepts q (BitVec.ofNat 12 l), taken := vs d.helm.taken q false } })).putAccept vd q c l 0

/-- `HWATCH` written by VD `x` (R133, R135). -/
def execHwatchWrite (v : DWord) (s : State) : Out :=
  let vd := s.cur.x
  let was := (s.vd vd).helm.enabled
  let w := v &&& 0x000FFFFFFFFFFF1F
  let t := s.modVd vd (fun d => { d with helm := { d.helm with hwatch := w } })
  if !w.getLsbD 0 then .next t
  else if (t.watchCell vd 0).isNone then
    .next (s.modVd vd (fun d => { d with helm := { d.helm with hwatch := w &&& ~~~ 1#64 } }))
  else if was then .next t
  else .next ((List.range 4).foldl (fun u q => u.openLine vd q) t)

/-- A graph as it is accepted (R138, R360). -/
def Graph.accept (id q node serial now : Nat) : Graph :=
  { id := id, queue := q, node := node, started := false, state := .begin, stack := [], line := [], since := now, lastRead := now,
    waited := 0, tried := false, serial := serial, seq := 0, todo := [], acted := [], answer := none }

/-- The acceptance serial after one (R360): it never takes the value 0. -/
def nextSerial (n : Nat) : Nat := if n = 2 ^ 32 - 1 then 1 else n + 1

/-- A launch accepted: the graph enters its queue, which starts it if fewer than eight run (R138). -/
def Vd.accept (d : Vd) (q node now : Nat) : Vd :=
  ({ d with
    graphs := d.graphs ++ [Graph.accept d.nextGraph q node d.serial now],
    nextGraph := d.nextGraph + 1, serial := nextSerial d.serial } : Vd).start q

/-- The verdict on a launch word (R135): 0x02 for any word while its queue is disabled. -/
def launchVerdict (h : HelmPage) (q w : Nat) : Nat :=
  if h.hwatch.getLsbD (1 + q) then 2 else if w % 64 ≠ 0 then 1 else 0

/-- LAUNCH_WORD of queue `y` of VD `x` (R125, R135 to R138): a host write has taken the line; the word is read once, and launched
where its number is new. With 64 graphs in the queue the read waits. An accept word that has waited is stored first. -/
def execLaunchWord (s : State) : Out :=
  let vd := s.cur.x
  let q := s.cur.y
  let d := s.vd vd
  let h := d.helm
  if s.vox.devstate ≠ 2 || !h.enabled then .next s
  else
    match tfind h.owed q with
    | some w => .next (if s.sysReady vd then s.payAccept vd q w else s)
    | none =>
      if !vg h.taken q false || (d.graphs.filter (fun g => g.queue = q)).length ≥ 64 then .next s
      else
        let t := s.modVd vd (fun d => { d with helm := { d.helm with taken := vs d.helm.taken q false } })
        match s.watchCell vd q with
        | none => .next t
        | some c =>
          let w := fromLe (s.view c 8)
          let l := w / 2 ^ 52
          if BitVec.ofNat 12 l = vg h.accepts q 0 then .next t
          else
            let verdict := launchVerdict h q w
            let u := t.modVd vd (fun d => { d with helm := { d.helm with accepts := vs d.helm.accepts q (BitVec.ofNat 12 l) } })
            let u := if verdict = 0 then u.modVd vd (fun d => d.accept q (w % 2 ^ 52) s.chron.toNat) else u
            .next (u.putAccept vd q c l verdict)

/-- The watch lines that a host write takes from the Helm (R136). -/
def State.takeLines (s : State) (a : Nat) : State :=
  { s with vds := s.vds.map (fun x =>
      if x.2.present && x.2.helm.enabled then
        (x.1, { x.2 with helm := { x.2.helm with taken := Vector.ofFn (fun q : Fin 4 =>
          vg x.2.helm.taken q.val false || (s.watchCell x.1 q.val).map unitOf = some (unitOf a)) } })
      else x) }

end Sys2Proof.Machine
end

