-- ==== Sys2Proof/Machine/Cipher.lean ====
section
/-!
DEFINITION. The cipher units: data-line reads and writes, the write-back of tree nodes, and windows opened, re-keyed and closed (R417 to
R438; spec/16_cipher.md).
-/
namespace Sys2Proof.Machine
open Sys2Proof

/-! ### Lines read and written by a stack unit (R417, R425, R427 to R429) -/

/-- The bytes that a mask selects, merged over others. -/
def mergeBytes (old : List Byte) (data : BitVec 512) (mask : BitVec 64) : List Byte :=
  old.mapIdx (fun i b => if mask.getLsbD i then data.extractLsb' (8 * i) 8 else b)

/-- What a partial write merges into: a poisoned line reads as 64 zero bytes (R429). -/
def State.mergeBase (s : State) (a : Nat) : List Byte := if s.badAt a then List.replicate 64 0 else s.bytes (unitOf a) 64

/-- DATA_LINE_WRITE of `data` under `mask` into the line of address `x`, poisoned where `y` is 1 (R417, R421, R422, R425, R428,
R429): counters advance, a failing line is written poisoned, a frame whose counter line fails takes nothing. -/
def execDataLineWrite (data : BitVec 512) (mask : BitVec 64) (s : State) : Out :=
  let a := unitOf s.cur.x
  if !isHbm a || (mask = 0 && s.cur.y = 0) then .next s
  else .next (s.storeUnit a (mergeBytes (s.mergeBase a) data mask) (s.cur.y = 1))

/-- The nodes above a line that are verified on its read, from its counter line to the first that the cache of the stack's unit holds, or
to the root (R427), put in that cache (R426). -/
def State.cachePath (s : State) (stack owner n : Nat) : List Nat → State
  | [] => s
  | level :: r =>
    let key := nodeKey owner level (n / 64 ^ (level - 1))
    if s.cipher.cached.contains (cacheKey stack key) then s else State.cachePath (s.cacheNode stack key) stack owner n r

/-- DATA_LINE_READ of the line of address `x` (R417, R426, R427, R428, R430): a line that fails its check, or whose counter line does,
raises an integrity event; what the reader gets is `State.check`. The nodes that have been verified stay in the unit's cache. -/
def execDataLineRead (s : State) : Out :=
  let a := s.cur.x
  let f := s.frameOf a
  if !isHbm a || f.kind = 0 || s.cipher.badCounters.contains (a / 4096) then .next (s.afterRead a)
  else .next ((s.afterRead a).cachePath (a / 0xC00000000) f.ownerKey f.num [1, 2, 3, 4, 5])

/-- A node of an owner's tree. -/
def State.treeNode (s : State) (owner level k : Nat) : Counter := tget s.cipher.nodes (nodeKey owner level k) Counter.zero

/-- Whether a minor counter can advance no more (R425). -/
def Counter.exhausted (c : Counter) (i : Nat) : Bool := c.major = 2 ^ 64 - 1 && 127 ≤ tget c.minors i 0

/-- A minor counter advanced under the rule of R425: on overflow the major counter advances and every minor is 0;
an exhausted counter stays. -/
def Counter.bump (c : Counter) (i : Nat) : Counter :=
  if c.exhausted i then c
  else if tget c.minors i 0 < 127 then { c with minors := tset c.minors i (tget c.minors i 0 + 1) }
  else { major := c.major + 1, minors := [] }

/-- The first line of the frames beneath a node, which an event about the node names (log 45). -/
def State.lineUnder (s : State) (owner level index : Nat) : Nat :=
  match (s.cipher.frames.filter (fun x => x.2.kind != 0 && x.2.ownerKey = owner && x.2.num / 64 ^ (level - 1) = index)).head? with
  | some x => 4096 * x.1
  | none => (s.vd owner).saveBase

/-- NODE_WRITE_BACK of a node of owner `x` at level `y` from the cache of a unit (R426): `z` is its index, plus 2^30 times the stack. It
leaves the cache, and its minor counter in its parent advances; the parent of a level-5 node is the root, in the key store. Where the
parent's minor overflows, its other children pass under the new counters: their MACs are those of `nodeMac`. Where its counter is
exhausted nothing is written back, and an integrity event is raised, under the rule of R425. -/
def execNodeWriteBack (s : State) : Out :=
  let stack := s.cur.z / 2 ^ 30
  let index := s.cur.z % 2 ^ 30
  let key := cacheKey stack (nodeKey s.cur.x s.cur.y index)
  if !s.cipher.cached.contains key || s.cur.y < 1 || 5 < s.cur.y then .next s
  else
    let up := nodeKey s.cur.x (s.cur.y + 1) (index / 64)
    let c := s.cipher
    let p := s.treeNode s.cur.x (s.cur.y + 1) (index / 64)
    if p.exhausted (index % 64) then .next (s.integrity (s.lineUnder s.cur.x s.cur.y index) s.cur.y) else
    let t := { s with cipher := { c with
      nodes := tset c.nodes up (p.bump (index % 64)), cached := c.cached.filter (fun k => k != key) } }
    .next (if s.cur.y = 5 then t else t.cacheNode stack up)

/-! ### Windows: checks (R434 to R437) -/

/-- The fields of a window operation: operation, handle address, base, length, member list, and whether an unused byte is set. -/
structure WinOp where
  op : Nat
  handle : Nat
  base : Nat
  len : Nat
  members : Nat
  clean : Bool
  deriving DecidableEq, Repr

/-- The fields of a `WINOP`, from bytes 0x10 to 0x3F of its node. -/
def winOpOf (f : Nat → Nat → Nat) : WinOp :=
  { op := f 0x10 1, handle := f 0x18 8, base := f 0x20 8, len := f 0x28 8, members := f 0x30 8,
    clean := f 0x11 7 = 0 && f 0x38 8 = 0 }

/-- Whether the fields lie in their limits (code 0x01 of R437). -/
def WinOp.ok (w : WinOp) : Bool :=
  w.clean && addrOk w.handle 8 &&
  match w.op with
  | 0 => addrOk w.base 4096 && w.len % 4096 = 0 && 4096 ≤ w.len && w.len ≤ 2 ^ 34 && addrOk w.members 2
  | 1 => w.base = 0 && w.len = 0 && addrOk w.members 2
  | 2 => w.base = 0 && w.len = 0 && w.members = 0
  | _ => false

/-- The frames of a range, with the opener's number of each: none where a page is not mapped writable to a frame that the opener
owns (code 0x02). A table line that fails its check raises its event (R428). -/
def State.rangeFrames (s : State) (vd base : Nat) : Nat → Option (List (Nat × Nat)) × State
  | 0 => (some [], s)
  | n + 1 =>
    match s.place vd base true false [] with
    | .cell c e =>
      let f := s.frameOf c
      if isHbm c && e.w && f.kind = 1 && f.owner = vd then
        let x := State.rangeFrames s vd (base + 4096) n
        (x.1.map (fun l => (c / 4096, f.num) :: l), x.2)
      else (none, s)
    | .fault _ bad => (none, s.afterWalk bad)
    | _ => (none, s)

/-- The lowest free window slot (R436). -/
def State.freeSlot (s : State) : Option Nat := (List.range 64).find? (fun k => (tfind s.cipher.windows k).isNone)

/-- A list without a repeated entry. -/
def distinct : List Nat → Bool
  | [] => true
  | x :: r => !r.contains x && distinct r

/-- `n` entries of a member list, from an address (R435): none where one cannot be read. -/
def State.entries (s : State) (opener va : Nat) : Nat → Option (List Nat) × State
  | 0 => (some [], s)
  | n + 1 =>
    match s.helmRead opener va 2 with
    | (none, t) => (none, t)
    | (some h, t) =>
      let x := State.entries t opener (va + 2) n
      (x.1.map (fun l => fromLe h :: l), x.2)

/-- A member list read and checked (R435): none where it is invalid or cannot be read. -/
def State.memberList (s : State) (opener va : Nat) : Option (List Nat) × State :=
  match s.helmRead opener va 2 with
  | (none, t) => (none, t)
  | (some h, t) =>
    if fromLe h < 1 || 15 < fromLe h then (none, t)
    else
      let x := t.entries opener (va + 2) (fromLe h)
      (x.1.filter (fun m => m.all (fun v => v < 96 && (s.vd v).present && v != opener) && distinct m), x.2)

/-- The window that the handle at an address names for its opener: code 0x05 where it is not live or another's, 0x06 where it
cannot be read. -/
def State.namedWindow (s : State) (opener va : Nat) : Except Nat (Nat × Window) × State :=
  match s.helmWord opener va with
  | (none, t) => (.error 6, t)
  | (some h, t) =>
    match s.handleSlot opener h with
    | none => (.error 5, t)
    | some k =>
      match tfind s.cipher.windows k with
      | some w => (if w.opener = opener then .ok (k, w) else .error 5, t)
      | none => (.error 5, t)

/-- The checks of `WINOPEN` (R437): the lowest code, or the plan. -/
def State.openCheck (s : State) (opener : Nat) (w : WinOp) : Except Nat WinPlan × State :=
  let f := s.rangeFrames opener w.base (w.len / 4096)
  let m := f.2.memberList opener w.members
  match f.1, s.freeSlot, m.1 with
  | none, _, _ => (.error 2, f.2)
  | _, none, _ => (.error 3, m.2)
  | _, _, none => (.error 4, m.2)
  | some fs, some k, some l =>
    match s.helmCell opener w.handle true with
    | .ok c => (.ok (.open k fs l c), m.2)
    | .error bad => (.error 6, m.2.afterWalk bad)

/-- The checks of R437: the lowest code, or the plan; and what the reads that they make raise (R428). -/
def State.winCheck (s : State) (opener : Nat) (w : WinOp) : Except Nat WinPlan × State :=
  if !w.ok then (.error 1, s)
  else
    match w.op with
    | 0 => s.openCheck opener w
    | 1 =>
      let m := if w.members = 0 then (some [], s) else s.memberList opener w.members
      let h := m.2.namedWindow opener w.handle
      match m.1, h.1 with
      | none, _ => (.error 4, m.2)
      | _, .error c => (.error c, h.2)
      | some l, .ok (k, x) => (.ok (.rekey k x (if w.members = 0 then x.members else l)), h.2)
    | _ =>
      match s.namedWindow opener w.handle with
      | (.error c, t) => (.error c, t)
      | (.ok (k, x), t) => (.ok (.close k x), t)

/-- The frames that a plan converts. -/
def WinPlan.frames : WinPlan → List (Nat × Nat)
  | .open _ f _ _ => f
  | .rekey _ w _ => w.frames
  | .close _ w => w.frames

/-- Whether no access that was taken before is still in flight to the frames of a plan (R438): a pilot's, or a command's that has arrived
at its eddy unit. -/
def State.winQuiet (s : State) (p : WinPlan) : Bool :=
  let fs := p.frames.map (fun f => f.1)
  s.pilots.all (fun x => x.2.pend.all (fun y => y.isConvoy || !isHbm y.cell || !fs.contains (y.cell / 4096)))
    && s.edges.all (fun x => x.2.cmds.all (fun c => c.unit.all (fun u => !isHbm u.2 || !fs.contains (u.2 / 4096))))

/-! ### Windows: conversion (R425, R436) -/

/-- Every line of a frame re-encrypted for an owner (R436): a line that fails its check is written as poisoned and raises an
integrity event, which names the old owner. -/
def State.convertFrame (s : State) (f : Nat) (owner : Frame) (major : Nat) : State :=
  let bad := ((List.range 64).map (fun i => 4096 * f + 64 * i)).filter (fun a => s.check a = .failed)
  let t := bad.foldl (fun t a => (t.integrity a (s.failLevel a)).poisonUnit a) s
  (t.newFrame f owner major).cacheNode (f / 0xC00000) (nodeKey owner.ownerKey 1 owner.num)

/-- New keys for an owner, and an empty tree (R418). -/
def State.newKeys (s : State) (owner : Nat) : State :=
  { s with
    draws := s.draws + 2,
    cipher := { s.cipher with
      keys := tset s.cipher.keys owner (Config.freeKey s.draws, Config.freeKey (s.draws + 1)),
      nodes := s.cipher.nodes.filter (fun x => x.1 / 2 ^ 33 != owner),
      cached := s.cipher.cached.filter (fun k => k % 2 ^ 44 / 2 ^ 33 != owner) } }

/-- The frames of a window given to it, page by page. -/
def State.giveFrames (s : State) (slot : Nat) (fs : List (Nat × Nat)) : State :=
  (fs.zipIdx).foldl (fun t x => t.convertFrame x.1.1 { kind := 2, owner := slot, num := x.2 } 0) s

/-- A handle (R434). -/
def handleOf (ident slot : Nat) : Nat := ident * 256 + slot

/-- The members of a list that still exist. -/
def State.standing (s : State) (m : List Nat) : List Nat := m.filter (fun v => (s.vd v).present)

/-- `WINOPEN` (R436): the opener's entries of the range are invalidated, its lines pass under the window's keys, and the handle is
stored last, in the cell that its address was translated to (R437). -/
def State.winOpen (s : State) (opener : Nat) (w : WinOp) (slot : Nat) (fs : List (Nat × Nat)) (m : List Nat) (cell : Nat) : State :=
  let ident := s.cipher.nextIdent
  let t := (s.invalidate opener w.base (w.base + w.len)).newKeys (128 + slot)
  let t := t.giveFrames slot fs
  let t := { t with cipher := { t.cipher with
    nextIdent := ident + 1,
    windows := tset t.cipher.windows slot { ident := ident, opener := opener, members := s.standing m, length := w.len, frames := fs } } }
  (t.write opener cell (toLe 8 (handleOf ident slot)) false).log opener 0x0A [BitVec.ofNat 64 (handleOf ident slot), 0]

/-- `WINREKEY` (R436): the new member list, and every line under new keys. -/
def State.winRekey (s : State) (slot : Nat) (w : Window) (m : List Nat) : State :=
  let t := { s with cipher := { s.cipher with windows := tset s.cipher.windows slot { w with members := s.standing m } } }
  let t := (t.newKeys (128 + slot)).giveFrames slot w.frames
  t.log w.opener 0x0A [BitVec.ofNat 64 (handleOf w.ident slot), 1]

/-- `WINCLOSE` (R436): each page returns to its opener with its contents, at the grant serial, which advances. -/
def State.winClose (s : State) (slot : Nat) (w : Window) : State :=
  let t := w.frames.foldl (fun t f =>
    (t.convertFrame f.1 { kind := 1, owner := w.opener, num := f.2 } (t.vd w.opener).grant.toNat).modVd w.opener
      (fun d => { d with grant := d.grant + 1 })) s
  let t := { t with cipher := { t.cipher with
    windows := tdel t.cipher.windows slot, keys := tdel t.cipher.keys (128 + slot),
    nodes := t.cipher.nodes.filter (fun x => x.1 / 2 ^ 33 != 128 + slot),
    cached := t.cipher.cached.filter (fun k => k % 2 ^ 44 / 2 ^ 33 != 128 + slot) } }
  t.log w.opener 0x0A [BitVec.ofNat 64 (handleOf w.ident slot), 2]

/-- A plan carried out at one instant (R438), and the detail of its node. -/
def State.winDo (s : State) (opener : Nat) (w : WinOp) : WinPlan → Nat × State
  | .open k f m c => (k, s.winOpen opener w k f m c)
  | .rekey k x m => (0, s.winRekey k x m)
  | .close k x => (0, s.winClose k x)

/-- Whether the issuer of a window operation still stands: the mailbox, as 255, or a graph of a VD at a `WINOP` node. -/
def State.winStands (s : State) (x y : Nat) : Bool :=
  if x = 255 then s.vox.busy && s.vox.latched = some 0x22
  else (s.graph x y).any (fun g => g.state = .waiting && rd g.line 0 1 = 11)

/-- The window operations that have begun. -/
def State.setWinq (s : State) (q : List (Nat × Nat × Option WinPlan)) : State := { s with cipher := { s.cipher with winq := q } }

/-- A window operation of an opener (R436 to R438): `fail` takes its code, `done` its detail. Operations are carried out one at a time, in
the order in which they begin (DESIGN CHOICE, log 41: those on other windows wait too); the first step makes the checks, and the instant
of the effect waits for the accesses in flight. -/
def State.winOp (s : State) (x y opener : Nat) (w : WinOp) (fail : Nat → State → State) (done : Nat → State → State)
    (wait : State → State) : State :=
  let old := s.cipher.winq.filter (fun e => (e.1 = x && e.2.1 = y) || s.winStands e.1 e.2.1)
  let q := if old.any (fun e => e.1 = x && e.2.1 = y) then old else old ++ [(x, y, none)]
  match q with
  | (a, b, p) :: r =>
    if a ≠ x || b ≠ y then wait (s.setWinq q)
    else
      match (match p with | some p => (Except.ok p, s) | none => s.winCheck opener w) with
      | (.error c, t) => fail c (t.setWinq r)
      | (.ok p, t) =>
        if s.winQuiet p then (let z := (t.setWinq r).winDo opener w p; done z.1 z.2) else wait (t.setWinq ((x, y, some p) :: r))
  | [] => s

/-- A `WINOP` node, as it begins or waits. -/
def winNode (s : State) (vd : Nat) (x : Graph) : Out :=
  .next (s.winOp vd x.id vd (winOpOf (rd x.line)) (fun c t => t.failNode vd x 0x1B c)
    (fun d t => t.endNode vd x d (nodeNext x.line) false) (fun t => t.setGraph vd { x with state := .waiting }))

/-- The mailbox's `WINOP` (R463): bytes 0x10 to 0x3F of a node stand in the buffer at 0x10, the opener at 0x08. -/
def State.winMailbox (s : State) (sel : Nat → Bool) : Out :=
  let v := s.vox
  let opener := v.field 8 1
  if !(v.busy && v.devstate = 2 && v.latched = some 0x22 && sel (v.field 0x10 1)) then .next s
  else .next (s.winOp 255 0 opener (winOpOf v.field) (fun c t => t.mbDone 9 c []) (fun _ t => t.mbDone 0 0 []) (fun t => t))

/-- A row of the table for one window operation: a node of VD `x`, graph `y`, or the mailbox where `x` is 255. -/
def State.winRow (s : State) (sel : Nat → Bool) : Out :=
  if s.cur.x = 255 then s.winMailbox sel else s.onNode 11 sel winNode winNode

/-- WINOPEN (R432, R435 to R438); an operation above 2 fails here (R437). -/
def execWinopen (s : State) : Out := s.winRow (fun o => o = 0 || o > 2)
/-- WINREKEY (R435 to R438). -/
def execWinrekey (s : State) : Out := s.winRow (fun o => o = 1)
/-- WINCLOSE (R436 to R438). -/
def execWinclose (s : State) : Out := s.winRow (fun o => o = 2)

end Sys2Proof.Machine
end

