-- ==== Sys2Proof/Machine/PilotFabric.lean ====
section
/-!
DEFINITION. The pilot's fabric instructions: block control, steering, configuration writes, injection, convoys
(R77, R329 to R340, R345, R365, R456).
-/
namespace Sys2Proof.Machine
open Sys2Proof

/-! ### Band masks (R77, R329) -/

/-- The mask that names every band of a region. -/
def Region.mask (r : Region) : Nat := ((List.range r.bands).map (fun i => 2 ^ ((r.lead + i) % 8))).sum

/-- The bands that a mask names. -/
def Region.masked (r : Region) (mask : Nat) : List Nat :=
  ((List.range r.bands).map (fun i => r.lead + i)).filter (fun p => bit mask (p % 8))

/-- Whether a mask is assigned: not zero, only bands of the region; every band where `whole` asks for it. -/
def Region.maskOk (r : Region) (mask : Nat) (whole : Bool) : Bool :=
  mask != 0 && (if whole then mask = r.mask else (List.range 8).all (fun i => !bit mask i || bit r.mask i))

/-- A fabric instruction with an assigned mask, in its region; otherwise the illegal-instruction trap. -/
def State.onMask (s : State) (mask : BitVec 8) (whole : Bool) (k : Region → Out) : Out :=
  match s.myRegion with
  | some r => if r.maskOk mask.toNat whole then k r else s.illegal
  | none => s.illegal

/-- The trap of an instruction reserved to the lead pilot (R320, R329). -/
def State.notLead (s : State) : Out := s.trap 0x0B 0 s.word
/-- The fabric-busy trap. -/
def State.busy (s : State) (r : Region) : Out := s.trap 0x0C 0 r.fabstat
/-- The no-block trap. -/
def State.noBlock (s : State) (r : Region) : Out := s.trap 0x0D 0 r.fabstat
/-- The block-load-failed trap. -/
def State.loadFailed (s : State) (r : Region) : Out := s.trap 0x0A r.failSub r.failInfo

/-! ### Block control (R330 to R336) -/

/-- `BLKLD` (R331): the load runs on in the background and ends with BLOCK_LOAD_ENDS. It issues once the pilot's stores
have performed (R114). -/
def execBlkld (a : Reg) (mask : BitVec 8) (s : State) : Out :=
  s.onMask mask true (fun r =>
    let va := s.me.get a
    if va.toNat % 64 ≠ 0 then s.trap 2 0 va
    else if isChart va then s.trap 4 2 va
    else if !s.isLead then s.notLead
    else
      match r.shadow with
      | .loading => s.busy r
      | .armed => s.busy r
      | .swapping => s.busy r
      | _ =>
        if !s.me.pend.isEmpty || !s.roomInRecord then .next s
        else (s.modRegion r.lead (fun q => { q with shadow := .loading, loadAddr := va.toNat, shImg := none })).done)

/-- `BLKGO` (R330, R332): with the running state NONE it launches the shadow image; it waits for a load that has not ended
and for the pilot's earlier accesses. -/
def execBlkgo (mask : BitVec 8) (s : State) : Out :=
  s.onMask mask true (fun r =>
    if r.running = .none && r.shadow = .failed then s.loadFailed r
    else if !s.isLead then s.notLead
    else if r.running ≠ .none then s.busy r
    else
      match r.shadow with
      | .loading => .next s
      | .empty => s.noBlock r
      | .swapping => s.busy r
      | _ =>
        if !s.me.pend.isEmpty then .next s
        else
          match r.shImg with
          | some m => (s.launch r m).done
          | none => s.noBlock r)

/-- `BLKARM` (R330, R333). -/
def execBlkarm (mask : BitVec 8) (s : State) : Out :=
  s.onMask mask true (fun r =>
    if r.shadow = .failed then s.loadFailed r
    else if !s.isLead then s.notLead
    else
      match r.shadow with
      | .loading => .next s
      | .empty => s.noBlock r
      | .swapping => s.busy r
      | .armed => s.done
      | _ => (s.modRegion r.lead (fun q => { q with shadow := .armed, armedAt := s.cycle })).done)

/-- `BLKWAIT` (R335): 0 from an empty queue; otherwise it waits until the oldest entry has completed and removes it. -/
def execBlkwait (d : Reg) (mask : BitVec 8) (s : State) : Out :=
  s.onMask mask true (fun r =>
    if !s.isLead then s.notLead
    else
      match r.compQ with
      | [] => s.result d 0
      | c :: q =>
        match c.status with
        | none => .next s
        | some v => (s.modRegion r.lead (fun x => { x with compQ := q, lastWbs := c.wbs })).result d (v.zeroExtend 64))

/-- `WBRD` (R336). -/
def execWbrd (d : Reg) (mask : BitVec 8) (n : BitVec 4) (s : State) : Out :=
  s.onMask mask true (fun r => if s.isLead then s.result d (tget r.lastWbs n.toNat 0) else s.notLead)

/-! ### Steering (R337, R338) -/

/-- Whether a record's rectangle lies in the masked bands and above row 128, and its zero fields are zero (R337). -/
def Region.recOk (r : Region) (mask : Nat) (x : SwRec × Bool) : Bool :=
  x.2 && x.1.row0 + x.1.h ≤ 128 && x.1.col0 + x.1.w ≤ 8 * r.bands
    && (List.range x.1.w).all (fun c => bit mask ((r.lead + (x.1.col0 + c) / 8) % 8))

/-- A rewrite put in its place among those of its region: the order of issue, and in one cycle that of the pilots (R202, R337). -/
def rewriteInsert (w : Rewrite) : List Rewrite → List Rewrite
  | [] => [w]
  | x :: l => if x.issued = w.issued && w.pilot < x.pilot then w :: x :: l else x :: rewriteInsert w l

/-- A rewrite issued: its words go to the set that is active in each named router now (R201). The pilot stays at the
instruction until SWITCH_REWRITE_APPLY. -/
def State.rewrite (s : State) (r : Region) (recs : List SwRec) : State :=
  let els := (recs.flatMap (fun x => x.routers r.lead)).eraseDups
  let w : Rewrite :=
    { pilot := s.cur.pilot, recs := recs, banks := els.map (fun e => (e, (s.elem e).core.active)), issued := s.cycle }
  s.modRegion r.lead (fun q => { q with rewrites := rewriteInsert w q.rewrites })

/-- Whether the acting pilot's rewrite has still to be applied. -/
def State.rewriting (s : State) (r : Region) : Bool := r.rewrites.any (fun x => x.pilot = s.cur.pilot)

/-- The records in chart memory. -/
def State.chartRecs (s : State) (a n : Nat) : List (SwRec × Bool) :=
  (List.range n).map (fun k => swRecOf (s.readLe (chartCell s.cur.pilot (a % 65536 + 8 * k)) 8))

/-- `RESTEER` (R337): the checks, then the rewrite. -/
def execResteer (d a : Reg) (mask : BitVec 8) (s : State) : Out :=
  s.onMask mask false (fun r =>
    let va := s.me.get a
    let n := (s.me.get d).toNat
    if s.rewriting r then .next s
    else if va.toNat % 8 ≠ 0 then s.trap 2 0 va
    else if !isChart va || va.toNat % 65536 + 8 * n > 65536 then s.trap 4 2 va
    else if r.running ≠ .running then s.noBlock r
    else if n = 0 || n > 256 then s.trap 0x0E 2 (s.me.get d)
    else
      let recs := s.chartRecs va.toNat n
      match recs.findIdx? (fun x => !r.recOk mask.toNat x) with
      | some k => s.trap 0x0E 1 (BitVec.ofNat 64 k)
      | none => .next (s.rewrite r (recs.map (fun x => x.1))))

/-- `CFGWR.sw` (R338): a `RESTEER` of the one record in `xa`. -/
def execCfgwrSw (a : Reg) (mask : BitVec 8) (s : State) : Out :=
  s.onMask mask false (fun r =>
    if s.rewriting r then .next s
    else
      match r.running with
      | .none => s.noBlock r
      | .frozen => s.busy r
      | .running =>
        let x := swRecOf (s.me.get a).toNat
        if r.recOk mask.toNat x then .next (s.rewrite r [x.1]) else s.trap 0x0E 1 0)

/-- What the state of a configuration write must be (R338): a trap where it is not. -/
def State.needs (s : State) (r : Region) (shadow : Bool) (k : Out) : Out :=
  if shadow then
    match r.shadow with
    | .loaded => k
    | .armed => k
    | .empty => s.noBlock r
    | _ => s.busy r
  else
    match r.running with
    | .running => k
    | .none => s.noBlock r
    | .frozen => s.busy r

/-- A constant of an element's slot written. -/
def Elem.setConst (e : Elem) (shadow : Bool) (n : Nat) (v : Word) : Elem :=
  let b := if shadow then 1 - e.core.active else e.core.active
  let c := vg e.core.cfg b ElemCfg.empty
  { e with core := { e.core with cfg := vs e.core.cfg b { c with consts := vs c.consts n v } } }

/-- `CFGWR.const` (R338). -/
def execCfgwrConst (a : Reg) (mask : BitVec 8) (s : State) : Out :=
  s.onMask mask false (fun r =>
    let v := s.me.get a
    let w := v.toNat
    s.needs r (bit w 49) (
      if bits w 36 6 ≥ 8 * r.bands || !bit mask.toNat ((r.lead + bits w 36 6 / 8) % 8) then s.trap 0x0E 1 v
      else if bits w 50 14 ≠ 0 then s.trap 0x0E 4 v
      else (s.modElem (elemAt (8 * r.lead + bits w 36 6) (bits w 42 7))
        (fun e => e.setConst (bit w 49) (bits w 32 4) (BitVec.ofNat 32 w))).done))

/-- A divider of an image written. -/
def Image.setDiv (m : Image) (k d : Nat) : Image := { m with div := vs m.div k d }

/-- `CFGWR.div` (R338): reserved to the lead pilot, with every band named. -/
def execCfgwrDiv (a : Reg) (mask : BitVec 8) (s : State) : Out :=
  s.onMask mask true (fun r =>
    let v := s.me.get a
    let w := v.toNat
    if !s.isLead then s.notLead
    else
      s.needs r (bit w 7) (
        if bits w 4 3 = 0 || bits w 4 3 > 4 || bits w 8 56 ≠ 0 then s.trap 0x0E 4 v
        else if bit w 7 then
          (s.modRegion r.lead (fun q => { q with shImg := q.shImg.map (fun m => m.setDiv (bits w 0 4) (bits w 4 3)) })).done
        else
          (s.modRegion r.lead (fun q => { q with
            div := vs q.div (bits w 0 4) (bits w 4 3),
            actImg := q.actImg.map (fun m => m.setDiv (bits w 0 4) (bits w 4 3)) })).done))

/-- `CFGWR.loop` (R338): reserved to the lead pilot, with every band named; no used level above an unused one. -/
def execCfgwrLoop (a : Reg) (mask : BitVec 8) (s : State) : Out :=
  s.onMask mask true (fun r =>
    let v := s.me.get a
    let w := v.toNat
    if !s.isLead then s.notLead
    else
      s.needs r true (
        let loops := match r.shImg with
          | some m => vs m.loops (bits w 32 2) (bits w 0 32)
          | none => Vector.replicate 4 0
        if bits w 34 30 ≠ 0 || loopGap loops then s.trap 0x0E 4 v
        else (s.modRegion r.lead (fun q => { q with shImg := q.shImg.map (fun m => { m with loops := loops }) })).done))

/-! ### Injection (R339, R340) -/

/-- One token put in a port's queue, and the port's counter after it. -/
def Pilot.inject (p : Pilot) (port : Nat) (payload : Payload) (kind : BitVec 2) (tag : BitVec 2) : Pilot :=
  let round := vg p.inj port 0
  let t : Token := { payload := payload, kind := kind, round := round, tag := tag, poison := false, src := 0 }
  let next := if kind = 2 then
      (match payload.toNat % 4 with
       | 0 => round + 1
       | 3 => 0
       | _ => round)
    else round
  { p with injq := vs p.injq port (vg p.injq port [] ++ [t]), inj := vs p.inj port next }

/-- An injection on a port of every masked band: it waits for room in every named queue. -/
def State.injectAll (s : State) (r : Region) (mask port : Nat) (payload : Payload) (kind : BitVec 2) (tag : BitVec 2) :
    Out :=
  let bands := r.masked mask
  if bands.all (fun p => (vg (s.pilot p).injq port []).length < 2) then
    (bands.foldl (fun t p => t.modPilot p (fun q => q.inject port payload kind tag)) s).done
  else .next s

/-- The checks that every `INJECT` makes, and its payload from chart memory. -/
def State.injectFrom (s : State) (mask : BitVec 8) (a : Reg) (k : Region → Payload → Out) : Out :=
  s.onMask mask false (fun r =>
    let va := s.me.get a
    if va.toNat % 32 ≠ 0 then s.trap 2 0 va
    else if !isChart va then s.trap 4 2 va
    else if r.running ≠ .running then s.noBlock r
    else k r (BitVec.ofNat 256 (s.readLe (chartCell s.cur.pilot (va.toNat % 65536)) 32)))

/-- `INJECT.data` (R340). -/
def execInjectData (a : Reg) (mask : BitVec 8) (port : BitVec 4) (tag : BitVec 2) (s : State) : Out :=
  s.injectFrom mask a (fun r v => s.injectAll r mask.toNat port.toNat v 0 tag)

/-- `INJECT.null` (R340). -/
def execInjectNull (a : Reg) (mask : BitVec 8) (port : BitVec 4) (tag : BitVec 2) (s : State) : Out :=
  s.injectFrom mask a (fun r _ => s.injectAll r mask.toNat port.toNat 0 1 tag)

/-- `INJECT.mark` (R340): a tide mark, a malformed payload or a tag is refused. -/
def execInjectMark (a : Reg) (mask : BitVec 8) (port : BitVec 4) (tag : BitVec 2) (s : State) : Out :=
  s.injectFrom mask a (fun r v =>
    if v.toNat % 4 = 2 || v.toNat / 4 ≠ 0 || tag ≠ 0 then s.trap 0x0E 3 (v.extractLsb' 0 64)
    else s.injectAll r mask.toNat port.toNat v 2 0)

/-! ### Convoys (R345, R365) -/

/-- The suppression location of a convoy's record: its home unit, which is unit `c` mod 16 of the VD's home die, and the convoy (R361,
R365). -/
def State.convoyLoc (s : State) (vd c : Nat) : Nat := 2 ^ 60 + (s.homeStack vd * 16 + c % 16) * 65536 + c

/-- Whether a convoy has a member on another module. -/
def Convoy.remote (v : Convoy) : Bool := v.later.any (fun g => 2 ^ 40 ≤ g) || v.members.any (fun g => 2 ^ 40 ≤ g)

/-- Whether the accesses before a convoy release have performed at its scope (R115, R454). -/
def State.released (s : State) (vd : Nat) (remote : Bool) : Bool :=
  s.me.pend.isEmpty && (!remote || s.sysReady vd)

/-- A tagged convoy operation at the home unit (R361, R365): it applies `f`, makes its entry, and its entry retires as the
instruction completes (R362). It waits while the window of the unit is full (R350, R357). -/
def State.convoyOp (s : State) (r : Region) (c op : Nat) (f : State → State) : Out :=
  if !s.mayTag || 64 ≤ (s.unitHeld (s.homeStack r.vd) (c % 16)).length then .next s
  else
    let t := s.nextTag r r.inc (r.pilotSource s.cur.pilot) 0
    let loc := s.convoyLoc r.vd c
    match t.2.lookup t.1 loc op with
    | .fresh => ((f (t.2.enter t.1 loc op 0 0 0)).soon .suppressionRetire r.vd t.1 0).done
    | .again _ => t.2.done
    | .mismatch => (t.2.mismatched t.1 (s.homeStack r.vd)).trap 6 0 (BitVec.ofNat 64 c)

/-- The peer entry by which a VD reaches a convoy of another module (R456). -/
def State.peerConvoy (s : State) (vd c : Nat) : Option PeerConvoy :=
  ((s.vd vd).peers.find? (fun x => x.2.locId = c)).map (fun x => x.2)

/-- A convoy record on its way to the home module (R456): the operation's tag, and the home identifier in the phase
field (log 17). The pilot waits for the answer. -/
def State.sendConvoy (s : State) (r : Region) (x : PeerConvoy) (op : Nat) (d : Reg) : Out :=
  match tfind (s.vd r.vd).routes x.route with
  | none => .next s
  | some q =>
    let t := s.nextTag r r.inc (r.pilotSource s.cur.pilot) 0
    let u := t.2.sendConvoyRec r.vd q t.1 op (x.route * 65536 + x.homeId)
    .next (u.setMe { u.me with
      pend := u.me.pend ++ [u.access (.convoy op) (x.route * 65536 + x.homeId) 0 d 0 none t.1], stamp := u.me.stamp + 1 })

/-- A convoy instruction on a mapped identifier (R456): it sends its record once and completes on the answer. An answer
with a step of 0x80 or more is the sub-cause of an error, 0x86 a suppression mismatch (log 17). -/
def State.remoteConvoy (s : State) (r : Region) (x : PeerConvoy) (op : Nat) (d : Reg) (c : DWord) : Out :=
  match s.me.pend.find? PAcc.isConvoy with
  | some y =>
    if !y.fault then .next s
    else
      let t := (s.setMe { s.me with pend := s.me.pend.filter (fun z => !z.isConvoy) }).soon .suppressionRetire r.vd y.tag 0
      let st := y.data.toNat / 2 ^ 32
      if st = 0x86 then t.trap 6 0 c
      else if st ≥ 0x80 then t.trap 9 (st - 0x80) c
      else if op = 3 then t.result d (BitVec.ofNat 64 (y.data.toNat % 2 ^ 32))
      else t.done
  | none =>
    if (op = 2 || op = 4) && !s.released r.vd true then .next s
    else if !s.mayTag || !s.me.pend.isEmpty then .next s
    else s.sendConvoy r x op d

/-- A convoy instruction of the lead pilot: its region, the convoy number, and the record of this module. A number above 16 bits is an
illegal instruction (R76). -/
def State.onConvoy (s : State) (a : Reg) (op : Nat) (d : Reg) (k : Region → Nat → Option Convoy → Out) : Out :=
  match s.myRegion with
  | none => s.notLead
  | some r =>
    let c := (s.me.get a).toNat
    if 65536 ≤ c then s.illegal
    else match s.peerConvoy r.vd c with
    | some x => if s.isLead then s.remoteConvoy r x op d (BitVec.ofNat 64 c) else s.notLead
    | none => k r c (s.convoy r.vd c)

/-- The convoy-error trap. -/
def State.convoyError (s : State) (sub c : Nat) : Out := s.trap 9 sub (BitVec.ofNat 64 c)

/-- `CVJOIN` (R345). -/
def execCvjoin (a : Reg) (s : State) : Out :=
  s.onConvoy a 1 0 (fun r c v =>
    match v with
    | some v =>
      if v.later.contains r.graph then s.convoyError 3 c
      else if v.later.length ≥ 4096 then s.convoyError 2 c
      else if !s.isLead then s.notLead
      else s.convoyOp r c 0x50 (fun t => t.setConvoy r.vd c { v with later := v.later ++ [r.graph] })
    | none =>
      if (s.vd r.vd).convoys.length ≥ 256 then s.convoyError 1 c
      else if !s.isLead then s.notLead
      else s.convoyOp r c 0x50 (fun t => t.newConvoy r.vd c r.graph))

/-- `CVARRIVE` (R345): a release; it waits for an open phase in which the region is a member and has not arrived. -/
def execCvarrive (a : Reg) (s : State) : Out :=
  s.onConvoy a 2 0 (fun r c v =>
    match v with
    | some v =>
      if !v.later.contains r.graph then s.convoyError 4 c
      else if !s.isLead then s.notLead
      else if !v.members.contains r.graph || v.arrived.contains r.graph || !s.released r.vd v.remote then .next s
      else s.convoyOp r c 0x52 (fun t => t.settleConvoy r.vd c (v.arrive r.graph t.chron.toNat))
    | none => s.convoyError 4 c)

/-- The phase of a region's latest arrival in a convoy that has stopped being live, which no `CVWAIT` has returned (R345). -/
def Vd.endedArrival (d : Vd) (c g : Nat) : Option (BitVec 32) := (d.ended.find? (fun x => x.1 = c && x.2.1 = g)).map (fun x => x.2.2)

/-- A `CVWAIT` for an arrival in no live convoy: its phase has completed, or the region has not arrived (R345). -/
def State.waitEnded (s : State) (r : Region) (c : Nat) (d : Reg) : Out :=
  match (s.vd r.vd).endedArrival c r.graph with
  | none => s.convoyError 5 c
  | some ph =>
    if !s.isLead then s.notLead
    else (s.modVd r.vd (fun x => { x with ended := x.ended.filter (fun y => !(y.1 = c && y.2.1 = r.graph)) })).result d (ph.zeroExtend 64)

/-- `CVWAIT` (R345): it waits, on the convoy's record (R365), until the phase of the region's latest arrival has completed. -/
def execCvwait (d a : Reg) (s : State) : Out :=
  s.onConvoy a 3 d (fun r c v =>
    match v with
    | some v =>
      match v.done.find? (fun x => x.1 = r.graph) with
      | none => s.waitEnded r c d
      | some x =>
        if !s.isLead then s.notLead
        else if v.phase = x.2 then
          .next (if v.here.contains r.graph then s else s.setConvoy r.vd c { v with here := v.here ++ [r.graph] })
        else
          (s.setConvoy r.vd c { v with
            done := v.done.filter (fun y => y.1 != r.graph), here := v.here.filter (· != r.graph) }).result d (x.2.zeroExtend 64)
    | none => s.waitEnded r c d)

/-- `CVLEAVE` (R345): a release; it counts as the arrival in the open phase. -/
def execCvleave (a : Reg) (s : State) : Out :=
  s.onConvoy a 4 0 (fun r c v =>
    match v with
    | some v =>
      if !v.later.contains r.graph then s.convoyError 4 c
      else if !s.isLead then s.notLead
      else if !s.released r.vd v.remote then .next s
      else s.convoyOp r c 0x51 (fun t => t.settleConvoy r.vd c (v.leave r.graph t.chron.toNat))
    | none => s.convoyError 4 c)

end Sys2Proof.Machine
end

