-- ==== Sys2Proof/Machine/Harbour.lean ====
section
/-!
DEFINITION. The Harbour: host accesses to device memory, device accesses to host memory, Burbex links, peer sends and convoys
across modules, slack control (R126, R442 to R458; spec/17_harbour.md).
-/
namespace Sys2Proof.Machine
open Sys2Proof

/-- The event source of the Harbour (R483). -/
def harbourSource : Nat := 2

/-! ### Host accesses to device memory (R445) -/

/-- Whether an offset lies in a VD's HDM range. -/
def State.inHdm (s : State) (vd off : Nat) : Bool := (s.vd vd).present && off < (s.vd vd).hdm * 2 ^ 28

/-- The Harbour's translation entries of a VD, which its own walker has filled (R445). -/
def State.hostEntries (s : State) (vd : Nat) : List TEntry := (s.hb.entries.filter (fun x => x.1 = vd)).map (fun x => x.2)

/-- An entry added to the Harbour's. -/
def State.keepEntry (s : State) (vd : Nat) (e : TEntry) : State :=
  if s.hb.entries.contains (vd, e) then s else { s with hb := { s.hb with entries := (vd, e) :: s.hb.entries } }

/-- The completion of a host read (R445): the whole line as it stands, or one that is marked poisoned. -/
def State.hostAnswer (s : State) (vd off : Nat) (line : Option Nat) : State :=
  let a : HostRead := match line with
    | some c => { vd := vd, off := off, data := BitVec.ofNat 512 (fromLe (s.view c 64)), poison := s.viewBad c || s.viewBad (c + 32) }
    | none => { vd := vd, off := off, data := 0, poison := true }
  { s with hb := { s.hb with hostRead := some { a with data := if a.poison then 0 else a.data } } }

/-- A host read that has reached a line: the host gets it, and may hold it; the line is checked (R126, R445). -/
def State.hostReads (s : State) (vd off c : Nat) : State :=
  let t := (s.hostAnswer vd off (some (c - c % 64)))
  let t := { t with hb := { t.hb with hostLines := insertSorted t.hb.hostLines (c - c % 64) } }
  if isHbm c then t.soon .dataLineRead c 0 0 else t

/-- HOST_MEM_READ of the line at HDM offset `y` of VD `x` (R126, R445, R460): translated by the VD's tables; what cannot be translated, a
closed window and the tarn window give a poisoned completion. -/
def execHostMemRead (s : State) : Out :=
  let vd := s.cur.x
  let off := s.cur.y - s.cur.y % 64
  if !s.inHdm vd off then .next s
  else
    match s.place vd off false false (s.hostEntries vd) with
    | .cell c e => .next ((s.keepEntry vd e).hostReads vd off c)
    | .window _ c => .next (s.hostReads vd off c)
    | .fault _ bad => .next ((s.afterWalk bad).hostAnswer vd off none)
    | _ => .next (s.hostAnswer vd off none)

/-- A host write that is discarded (R445): an event names the HDM offset. -/
def State.hostDrop (s : State) (vd off : Nat) : State := s.raise harbourSource 0x0016 vd [BitVec.ofNat 64 off]

/-- The bytes that a mask selects. -/
def maskedBytes (data : BitVec 512) (mask : BitVec 64) (n : Nat) : List (Option Byte) :=
  (List.range n).map (fun i => if mask.getLsbD i then some (data.extractLsb' (8 * i) 8) else none)

/-- A host write of a line outside HBM: a line of host memory takes it as any device store (R446); the units of another are merged and
stored. -/
def State.lineStore (s : State) (vd c : Nat) (data : BitVec 512) (mask : BitVec 64) : State :=
  if isHost c then s.writeSome vd c (maskedBytes data mask 64)
  else
    (List.range (64 / unitSize c)).foldl (fun t i =>
      let n := unitSize c
      let m := mask >>> (n * i)
      if m.setWidth n = 0 then t
      else
        let old := if t.badAt (c + n * i) then List.replicate n 0 else t.bytes (c + n * i) n
        t.storeUnit (c + n * i) (mergeBytes old (data >>> (8 * n * i)) m) false) s

/-- HOST_MEM_WRITE of `data` under `mask` to the line at HDM offset `y` of VD `x` (R126, R445): it performs as one line; a write
that cannot be translated or may not be made is discarded with an event. The host gives up its copy. -/
def execHostMemWrite (data : BitVec 512) (mask : BitVec 64) (s : State) : Out :=
  let vd := s.cur.x
  let off := s.cur.y - s.cur.y % 64
  if !s.inHdm vd off then .next s
  else
    let go : Nat → State := fun c =>
      let t := { s with hb := { s.hb with hostLines := s.hb.hostLines.filter (fun a => a != c - c % 64) } }
      if isHbm c then t.soon (.dataLineWrite data mask) c 0 0 else t.lineStore vd (c - c % 64) data mask
    match s.place vd off true false (s.hostEntries vd) with
    | .cell c e => .next ((go c).keepEntry vd e)
    | .window _ c => .next (go c)
    | .fault _ bad => .next ((s.afterWalk bad).hostDrop vd off)
    | _ => .next (s.hostDrop vd off)

/-- BACK_INVALIDATE_RESPONSE for the line of address `x` (R126, R445): the host has given up its copy. -/
def execBackInvalidateResponse (s : State) : Out :=
  let a := s.cur.x - s.cur.x % 64
  if s.hb.snoops.contains a then
    .next { s with hb := { s.hb with
      snoops := s.hb.snoops.filter (fun l => l != a), hostLines := s.hb.hostLines.filter (fun l => l != a) } }
  else .next s

/-! ### Device accesses to host memory (R446, R447) -/

/-- Whether a VD's queue holds a request that has not been sent. -/
def Vd.cxlWaiting (d : Vd) : Bool := d.cxlq.any (fun q => !q.sent)

/-- The first request of a queue that has not been sent, sent. -/
def sendFirst : List CxlReq → List CxlReq
  | [] => []
  | q :: r => if q.sent then q :: sendFirst r else { q with sent := true } :: r

/-- The first of some numbers after `last` in cyclic order below `n`. -/
def nextAfter (l : List Nat) (last n : Nat) : Option Nat :=
  ((List.range n).map (fun i => (last + 1 + i) % n)).find? l.contains

/-- CXL_CACHE_REQUEST (R446, R447): deficit round robin over the VDs' queues, in units of 64 bytes, with quanta of their peer-link
weights. -/
def execCxlCacheRequest (s : State) : Out :=
  let ready := (s.vds.filter (fun x => x.2.cxlWaiting)).map (fun x => x.1)
  let cur := s.hb.lastCxl
  let d := s.vd cur
  if ready.contains cur && d.cxlDeficit > 0 then
    .next (s.setVd cur { d with cxlq := sendFirst d.cxlq, cxlDeficit := d.cxlDeficit - 1 })
  else
    match nextAfter ready cur 96 with
    | none => .next s
    | some v =>
      let s := if d.cxlWaiting then s else s.modVd cur (fun d => { d with cxlDeficit := 0 })
      let s := s.modVd v (fun d => { d with
        cxlq := sendFirst d.cxlq, cxlDeficit := d.cxlDeficit + (d.q.peer : Int) - 1 })
      .next { s with hb := { s.hb with lastCxl := v } }

/-- The bytes of a waiting store over what its unit holds (R100, R446): a poisoned unit reads as zeros. -/
def State.cxlBytes (s : State) (q : CxlReq) : List Byte :=
  q.data.mapIdx (fun i b => b.getD (if s.badAt q.addr then 0 else s.byte (q.addr + i)))

/-- CXL_CACHE_COMPLETION for VD `x` (R126, R446, R447): the host acknowledges the oldest write that was sent, and it performs, after
every older store to its line (R106). -/
def execCxlCacheCompletion (s : State) : Out :=
  let vd := s.cur.x
  match (s.vd vd).cxlq.findIdx? (fun q => q.sent) with
  | none => .next s
  | some i =>
    match (s.vd vd).cxlq[i]? with
    | none => .next s
    | some q =>
      if s.olderCxl q then .next s
      else .next ((s.storeUnit q.addr (s.cxlBytes q) q.poison).modVd vd (fun d => { d with cxlq := ldel d.cxlq i }))

/-! ### Burbex links (R448 to R451) -/

/-- Credits of a channel at the far receiver: 32 when a link has trained (R450). -/
def Port.credit (p : Port) (vc : Nat) : Nat := tget p.credits vc 32

/-- The 24 bytes of a record of a flit (R453, R456): a completion's status stands in the operation's place. -/
def flitRecord (k : FlitRec) : List Byte :=
  toLe 10 (k.tag % 2 ^ 80) ++ toLe 1 (k.op % 256) ++ toLe 1 (k.step % 256) ++ toLe 4 (k.phase % 2 ^ 32) ++ toLe 8 0

/-- One bit of the CRC-64 with the polynomial of ECMA-182 (R448). -/
def crcBit (c : Nat) : Nat := if 2 ^ 63 ≤ c then Nat.xor (2 * c % 2 ^ 64) 0x42F0E1EBA9EA3693 else 2 * c

/-- The CRC-64 of a byte string (R448): from 0, most significant bit first (log 43). -/
def crc64 (l : List Byte) : Nat :=
  l.foldl (fun c b => (List.range 8).foldl (fun d _ => crcBit d) (Nat.xor c (b.toNat * 2 ^ 56))) 0

/-- Bytes 0x00 to 0xF7 of a flit (R448). -/
def flitBody (f : Flit) : List Byte :=
  let data := f.grans.flatMap (fun g => toLe 32 g.toNat) ++ f.recs.flatMap flitRecord
  let masks := f.masks.flatMap (fun m => toLe 4 m.toNat)
  toLe 2 (f.seq % 4096 + f.typ % 16 * 4096) ++ toLe 1 f.vc ++ toLe 1 f.grans.length ++ toLe 2 (f.ack % 4096 + b2n f.retry * 4096)
    ++ toLe 2 (f.credits % 32 + f.creditVc % 32 * 32) ++ toLe 2 (f.dst % 128 + f.src % 128 * 256) ++ toLe 10 (f.tag % 2 ^ 80)
    ++ toLe 5 (f.off % 2 ^ 40) ++ toLe 7 0 ++ (data ++ List.replicate 192 0).take 192 ++ (masks ++ List.replicate 24 0).take 24

/-- The 256 bytes of a flit (R448). -/
def flitBytes (f : Flit) : List Byte := flitBody f ++ toLe 8 f.crc

/-- A flit as it is put on the link: with the CRC of its bytes (R448). -/
def flitSealed (f : Flit) : Flit := { f with crc := crc64 (flitBody f) }

/-- Whether a record has the form of its flit's type (R453, R456): 2 completion, 3 convoy, 4 retire. -/
def recordOk (typ : Nat) (k : FlitRec) : Bool :=
  k.tag < 2 ^ 80 &&
  match typ with
  | 2 => k.op < 256 && k.step = 0 && k.phase = 0
  | 3 => 1 ≤ k.op && k.op ≤ 6 && k.step < 256 && k.phase < 2 ^ 32
  | _ => k.op = 0 && k.step = 0 && k.phase = 0

/-- Whether a flit is well formed (R448, R449): its type and channel are assigned, each field lies in its bits, a field that its type does
not use is zero, and its CRC checks. -/
def flitOk (f : Flit) : Bool :=
  f.rest = 0 && f.typ ≤ 5 && f.vc ≤ 25 && f.seq < 4096 && f.ack < 4096 && f.credits < 32 && f.creditVc < 32 && f.dst < 128 && f.src < 128
    && (if f.typ = 1 then
          1 ≤ f.grans.length && f.grans.length ≤ 6 && f.masks.length = f.grans.length && f.tag < 2 ^ 80 && f.off < 2 ^ 40 && f.off % 32 = 0
            && f.recs.isEmpty
        else f.grans.isEmpty && f.masks.isEmpty && f.tag = 0 && f.off = 0)
    && (if 2 ≤ f.typ && f.typ ≤ 4 then f.recs.length ≤ 8 && f.recs.all (recordOk f.typ) else f.recs.isEmpty)
    && f.crc = crc64 (flitBody f)

/-- Whether a port takes a flit (R448 to R450): it is well formed and next in sequence, and its channel's buffer of 32 has a place; idle
flits take none. -/
def Port.accepts (p : Port) (f : Flit) : Bool :=
  p.up && flitOk f && f.seq = p.expect && (f.typ = 0 || tget p.owed f.vc 0 < 32)

/-- What a port learns from the link fields of a flit (R448 to R450): flits acknowledged leave the replay buffer, credits
return, and a retry request sends the rest again. -/
def Port.learn (p : Port) (f : Flit) (now : Nat) : Port :=
  let rest := p.replay.filter (fun g => !((f.ack + 4096 - g.seq) % 4096 < 512))
  let moved := rest.length < p.replay.length
  { p with
    replay := rest, acked := f.ack,
    resend := if f.retry then rest else p.resend.filter (fun g => rest.any (fun h => h.seq = g.seq)),
    retries := if moved then 0 else if f.retry then p.retries + 1 else p.retries,
    lastAck := if moved then now else p.lastAck,
    credits := tset p.credits f.creditVc (min 32 (p.credit f.creditVc + f.credits)) }

/-- A flit taken from the link in order, and out of its buffer: none where the port drops it. -/
def State.linkIn (s : State) (i : Nat) (f : Flit) : Option State :=
  let p := s.port i
  if p.accepts f then
    let q := p.learn f s.chron.toNat
    some (s.setPort i { q with
      expect := (p.expect + 1) % 4096, owed := if f.typ = 0 then q.owed else tset q.owed f.vc (tget q.owed f.vc 0 + 1) })
  else none

/-- LINK_RETRY at port `x` (R449): a flit that the port must drop makes it request a retry; an idle or link-control flit is taken
for its link fields. -/
def execLinkRetry (f : Flit) (s : State) : Out :=
  let p := s.port s.cur.x
  if !p.up then .next s
  else
    match s.linkIn s.cur.x f with
    | none => .next (s.setPort s.cur.x { p with askRetry := true })
    | some t => if f.typ = 0 || f.typ = 5 then .next t else .next s

/-- RETRY_TIMEOUT at port `x` (R449): no acknowledgement for 2 µs: everything unacknowledged is sent again. -/
def execRetryTimeout (s : State) : Out :=
  let p := s.port s.cur.x
  if p.up && !p.replay.isEmpty && s.chron.toNat ≥ p.lastAck + 2000 then
    .next (s.setPort s.cur.x { p with resend := p.replay, retries := p.retries + 1, lastAck := s.chron.toNat })
  else .next s

/-- BURBEX_PORT_DOWN at port `x` (R449): eight retries without progress; what was not acknowledged waits in its queue again. -/
def execBurbexPortDown (s : State) : Out :=
  let p := s.port s.cur.x
  if p.up && p.retries ≥ 8 then
    let back := (p.replay.filter (fun f => f.typ != 0 && f.typ != 5)).reverse.foldl
      (fun q f => tset q f.vc (f :: tget q f.vc [])) p.queues
    .next ((s.setPort s.cur.x { Port.down with far := p.far, queues := back }).raise harbourSource 0x0021 255
      [BitVec.ofNat 64 s.cur.x])
  else .next s

/-- BURBEX_PORT_UP at port `x`, far module `y` (R448, R465): the link trains, each end learns the other's 64-bit identifier, sequences and
credits start afresh. Sends that wait at the port are to that module. -/
def execBurbexPortUp (s : State) : Out :=
  let p := s.port s.cur.x
  if s.cur.x < 8 && !p.up && s.vox.devstate = 2 then
    let far := s.cur.y % 2 ^ 64
    let t := s.setPort s.cur.x { Port.down with up := true, far := far, queues := p.queues, lastAck := s.chron.toNat }
    .next { t with hb := { t.hb with unretired := t.hb.unretired.map (fun (e : PeerOut) =>
      if e.port = s.cur.x && e.status = 255 then { e with module := far } else e) } }
  else .next s

/-- The weight of a tenant channel of a port: the sum of the peer-link weights of the VDs bound to it, at most 255 (R451). -/
def State.vcWeight (s : State) (i vc : Nat) : Nat :=
  min 255 (((s.vds.filter (fun x => x.2.present && x.2.routes.any (fun r => r.2.port = i && r.2.vc = vc))).map
    (fun x => x.2.q.peer)).sum)

/-- Whether a channel has a flit and a credit. -/
def Port.ready (p : Port) (vc : Nat) : Bool := !(tget p.queues vc []).isEmpty && 0 < p.credit vc

/-- Whether a system channel is within its budget: a sixteenth of any window of 256 flits (R451). -/
def Port.inBudget (p : Port) (vc : Nat) : Bool := ((p.sent.take 255).filter (fun v => v = vc)).length < 16

/-- A flit put on the link (R448, R449): it takes the next sequence number, carries what the port owes, and stays in the replay
buffer. -/
def Port.transmit (p : Port) (f : Flit) (now : Nat) : Port :=
  let o := (p.owed.find? (fun x => 0 < x.2)).getD (0, 0)
  let n := min 31 o.2
  let g := flitSealed { f with
    seq := p.sendSeq, ack := (p.expect + 4095) % 4096, retry := p.askRetry, credits := n, creditVc := o.1 }
  { p with
    sendSeq := (p.sendSeq + 1) % 4096, askRetry := false, owed := tset p.owed o.1 (o.2 - n), sent := (f.vc :: p.sent).take 256,
    replay := p.replay ++ [g], lastAck := if p.replay.isEmpty then now else p.lastAck }

/-- The head of a channel's queue taken and sent. -/
def Port.sendFrom (p : Port) (vc now : Nat) : Port :=
  match tget p.queues vc [] with
  | [] => p
  | f :: r => { p with queues := tset p.queues vc r, credits := tset p.credits vc (p.credit vc - 1) }.transmit f now

/-- A retry request put on the link (R449, R450): a link-control flit, which takes a credit of channel 25, or with none an idle flit, which
needs no credit. -/
def Port.request (p : Port) (now : Nat) : Port :=
  if 0 < p.credit 25 then { p with credits := tset p.credits 25 (p.credit 25 - 1) }.transmit { Flit.blank with typ := 5, vc := 25 } now
  else p.transmit Flit.blank now

/-- FLIT_SELECT at port `x` (R449 to R451): retries and link control, then system channels within their budgets, then tenant
channels by deficit round robin. A flit that is sent again carries a retry request that is due; with 512 flits unacknowledged the oldest
is sent again for it. -/
def execFlitSelect (s : State) : Out :=
  let i := s.cur.x
  let p := s.port i
  let now := s.chron.toNat
  if !p.up then .next s
  else
    match p.resend with
    | _ :: r => .next (s.setPort i { p with resend := r, askRetry := false })
    | [] =>
      if p.replay.length ≥ 512 then .next (s.setPort i { p with askRetry := false })
      else if p.askRetry then .next (s.setPort i (p.request now))
      else
        match [24, 25].find? (fun vc => p.ready vc && p.inBudget vc) with
        | some vc => .next (s.setPort i (p.sendFrom vc now))
        | none =>
          let l := (List.range 24).filter p.ready
          if l.contains p.last && 0 < tget p.deficits p.last 0 then
            .next (s.setPort i { p.sendFrom p.last now with
              deficits := tset p.deficits p.last (tget p.deficits p.last 0 - 1) })
          else
            match nextAfter l p.last 24 with
            | some vc =>
              let q := if (tget p.queues p.last []).isEmpty then { p with deficits := tset p.deficits p.last 0 } else p
              .next (s.setPort i { q.sendFrom vc now with
                last := vc, deficits := tset q.deficits vc (tget q.deficits vc 0 + s.vcWeight i vc - 1) })
            | none =>
              if p.owed.any (fun x => 0 < x.2) then .next (s.setPort i (p.transmit Flit.blank now)) else .next s

/-! ### Peer sends received (R453, R455) -/

/-- Why a send that arrives at a port is rejected, 0 if it is not (R450, R455): the port's channel is bound to another VD or none, the range
is passed, or it does not translate. -/
def State.rejects (s : State) (i : Nat) (f : Flit) : Nat :=
  let d := s.vd f.dst
  if !d.present || !d.routes.any (fun r => r.2.vc = f.vc && r.2.port = i) then 1
  else if d.recvPages = 0 || f.off + 32 * f.grans.length > d.recvPages * 4096 then 2
  else if (List.range f.grans.length).all (fun k =>
      match s.place f.dst (d.recvBase + f.off + 32 * k) true false [] with
      | .cell _ _ => true
      | _ => false) then 0
  else 3

/-- The masked bytes of a send written in the receive range (R453); those of host memory wait for the host (R100, R446). -/
def State.receive (s : State) (f : Flit) : State :=
  (f.grans.zip f.masks).zipIdx.foldl (fun (t : State) (x : (Payload × BitVec 32) × Nat) =>
    match t.place f.dst ((t.vd f.dst).recvBase + f.off + 32 * x.2) true false [] with
    | .cell c _ =>
      if x.1.2 = 0#32 then t
      else if isHost c then t.writeSome f.dst c (maskedBytes (x.1.1.setWidth 512) (x.1.2.setWidth 64) 32)
      else
        let old := if t.badAt c then List.replicate 32 0 else t.bytes c 32
        t.storeUnit c (mergeBytes old (x.1.1.setWidth 512) (x.1.2.setWidth 64)) false
    | _ => t) s

/-- A completion record sent back (R453). -/
def State.complete (s : State) (i : Nat) (f : Flit) (status : Nat) : State :=
  s.enqueue i { Flit.blank with
    typ := 2, vc := f.vc, dst := f.src, src := f.dst, recs := [{ tag := f.tag, op := status, step := 0, phase := 0 }] }

/-- The words of an event about a tag and a status (R484). -/
def tagWords (tag status : Nat) : List DWord := [BitVec.ofNat 64 tag, BitVec.ofNat 64 (tag / 2 ^ 64), BitVec.ofNat 64 status]

/-- PEER_SEND received at port `x` (R127, R444, R450, R453, R455, R459): a tag in the table is answered again and nothing is
written; otherwise the bytes are written under the receiving VD, resident or not, or the send is rejected. -/
def execPeerSend (f : Flit) (s : State) : Out :=
  let i := s.cur.x
  match s.linkIn i f with
  | none => .next s
  | some t =>
    if f.typ ≠ 1 then .next s
    else
      let far := (s.port i).far
      match t.hb.received.find? (fun e => e.module = far && e.vc = f.vc && e.tag = f.tag) with
      | some e => .next (t.complete i f e.status)
      | none =>
        let st := t.rejects i f
        let e : PeerSupp := { module := far, vc := f.vc, tag := f.tag, status := st }
        let u := if st = 0 then (t.receive f).modVd f.dst (fun d => { d with hprecv := d.hprecv + 1 })
          else ((t.modVd f.dst (fun d => { d with hprej := d.hprej + 1 })).raise harbourSource 0x0017
            (if st = 1 then 255 else f.dst) (tagWords f.tag st))
        .next ({ u with hb := { u.hb with received := u.hb.received ++ [e] } }.complete i f st)

/-- Whether a column end holds a command or a response with a tag. -/
def Edge.holdsTag (x : Edge) (tag : Nat) : Bool :=
  x.cmds.any (fun c => c.tag = tag) || x.rsps.any (fun p => p.tag = tag || p.orig.any (fun c => c.tag = tag))

/-- Whether a command with a tag is in hand, or saved, which acknowledges it when its own result has been taken (R362, R453). -/
def State.tagHeld (s : State) (tag : Nat) : Bool :=
  s.edges.any (fun x => x.2.holdsTag tag) || (s.vd (tagVd tag)).saves.any (fun k => k.edges.any (fun x => x.2.holdsTag tag))

/-- A send's completion reaches its sender (R453): it has performed; the counters advance, and, where no command has yet to give its
result, the record acknowledges it. -/
def State.completed (s : State) (far : Nat) (k : FlitRec) : State :=
  if s.hb.unretired.any (fun e => e.module = far && e.tag = k.tag && e.status = 255) then
    let s := { s with hb := { s.hb with unretired := s.hb.unretired.map (fun (e : PeerOut) =>
      if e.module = far && e.tag = k.tag then { e with status := k.op } else e) } }
    let s := s.modVd (tagVd k.tag) (fun d =>
      if k.op = 0 then { d with hpsent := d.hpsent + 1 } else { d with hpnak := d.hpnak + 1 })
    let s := if k.op = 0 then s else s.raise harbourSource 0x0017 (tagVd k.tag) (tagWords k.tag k.op)
    if s.tagHeld k.tag then s else s.soon .suppressionRetire (tagVd k.tag) k.tag 0
  else s

/-- PEER_COMPLETION received at port `x` (R453). -/
def execPeerCompletion (f : Flit) (s : State) : Out :=
  match s.linkIn s.cur.x f with
  | none => .next s
  | some t => if f.typ ≠ 2 then .next s else .next (f.recs.foldl (fun u k => u.completed (s.port s.cur.x).far k) t)

/-- PEER_RETIRE received at port `x` (R453): the entries of its tags go. -/
def execPeerRetire (f : Flit) (s : State) : Out :=
  match s.linkIn s.cur.x f with
  | none => .next s
  | some t =>
    if f.typ ≠ 4 then .next s
    else
      let far := (s.port s.cur.x).far
      .next { t with hb := { t.hb with
        received := t.hb.received.filter (fun e => !(e.module = far && f.recs.any (fun k => k.tag = e.tag))) } }

/-! ### Convoys across modules (R456) -/

/-- An error that the home answers with (log 17). -/
def State.convoyRefuse (s : State) (i : Nat) (f : Flit) (k : FlitRec) (sub : Nat) : State :=
  s.convoyReply i f.dst { tag := k.tag, op := 6, step := 0x80 + sub, phase := 0 } (convoyWhat k.op k.phase)

/-- A convoy operation of another module completed. -/
def State.convoyDone (s : State) (i : Nat) (f : Flit) (k : FlitRec) : State :=
  s.convoyReply i f.dst { tag := k.tag, op := 6, step := 0, phase := 0 } (convoyWhat k.op k.phase)

/-- `CVJOIN` of another module at its home. -/
def State.remoteJoin (s : State) (i : Nat) (f : Flit) (k : FlitRec) (m : Nat) : State :=
  match s.convoy f.dst k.phase with
  | some v =>
    if v.later.contains m then s.convoyRefuse i f k 3
    else if v.later.length ≥ 4096 then s.convoyRefuse i f k 2
    else (s.setConvoy f.dst k.phase { v with later := v.later ++ [m] }).convoyDone i f k
  | none =>
    if (s.vd f.dst).convoys.length ≥ 256 then s.convoyRefuse i f k 1
    else (s.newConvoy f.dst k.phase m).convoyDone i f k

/-- `CVARRIVE` of another module at its home: an arrival that must wait is held until the next phase opens. -/
def State.remoteArrive (s : State) (i : Nat) (f : Flit) (k : FlitRec) (m : Nat) : State :=
  match s.convoy f.dst k.phase with
  | some v =>
    if !v.later.contains m then s.convoyRefuse i f k 4
    else if !v.members.contains m || v.arrived.contains m then
      s.setConvoy f.dst k.phase { v with held := v.held.filter (fun h => h.2.recs != [k]) ++ [(i, { f with recs := [k] })] }
    else (s.convoyDone i f k).settleConvoy f.dst k.phase (v.arrive m s.chron.toNat)
  | none => s.convoyRefuse i f k 4

/-- A `CVWAIT` of another module for an arrival in no live convoy (R345). -/
def State.remoteEnded (s : State) (i : Nat) (f : Flit) (k : FlitRec) (m : Nat) : State :=
  match (s.vd f.dst).endedArrival k.phase m with
  | none => s.convoyRefuse i f k 5
  | some ph => (s.modVd f.dst (fun d => { d with ended := d.ended.filter (fun y => !(y.1 = k.phase && y.2.1 = m)) })).convoyReply i f.dst
      { tag := k.tag, op := 5, step := 0, phase := ph.toNat } (convoyWhat 3 k.phase)

/-- `CVWAIT` of another module at its home. -/
def State.remoteWait (s : State) (i : Nat) (f : Flit) (k : FlitRec) (m : Nat) : State :=
  match s.convoy f.dst k.phase with
  | some v =>
    match v.done.find? (fun x => x.1 = m) with
    | none => s.remoteEnded i f k m
    | some x =>
      if v.phase = x.2 then
        s.setConvoy f.dst k.phase { v with waits := v.waits.filter (fun w => w.1 != m) ++ [(m, k.tag, i)] }
      else
        (s.setConvoy f.dst k.phase { v with done := v.done.filter (fun y => y.1 != m) }).convoyReply i f.dst
          { tag := k.tag, op := 5, step := v.stepOf (moduleOf m), phase := x.2.toNat } (convoyWhat 3 k.phase)
  | none => s.remoteEnded i f k m

/-- `CVLEAVE` of another module at its home. -/
def State.remoteLeave (s : State) (i : Nat) (f : Flit) (k : FlitRec) (m : Nat) : State :=
  match s.convoy f.dst k.phase with
  | some v =>
    if !v.later.contains m then s.convoyRefuse i f k 4
    else (s.convoyDone i f k).settleConvoy f.dst k.phase (v.leave m s.chron.toNat)
  | none => s.convoyRefuse i f k 4

/-- Whether a VD shares a tenant channel with a VD of another module: it has a route to it (R37, R444, R450). -/
def State.sharesChannel (s : State) (vd far remote : Nat) : Bool :=
  (s.vd vd).routes.any (fun (w : Nat × Route) => (s.port w.2.port).far = far && w.2.remote = remote)

/-- A tag that comes again with another operation or convoy: a detected fault of the home's VD, and an error to the issuer, without change
of the stored answer (R361; log 17). -/
def State.convoyMismatch (s : State) (i : Nat) (f : Flit) (k : FlitRec) : State :=
  ((s.raise (0x10 + s.homeStack f.dst) 0x0011 f.dst [BitVec.ofNat 64 k.tag, BitVec.ofNat 64 (k.tag / 2 ^ 64)]).soon
    .quarantine f.dst 2 0).enqueue i { Flit.blank with
      typ := 3, vc := 24, dst := tagVd k.tag, src := f.dst, recs := [{ tag := k.tag, op := 6, step := 0x86, phase := 0 }] }

/-- A convoy record of another module at its home (R361, R456): one that was answered before is answered again; one of a VD that shares
no tenant channel is dropped (R37; log 17). -/
def State.convoyRec (s : State) (i : Nat) (f : Flit) (k : FlitRec) : State :=
  let far := (s.port i).far
  let m := remoteMember far k.tag
  match s.hb.received.find? (fun e => e.module = far && e.vc = 24 && e.tag = k.tag) with
  | some e =>
    if e.what ≠ convoyWhat k.op k.phase then s.convoyMismatch i f k
    else s.convoyReply i f.dst { tag := k.tag, op := e.status % 256, step := e.status / 256 % 256, phase := e.status / 65536 } e.what
  | none =>
    if !(s.vd f.dst).present || !s.sharesChannel f.dst far (tagVd k.tag) then s
    else
      match k.op with
      | 1 => s.remoteJoin i f k m
      | 2 => s.remoteArrive i f k m
      | 3 => s.remoteWait i f k m
      | 4 => s.remoteLeave i f k m
      | _ => s

/-- The speed step that a phase release brings for a convoy of another module (R457, R458): it takes effect with the release, and no older
release changes it again; a change is logged under the local identifier. -/
def State.farStep (s : State) (vd key : Nat) (k : FlitRec) : State :=
  let old := tget (s.vd vd).steps (farConvoy key) (0, 0)
  if k.op ≠ 5 || (old.2 != 0 && 2 ^ 31 ≤ (k.phase + 1 + 2 ^ 32 - old.2 % 2 ^ 32) % 2 ^ 32) || k.phase + 1 = old.2 then s
  else
    let t := s.modVd vd (fun d => { d with steps := tset d.steps (farConvoy key) (k.step, k.phase + 1) })
    let loc := ((s.vd vd).peers.find? (fun x => x.2.route = key / 65536 && x.2.homeId = key % 65536)).elim (key % 65536) (fun x => x.2.locId)
    if old.1 = k.step then t else t.log vd 0x07 [BitVec.ofNat 64 loc, BitVec.ofNat 64 k.step]

/-- Whether a region is a member of a convoy of another module, as its home's answer says (R456): a join adds it, a leave takes it out. -/
def Region.answered (r : Region) (op key : Nat) : Region :=
  if op = 1 && !r.joined.contains key then { r with joined := r.joined ++ [key] }
  else if op = 4 then { r with joined := r.joined.filter (· != key) } else r

/-- What an answer says of membership and steps, for a region that stands. -/
def State.memberAnswer (s : State) (vd : Nat) (e : PeerOut) (k : FlitRec) : State :=
  let op := match e.flit.recs with | x :: _ => x.op | [] => 0
  let t := s.farStep vd e.va k
  if k.op = 6 && k.step = 0 then
    { t with regions := t.regions.map (fun r => if r.vd = vd && r.ownsTag k.tag then r.answered op e.va else r) }
  else t

/-- Whether a pilot waits for the answer to a convoy operation. -/
def Pilot.asksConvoy (p : Pilot) (tag : Nat) : Bool := p.pend.any (fun a => a.isConvoy && a.tag = tag)

/-- The home's answer reaches the pilot that waits for it (R456); a saved region asks again when it is restored (R459); where none waits, the
operation's tag retires (R362). -/
def State.convoyAnswer (s : State) (far vd : Nat) (k : FlitRec) : State :=
  let s := match s.hb.unretired.find? (fun e => e.module = far && e.tag = k.tag && e.vc = 24) with
    | some e => s.memberAnswer vd e k
    | none => s
  let s := { s with hb := { s.hb with unretired := s.hb.unretired.map (fun (e : PeerOut) =>
    if e.module = far && e.tag = k.tag then { e with status := 0 } else e) } }
  if s.pilots.any (fun (x : Nat × Pilot) => x.2.asksConvoy k.tag) then
    { s with pilots := s.pilots.map (fun (x : Nat × Pilot) => (x.1, { x.2 with pend := x.2.pend.map (fun a =>
        if a.isConvoy && a.tag = k.tag then
          { a with fault := true, data := BitVec.ofNat 64 (k.phase + k.step * 2 ^ 32) } else a) })) }
  else if (s.vd vd).saves.any (fun x => x.pilots.any (fun y => y.2.asksConvoy k.tag)) then s
  else s.soon .suppressionRetire vd k.tag 0

/-- A record of a convoy flit: an operation for the home, or the home's answer (R456). -/
def State.convoyRecord (s : State) (i : Nat) (f : Flit) (k : FlitRec) : State :=
  if k.op < 5 then s.convoyRec i f k else s.convoyAnswer (s.port i).far f.dst k

/-- CONVOY_FLIT received at port `x` (R127, R456), or held before and due again where `y` is 1: joins, arrivals, waits and leaves of
members on another module, and what else the flit carries. -/
def execConvoyFlit (f : Flit) (s : State) : Out :=
  if s.cur.y = 1 then .next (f.recs.foldl (fun t k => t.convoyRec s.cur.x f k) s)
  else
    match s.linkIn s.cur.x f with
    | none => .next s
    | some t =>
      if f.typ ≠ 3 || f.recs.all (fun k => k.op ≥ 5) then .next s
      else .next (f.recs.foldl (fun u k => u.convoyRecord s.cur.x f k) t)

/-- PHASE_RELEASE_RECORD received at port `x` (R456 to R458): the home's phase releases and completions; the step of a release
takes effect as the waits return. -/
def execPhaseReleaseRecord (f : Flit) (s : State) : Out :=
  match s.linkIn s.cur.x f with
  | none => .next s
  | some t =>
    if f.typ ≠ 3 || f.recs.any (fun k => k.op < 5) then .next s
    else .next (f.recs.foldl (fun u k => u.convoyRecord s.cur.x f k) t)

/-! ### Slack control (R457, R458) -/

/-- The counters and the step of a module after a phase of period `p` in which its slack was `slack` (R457). -/
def Slack.update (k : Slack) (p slack : Nat) : Slack :=
  let k := if p ≤ 4 * slack then { k with high := k.high + 1, low := 0 }
    else if 16 * slack ≤ p then { k with low := k.low + 1, high := 0 }
    else { k with high := 0, low := 0 }
  let k := if k.high = 2 && k.step < 15 then { k with step := k.step + 1, high := 0 } else k
  if k.low = 2 && 0 < k.step then { k with step := k.step - 1, low := 0 } else k

/-- SLACK_UPDATE of VD `x`, convoy `y`, module `z` (R457, R458): the module's step after a completed phase, and the release of its
waits with that step. The phase that seeds counts nothing. -/
def execSlackUpdate (s : State) : Out :=
  let vd := s.cur.x
  let c := s.cur.y
  let m := s.cur.z
  match s.convoy vd c with
  | none => .next s
  | some v =>
    let k := tget v.slacks m { high := 0, low := 0, step := 0, latest := 0 }
    let k' := if v.period = 0 then k else k.update (v.period - 1) (v.lastDone - k.latest)
    let t := s.setConvoy vd c { v with slacks := tset v.slacks m k' }
    let t := if k'.step = k.step then t else t.log vd 0x07 [BitVec.ofNat 64 c, BitVec.ofNat 64 k'.step]
    let t := if m = 0 then t.modVd vd (fun d => { d with steps := tset d.steps c (k'.step, v.phase.toNat) }) else t
    .next (t.answerWaits vd c m (v.phase - 1).toNat k'.step)

end Sys2Proof.Machine
end

