-- ==== Sys2Proof/Machine/VoxOps.lean ====
section
/-!
DEFINITION. Voxkan's operations: the mailbox, host memory, packages, the usage log's batches, the resync summary
(R443, R444, R462 to R464, R467, R474 to R478, R487; spec/18_voxkan.md).
-/
namespace Sys2Proof.Config
open Sys2Proof.Machine

/-- The firmware version and security version that an image's header carries (R465; the header's layout is not given, log 10). -/
opaque imageHeader : List Byte → Nat × Nat

/-- The encrypted part of a migration package for a destination chain under the key of a draw, wrapped for the chain (R474; external
standards, log 10). -/
opaque sealPackage : List Byte → Nat → Package → List Byte

/-- What a migration package that another module sealed for this one holds, where it verifies, and that module's identifier (R474,
log 10). -/
opaque openPackage : List Byte → Option (Package × Nat)

/-- The certificate of a module's identity key, which Porwell has signed (R467; its form is not given, log 10). -/
opaque identityCert : Nat → List Byte

/-- The public half of a key pair of the device, by number: 0 the identity key, from 1 on the attestation keys (R467; log 10). -/
opaque publicKey : Nat → List Byte

/-- The module identifier that a certificate chain names, where the chain verifies (R474, log 10). -/
opaque chainModule : List Byte → Option Nat

/-- A byte of the dump's header, from cause, chronometer and firmware version (R489: their places are not given, log 2). -/
opaque dumpHeader : Nat → Nat → Nat → Nat → Byte

/-- The scan state of one frozen region in the dump: sealed under a fresh key, and the key wrapped to a modulus (R489; the standards
are external, log 10). -/
opaque sealScan : Nat → BitVec 256 → List Byte → List Byte

/-- The entry of a region without content in the dump, from its incarnation and its size (R489: its form is not given, log 10). -/
opaque listScan : Nat → Nat → List Byte

/-- The cause number in a fatal event (R484, R488: its coding is not given, log 2). -/
opaque fatalCause : Nat → DWord

/-- The cause number of a coolant event: leak and pump bits, failed reads, low flow (R482, R484: its coding is not given, log 2). -/
opaque coolantCause : Nat → DWord

end Sys2Proof.Config

namespace Sys2Proof.Machine
open Sys2Proof

/-! ### Host memory (R446, R463) -/

/-- The cell of a host physical address. -/
def hostCell (a : Nat) : Nat := hostBase + a

/-- Whether a range of host physical addresses exists (R98). -/
def hostRange (a n : Nat) : Bool := a + n ≤ 2 ^ 45

/-- Bytes stored from a cell, unit by unit, with fuel. -/
def State.storeRun (s : State) (a : Nat) (l : List Byte) : Nat → State
  | 0 => s
  | n + 1 =>
    let k := unitSize a - a % unitSize a
    match l with
    | [] => s
    | _ :: _ => State.storeRun (s.storeUnit a (l.take k) false) (a + k) (l.drop k) n

/-- Bytes that Voxkan writes to host memory. -/
def State.toHost (s : State) (a : Nat) (l : List Byte) : State := s.storeRun (hostCell a) l l.length

/-- Bytes that Voxkan reads from host memory. -/
def State.fromHost (s : State) (a n : Nat) : List Byte := s.bytes (hostCell a) n

/-! ### The mailbox (R463, R464) -/

/-- Doublewords of a byte string. -/
def toDWords : List Byte → Nat → List DWord
  | _, 0 => []
  | [], _ => []
  | l, n + 1 => BitVec.ofNat 64 (fromLe (l.take 8)) :: toDWords (l.drop 8) n

/-- A command completes with bytes as its results. -/
def State.mbBytes (s : State) (l : List Byte) : State := s.mbDone 0 0 (toDWords l (l.length / 8 + 1))

/-- Whether a record's length, its zero field and its bytes that the command does not name are legal (R463). The fields that
the command names are read from the buffer whatever the length says (log 33). -/
def Voxkan.recOk (v : Voxkan) (fields : List (Nat × Nat)) : Bool :=
  let len := v.field 2 2
  v.field 4 4 = 0 && 8 ≤ len && len ≤ 4096
    && (List.range (len - 8)).all (fun i => fields.any (fun f => f.1 ≤ 8 + i && 8 + i < f.1 + f.2) || v.field (8 + i) 1 = 0)

/-- The quota block of R469, at the offsets of `VDCREATE` and `VDQUOTA`. -/
def quotaFields : List (Nat × Nat) := [(0x18, 8), (0x20, 4), (0x24, 1), (0x25, 1), (0x26, 1), (0x27, 1), (0x28, 2), (0x2A, 1)]

/-- The fields that a command names, by opcode (R463); none for an unassigned opcode. -/
def commandFields (op : Nat) : Option (List (Nat × Nat)) :=
  match op with
  | 0x01 => some []
  | 0x02 => some [(8, 32), (0x28, 1)]
  | 0x03 => some [(0x10, 8), (0x18, 4)]
  | 0x04 => some []
  | 0x10 => some ([(8, 1), (9, 1), (0xA, 1), (0xC, 4), (0x10, 8)] ++ quotaFields)
  | 0x11 => some [(8, 1)]
  | 0x12 => some ((8, 1) :: quotaFields)
  | 0x13 => some [(8, 1), (0x10, 8)]
  | 0x14 => some [(8, 1), (9, 1), (0x10, 8), (0x18, 4)]
  | 0x15 => some [(8, 1), (9, 1), (0x10, 8), (0x18, 8), (0x20, 1)]
  | 0x16 => some [(8, 1), (9, 1), (0xA, 1), (0xB, 1), (0xC, 1), (0xD, 1)]
  | 0x17 => some [(8, 1), (0x10, 8), (0x18, 4)]
  | 0x18 => some [(8, 1), (9, 1), (0xA, 1), (0xC, 2), (0xE, 2), (0x10, 1)]
  | 0x19 => some [(8, 1)]
  | 0x1A => some [(8, 1), (0x10, 8), (0x18, 4), (0x20, 8), (0x28, 4)]
  | 0x1B => some [(8, 1), (0x10, 8), (0x18, 4)]
  | 0x1C => some [(8, 1), (0x10, 8)]
  | 0x20 => some [(8, 24), (0x20, 96)]
  | 0x21 => some [(8, 32)]
  | 0x22 => some [(8, 1), (0x10, 48)]
  | 0x23 => some [(8, 1), (0xA, 2), (0xC, 1)]
  | 0x30 => some [(8, 1), (0x10, 8), (0x18, 4)]
  | 0x31 => some [(0x10, 8), (0x18, 4), (0x1C, 1)]
  | 0x32 => some [(0x10, 8), (0x18, 8)]
  | 0x33 => some [(0x10, 4)]
  | 0x34 => some [(0x10, 4), (0x14, 4)]
  | _ => none

/-- Whether a command names a VD at offset 0x08 (R463). -/
def namesVd (op : Nat) : Bool := (0x10 ≤ op && op ≤ 0x1C) || op = 0x22 || op = 0x23 || op = 0x30

/-- The row of the table that a command is. -/
def commandRow (v : Voxkan) (op : Nat) : Instr :=
  match op with
  | 0x01 => .resync
  | 0x02 => .attest
  | 0x03 => .fwstage
  | 0x04 => .fwactivate
  | 0x10 => .vdcreate
  | 0x11 => .vddestroy
  | 0x12 => .vdquota
  | 0x13 => .vdroot
  | 0x14 => if v.field 9 1 = 0 then .framesGrant else .framesRelease
  | 0x15 => .hostrange
  | 0x16 => .route
  | 0x17 => .recvrange
  | 0x18 => .peerconvoy
  | 0x19 => .vdresume
  | 0x1A => .vdexport
  | 0x1B => .vdimport
  | 0x1C => .vddumpkey
  | 0x20 => .partition
  | 0x21 =>
    match v.field 8 1 with
    | 2 => .tide
    | 3 => .freeze
    | 4 => .save
    | 5 => .restore
    | 6 => .discard
    | _ => .ctxsize
  | 0x22 =>
    match v.field 0x10 1 with
    | 1 => .winrekey
    | 2 => .winclose
    | _ => .winopen
  | 0x23 => .slack
  | 0x30 => .logread
  | 0x31 => .eventring
  | 0x32 => .dumparea
  | 0x33 => .watchdog
  | _ => .power

/-- The status with which a command is refused before it runs, 0 if it is not (R464, R472). -/
def State.commandStatus (s : State) (v : Voxkan) (op : Nat) : Nat :=
  match commandFields op with
  | none => 1
  | some f =>
    if (v.devstate = 1 && !(op = 1 || op = 3 || op = 4)) || (v.devstate = 3 && op != 1) then 7
    else if !v.recOk f then 1
    else if namesVd op then
      let vd := v.field 8 1
      if vd ≥ 96 then 1
      else if op = 0x10 || op = 0x1B then (if (s.vd vd).present then 2 else 0)
      else if !(s.vd vd).present then 2
      else if (s.vd vd).quarantined && op != 0x11 && op != 0x19 then 8
      else 0
    else 0

/-- A command of the mailbox while it runs: its VD's number, and what it does. -/
def State.command (s : State) (op : Nat) (k : Nat → State) : Out :=
  if s.vox.busy && s.vox.latched = some op && (s.vox.devstate != 3 || op = 1) then .next (k (s.vox.field 8 1)) else .next s

/-! ### The usage log's batches (R477, R478) -/

/-- The 640 bytes of a batch record (R477). -/
def State.batchRecord (s : State) (vd : Nat) (b : Batch) : List Byte :=
  let first := match b.entries with | e :: _ => e.seq | [] => 0
  let head := toLe 4 0x474C5856 ++ toLe 1 vd ++ toLe 3 0 ++ toLe 8 first ++ toLe 4 b.entries.length ++ toLe 4 0
    ++ toLe 8 b.chron.toNat ++ toLe 8 s.vox.moduleId ++ toLe 24 0 ++ hashBytes b.hash
  head ++ (Config.rsaSign s.vox.attestKey (Config.sha512 head)).take 512

/-- Whole batches, oldest first, that fit in the room given: their bytes, and the batches that stay (R478). -/
def State.batchBytes (s : State) (vd room : Nat) : List Batch → List Byte × List Batch
  | [] => ([], [])
  | b :: r =>
    let x := s.batchRecord vd b ++ b.entries.flatMap (fun e => e.bytes vd)
    if x.length ≤ room then
      let y := State.batchBytes s vd (room - x.length) r
      (x ++ y.1, y.2)
    else ([], b :: r)

/-- What waited for room in the ring is written (R478): the held total, then the count of the lost. -/
def State.settleLog (s : State) (vd : Nat) : State :=
  let l := (s.vd vd).log
  if l.count < 16384 then
    let s := match l.held with
      | some v => (s.modVd vd (fun d => { d with log := { d.log with held := none } })).log vd 2 v
      | none => s
    if l.lost > 0 && (s.vd vd).log.count < 16384 then
      (s.modVd vd (fun d => { d with log := { d.log with lost := 0 } })).log vd 0x0E [BitVec.ofNat 64 l.lost]
    else s
  else s

/-! ### Quotas and save areas (R401, R403, R469, R471) -/

/-- The quota block of a record (R469). -/
def Voxkan.quotas (v : Voxkan) : Quotas :=
  { bricks := v.field 0x18 8, frames := v.field 0x20 4, share := v.field 0x24 1, weight := v.field 0x25 1,
    peer := v.field 0x26 1, slot := v.field 0x27 1, tarns := v.field 0x28 2, quarters := v.field 0x2A 1 }

/-- The 24 bytes of a quota block. -/
def Quotas.bytes (q : Quotas) : List Byte :=
  toLe 8 q.bricks ++ toLe 4 q.frames ++ toLe 1 q.share ++ toLe 1 q.weight ++ toLe 1 q.peer ++ toLe 1 q.slot ++ toLe 2 q.tarns
    ++ toLe 1 q.quarters ++ toLe 5 0

/-- Whether a quota block keeps its field limits in a partition of `n` strips (R469). -/
def Quotas.ok (q : Quotas) (n : Nat) : Bool :=
  1 ≤ q.weight && 1 ≤ q.peer && q.slot ≤ 1 && q.tarns ≤ 256 * n && q.quarters ≤ 2 * n

/-- The other VDs of a partition. -/
def State.partVds (s : State) (part vd : Nat) : List Nat :=
  (s.vds.filter (fun x => x.2.present && x.2.part = part && x.1 != vd)).map (fun x => x.1)

/-- The most of a quota that a VD has, now or from the next interval on (R471). -/
def Vd.most (d : Vd) (f : Quotas → Nat) : Nat := max (f d.q) (d.nextQ.elim 0 f)

/-- Whether the shares and the resident slots of a partition's VDs leave room for a quota block (R469). -/
def State.quotaRoom (s : State) (part vd : Nat) (q : Quotas) : Bool :=
  let l := s.partVds part vd
  (l.map (fun v => (s.vd v).most (fun q => q.share))).sum + q.share ≤ 256
    && (l.map (fun v => (s.vd v).most (fun q => q.slot))).sum + q.slot ≤ 4 * (s.partStrips part).length

/-- The save areas that a partition change in progress has reserved (R402): VD, base and size. -/
def State.reserved (s : State) : List (Nat × Nat × Nat) :=
  match s.change with
  | some (_, _, areas) => areas
  | none => []

/-- The size of the ring of a VD's usage log: 16,384 entries of 64 bytes, in frames that Voxkan holds after the VD's save area (R478). -/
def ringSize : Nat := 0x100000

/-- The HBM ranges that are taken: save areas with the rings of usage logs, those reserved, and owned frames. -/
def State.hbmTaken (s : State) : List (Nat × Nat) :=
  (s.vds.filter (fun x => x.2.present)).map (fun x => (x.2.saveBase, x.2.saveSize + ringSize))
    ++ s.reserved.map (fun x => (x.2.1, x.2.2 + ringSize))
    ++ (s.cipher.frames.filter (fun x => x.2.kind != 0)).map (fun x => (4096 * x.1, 4096))

/-- The HBM quarters of some strips: base addresses (R98). -/
def quarterBases (strips : List Nat) : List Nat :=
  strips.flatMap (fun k => [(2 * (k / 4)) * 0xC00000000 + k % 4 * 0x300000000, (2 * (k / 4) + 1) * 0xC00000000 + k % 4 * 0x300000000])

/-- Whether a range of HBM lies in quarters of some strips, adjacent ones included (R98). -/
def inQuarters (strips : List Nat) (a n : Nat) : Bool :=
  (List.range (n / 0x300000000 + 2)).all (fun i =>
    let q := (a / 0x300000000 + i) * 0x300000000
    a + n ≤ q || (quarterBases strips).contains q)

/-- A place in HBM of some strips for a save area, with the ring of its VD's log after it: the lowest (R401, R478). -/
def areaPlace (strips : List Nat) (size : Nat) (taken : List (Nat × Nat)) : Option Nat :=
  let n := size + ringSize
  ((quarterBases strips ++ taken.map (fun x => x.1 + x.2)).filter (fun a =>
    inQuarters strips a n && taken.all (fun x => a + n ≤ x.1 || x.1 + x.2 ≤ a))).min?

/-! ### Frames (R419) -/

/-- The frames that a VD owns, and those that its windows hold. -/
def State.framesOf (s : State) (vd : Nat) : List (Nat × Nat) :=
  ((s.cipher.frames.filter (fun x => x.2.kind = 1 && x.2.owner = vd)).map (fun x => (x.1, x.2.num)))
    ++ (s.cipher.windows.filter (fun w => w.2.opener = vd)).flatMap (fun w => w.2.frames)

/-- The lowest number that a VD's frames leave free. -/
def freeNum (used : List Nat) : Nat := ((List.range (used.length + 1)).find? (fun n => !used.contains n)).getD 0

/-- A frame granted to a VD (R419): zero under its keys, at its grant serial, which advances. -/
def State.grantFrame (s : State) (vd f : Nat) : State :=
  let n := freeNum ((s.framesOf vd).map (fun x => x.2))
  let lines := (List.range 64).map (fun i => 4096 * f + 64 * i)
  let t := { s.putZero (4096 * f) 4096 with poison := s.poison.filter (fun a => !lines.contains a) }
  let t := (t.newFrame f { kind := 1, owner := vd, num := n } (s.vd vd).grant.toNat).cacheNode (f / 0xC00000) (nodeKey vd 1 n)
  t.modVd vd (fun d => { d with grant := d.grant + 1 })

/-- A frame made unowned (R419): its counter line leaves the cache with it. -/
def State.freeFrame (s : State) (f : Nat) : State :=
  let o := s.frameOf (4096 * f)
  { s with cipher := { s.cipher with
    frames := tdel s.cipher.frames f, counters := tdel s.cipher.counters f,
    cached := s.cipher.cached.filter (fun k => k % 2 ^ 44 != nodeKey o.ownerKey 1 o.num),
    raw := s.cipher.raw.filter (fun x => x.1 / 4096 != f), badCounters := s.cipher.badCounters.filter (fun k => k != f),
    levels := tdel s.cipher.levels f } }

/-- Whether a frame lies in HBM of a VD's partition and in no save area or ring of a usage log, held or reserved (R402, R419, R420,
R478). -/
def State.frameIn (s : State) (vd f : Nat) : Bool :=
  isHbm (4096 * f) && s.inPartition vd (4096 * f) &&
    (s.vds.filter (fun x => x.2.present)).all (fun x => 4096 * f + 4096 ≤ x.2.saveBase || x.2.saveBase + x.2.saveSize + ringSize ≤ 4096 * f)
    && s.reserved.all (fun x => 4096 * f + 4096 ≤ x.2.1 || x.2.1 + x.2.2 + ringSize ≤ 4096 * f)

/-! ### The end of a VD (R463, R418) -/

/-- What stays of the usage log of a VD that is destroyed, or replaced under its number (R478): the batches that have not been read, and
what is held and counted. -/
def UsageLog.rest (l : UsageLog) (now : DWord) : UsageLog :=
  let x := l.closeBatch now
  { UsageLog.empty with batches := x.batches, held := x.held, lost := x.lost }

/-- A VD destroyed: its regions and records, keys, frames, windows, storage and queues. Entries of its log that have not been read stay for
the VD that is next created under its number (DESIGN CHOICE, log 23: R463 lets no command name an absent VD, and R478 drops no entry). -/
def State.destroy (s : State) (vd : Nat) : State :=
  let t := s.log vd 0x0F []
  let t := (t.regions.filter (fun r => r.vd = vd)).foldl (fun t r => t.vacate r) t
  let own := (t.cipher.windows.filter (fun w => w.2.opener = vd)).map (fun w => w.1)
  let t := (t.framesOf vd).foldl (fun t f => t.freeFrame f.1) t
  { t with
    vds := tset t.vds vd { Vd.absent with log := (t.vd vd).log.rest t.chron },
    lastVd := t.lastVd.map (fun x => if x.2 = vd && x.1 / 2 ^ 32 < 3 then (x.1, noVd) else x),
    kept := t.kept.filter (fun x => x.2.vd != vd),
    fifos := t.fifos.map (fun (x : Nat × Fifo) => (x.1, { x.2 with toks := x.2.toks.filter (fun k => k.vd != vd) })),
    hb := { t.hb with
      unretired := t.hb.unretired.filter (fun (e : PeerOut) => tagVd e.tag != vd),
      ports := t.hb.ports.map (fun (p : Nat × Port) => (p.1, { p.2 with queues := p.2.queues.map (fun (q : Nat × List Flit) =>
        (q.1, q.2.filter (fun f => !(f.src = vd && f.typ = 1)))) })) },
    cipher := { t.cipher with
      keys := (tdel t.cipher.keys vd).filter (fun (k : Nat × BitVec 256 × BitVec 256) => !(128 ≤ k.1 && own.contains (k.1 - 128))),
      nodes := t.cipher.nodes.filter (fun (x : Nat × Counter) => x.1 / 2 ^ 33 != vd),
      cached := t.cipher.cached.filter (fun k => k % 2 ^ 44 / 2 ^ 33 != vd),
      windows := (t.cipher.windows.filter (fun (w : Nat × Window) => w.2.opener != vd)).map (fun (w : Nat × Window) =>
        (w.1, { w.2 with members := w.2.members.filter (fun m => m != vd) })) } }

/-! ### The resync summary (R487) -/

/-- The state byte of a VD in the summary. -/
def Vd.stateByte (d : Vd) : Nat := if !d.present then 0 else if d.quarantined then 2 else if d.migrating then 3 else 1

/-- The 32 bytes of a VD in the summary. -/
def State.vdSummary (s : State) (v : Nat) : List Byte :=
  let d := s.vd v
  toLe 1 d.stateByte ++ toLe 1 d.part ++ toLe 1 (b2n d.resident) ++ toLe 1 (s.regions.filter (fun r => r.vd = v)).length
    ++ toLe 4 d.saves.length ++ dwBytes [d.guest, d.stolen, BitVec.ofNat 64 d.stolenBw]

/-- The state of a coolant zone: 0 normal, 1 hot, 2 coolant loss. -/
def State.zoneState (s : State) (z : Nat) : Nat :=
  if vg s.vox.zones z 0 = 2 then 2 else if (s.hot >>> (16 * z)).toNat % 65536 ≠ 0 then 1 else 0

/-- The resync summary, as bytes from its offset 0 (R487). -/
def State.summary (s : State) : List Byte :=
  let v := s.vox
  let bitsOf : List Nat → Nat := fun l => (l.map (fun k => 2 ^ k)).sum
  toLe 4 0x53525856 ++ toLe 4 v.fw.version ++ toLe 1 v.fw.sec ++ toLe 1 v.devstate ++ toLe 6 0 ++ toLe 8 s.chron.toNat
    ++ toLe 8 ((v.evSeq - 1) % 2 ^ 32) ++ toLe 8 s.harvest.toNat ++ (s.strips.toList.map (fun k => BitVec.ofNat 8 k))
    ++ toLe 1 s.hb.lanes ++ toLe 1 s.hb.rate ++ toLe 1 (bitsOf ((s.hb.ports.filter (fun p => p.2.up)).map (fun p => p.1)))
    ++ ((List.range 6).map (fun z => BitVec.ofNat 8 (s.zoneState z))) ++ toLe 7 0
    ++ toLe 8 (bitsOf (s.cipher.windows.map (fun w => w.1))) ++ toLe 1 v.atReset ++ toLe 167 0
    ++ (List.range 96).flatMap s.vdSummary

end Sys2Proof.Machine
end

