-- ==== Sys2Proof/Machine/VoxCmd.lean ====
section
/-!
DEFINITION. The management commands, reset and the mailbox's go (R155, R402, R442, R444, R457, R462 to R469, R471, R472, R474,
R477, R478, R481, R485 to R489; spec/18_voxkan.md). A command that must wait is run again until it completes.
-/
namespace Sys2Proof.Machine
open Sys2Proof

/-! ### Go, and reset -/

/-- MBCTL_GO with the value written (R462 to R464): the record is latched and the command starts; a go while a command runs is
ignored and shows as overflow. -/
def execMbctlGo (v : DWord) (s : State) : Out :=
  if !v.getLsbD 0 then .next s
  else if s.vox.busy then .next { s with vox := { s.vox with overflow := true } }
  else
    let x := { s.vox with record := s.vox.buf, busy := true }
    let op := x.field 0 2
    let x := { x with latched := some op }
    let t := { s with vox := x }
    let st := s.commandStatus x op
    if st ≠ 0 then .next (t.mbDone st 0 [])
    else .next (t.soon (commandRow x op) (if op = 0x22 then 255 else 0) 0 0)

/-- The firmware that a reset starts: a staged image that was activated, whose security version raises the floor (R466). -/
def Firmware.boot (f : Firmware) : Firmware :=
  match f.staged with
  | some (d, v, c) =>
    if f.activate then { digest := d, version := v, sec := c, floor := max f.floor c, good := true, staged := none, activate := false }
    else { f with staged := none }
  | none => { f with activate := false }

/-- Whether firmware passes the boot ROM's checks (R465). -/
def Firmware.passes (f : Firmware) : Bool := f.good && f.floor ≤ f.sec

/-- RESET (R442, R465 to R467): every VD, key and window is gone, host memory stays, the firmware is checked, and a new
attestation key is made. -/
def execReset (s : State) : Out :=
  let f := s.vox.fw.boot
  .next { State.reset with
    agenda := [], draws := s.draws, mem := s.mem, poison := s.poison.filter isHost,
    stores := [.zero 0 hostBase, .zero physEnd (2 ^ 60)],
    harvest := s.harvest,
    vox := { Voxkan.reset with
      fw := f, devstate := if f.passes then 2 else 1, moduleId := s.vox.moduleId, attestKey := s.vox.attestKey + 1, exported := s.vox.exported,
      atReset := if s.vox.busy then (s.vox.latched.getD 0) % 256 else 0 } }

/-! ### Reports and firmware -/

/-- RESYNC (R487): the summary, read at one instant. -/
def execResync (s : State) : Out := s.command 0x01 (fun _ => s.mbBytes s.summary)

/-- The certificate that the device makes for its attestation key at boot (R467): the key with the firmware digest, the security version, the
harvest map and the module identifier, signed by the identity key. -/
def State.attestCert (s : State) : List Byte :=
  let v := s.vox
  let body := Config.publicKey v.attestKey ++ hashBytes v.fw.digest ++ toLe 1 v.fw.sec ++ toLe 8 s.harvest.toNat ++ toLe 8 v.moduleId
  body ++ (Config.rsaSign 0 (Config.sha512 body)).take 512

/-- The attestation chain that SPDM presents (R467): the identity key's certificate and that of the attestation key. -/
def State.chain (s : State) : List Byte := Config.identityCert s.vox.moduleId ++ s.attestCert

/-- The bytes that an attestation report signs (R467). -/
def State.attestHead (s : State) (vd : Nat) (nonce : List Byte) : List Byte :=
  let v := s.vox
  let own := if vd < 96 then hashBytes (Config.sha512 (dwBytes (s.vd vd).create ++ (s.vd vd).q.bytes)) else toLe 64 0
  toLe 4 0x54535856 ++ toLe 1 vd ++ toLe 3 0 ++ nonce ++ hashBytes v.fw.digest ++ toLe 8 v.moduleId ++ toLe 8 s.harvest.toNat
    ++ toLe 8 s.chron.toNat ++ own ++ toLe 64 0

/-- ATTEST (R467): the report of 768 bytes, for a VD or for the device. -/
def execAttest (s : State) : Out :=
  s.command 0x02 (fun _ =>
    let vd := s.vox.field 0x28 1
    let nonce := (List.range 32).map (fun i => BitVec.ofNat 8 (s.vox.field (8 + i) 1))
    if vd ≥ 96 && vd ≠ 255 then s.mbDone 1 0 []
    else if vd < 96 && !(s.vd vd).present then s.mbDone 2 0 []
    else if vd < 96 && (s.vd vd).quarantined then s.mbDone 8 0 []
    else
      let h := s.attestHead vd nonce
      s.mbBytes (h ++ (Config.rsaSign s.vox.attestKey (Config.sha512 h)).take 512))

/-- FWSTAGE (R465, R466): the image is copied and checked; status 0x04 or 0x06 where it fails. -/
def execFwstage (s : State) : Out :=
  s.command 0x03 (fun _ =>
    let a := s.vox.field 0x10 8
    let n := s.vox.field 0x18 4
    if !hostRange a n then s.mbDone 1 0 []
    else
      let img := s.fromHost a n
      let h := Config.imageHeader img
      if !Config.rsaVerify img (Config.sha512 img) then s.mbDone 4 0 []
      else if h.2 < s.vox.fw.floor then s.mbDone 6 0 []
      else
        let t := { s with vox := { s.vox with fw := { s.vox.fw with staged := some (Config.sha512 img, h.1, h.2), activate := false } } }
        t.mbDone 0 0 [])

/-- FWACTIVATE (R466): the staged image is marked for the next reset. -/
def execFwactivate (s : State) : Out :=
  s.command 0x04 (fun _ =>
    if s.vox.fw.staged.isNone then s.mbDone 5 0 []
    else { s with vox := { s.vox with fw := { s.vox.fw with activate := true } } }.mbDone 0 0 [])

/-! ### Creating and destroying VDs -/

/-- A VD as it is created (R469). -/
def Vd.create0 (part hdm base size flags : Nat) (q : Quotas) (words : List DWord) (now : Nat) : Vd :=
  { Vd.absent with
    present := true, part := part, hdm := hdm, saveBase := base, saveSize := size, spill := bit flags 0, override := bit flags 1,
    q := q, create := words, waitSince := now }

/-- Keys for a VD, a grant serial of 1, and the created entry of its log (R418, R469, R476). -/
def State.createVd (s : State) (vd : Nat) (d : Vd) : State :=
  ((s.setVd vd { d with log := (s.vd vd).log.rest s.chron }).newKeys vd).log vd 0x01 [BitVec.ofNat 64 s.vox.moduleId, BitVec.ofNat 64 d.part]

/-- VDCREATE (R401, R403, R418, R469). -/
def execVdcreate (s : State) : Out :=
  s.command 0x10 (fun vd =>
    let v := s.vox
    let part := v.field 9 1
    let flags := v.field 0xA 1
    let hdm := v.field 0xC 4
    let size := v.field 0x10 8
    let q := v.quotas
    let n := (s.partStrips part).length
    if s.change.isSome then s.mbDone 5 0 []
    else if part ≥ 24 || s.partOf part ≠ part || flags ≥ 4 || hdm < 1 || hdm > 2 ^ 20 || size % 0x10000 ≠ 0 || !q.ok n then
      s.mbDone 1 0 []
    else if (size < areaSize (2 * n) (bit flags 0) q.tarns q.quarters && !bit flags 1) || !s.quotaRoom part vd q then
      s.mbDone 3 0 []
    else
      match areaPlace (s.partStrips part) size s.hbmTaken with
      | none => s.mbDone 3 0 []
      | some base =>
        let words := (List.range 6).map (fun k => tget v.record k 0)
        ((s.createVd vd (Vd.create0 part hdm base size flags q words s.chron.toNat)).mbDone 0 0 []))

/-- VDDESTROY (R418, R463). -/
def execVddestroy (s : State) : Out := s.command 0x11 (fun vd => (s.destroy vd).mbDone 0 0 [])

/-- VDQUOTA (R469, R471): the new quotas take effect at the next interval; one below what is granted is refused. -/
def execVdquota (s : State) : Out :=
  s.command 0x12 (fun vd =>
    let d := s.vd vd
    let q := s.vox.quotas
    if !q.ok (s.partStrips d.part).length then s.mbDone 1 0 []
    else if q.frames < (s.framesOf vd).length || q.quarters < (if d.resident then d.quarters.length else 0)
        || q.tarns < (if d.resident then 16 * (s.partStrips d.part).length * d.layers.length else 0)
        || !s.quotaRoom d.part vd q then s.mbDone 3 0 []
    else (s.setVd vd { d with nextQ := some q }).mbDone 0 0 [])

/-- VDROOT (R166, R463): the implied invalidation of every page completes first. -/
def execVdroot (s : State) : Out :=
  s.command 0x13 (fun vd =>
    let a := s.vox.field 0x10 8
    if a % 65536 ≠ 0 || !isHbm a then s.mbDone 1 0 []
    else
      let t := s.invalidate vd 0 (2 ^ 52)
      if t.drainedOld vd t.cmdNo then (t.modVd vd (fun d => { d with root := some a })).mbDone 0 0 [] else t)

/-! ### Frames, ranges, routes -/

/-- FRAMES with 0 at offset 0x09: a grant (R419). -/
def execFramesGrant (s : State) : Out :=
  s.command 0x14 (fun vd =>
    let first := s.vox.field 0x10 8
    let n := s.vox.field 0x18 4
    if s.vox.field 9 1 ≠ 0 then s
    else if first + n > hbmEnd / 4096 then s.mbDone 1 0 []
    else
      let l := (List.range n).map (fun i => first + i)
      if l.any (fun f => !s.frameIn vd f) then s.mbDone 1 0 []
      else if l.any (fun f => (tget s.cipher.frames f Frame.unowned).kind ≠ 0)
          || (s.framesOf vd).length + n > (s.vd vd).q.frames then s.mbDone 3 0 []
      else (l.foldl (fun t f => t.grantFrame vd f) s).mbDone 0 0 [])

/-- FRAMES with another value at offset 0x09: a release (R419). -/
def execFramesRelease (s : State) : Out :=
  s.command 0x14 (fun vd =>
    let first := s.vox.field 0x10 8
    let n := s.vox.field 0x18 4
    if s.vox.field 9 1 = 0 then s
    else if s.vox.field 9 1 > 1 || first + n > hbmEnd / 4096 then s.mbDone 1 0 []
    else
      let l := (List.range n).map (fun i => first + i)
      let own : Nat → Bool := fun f =>
        let x := tget s.cipher.frames f Frame.unowned
        x.kind = 1 && x.owner = vd
      if l.all own then (l.foldl (fun t f => t.freeFrame f) s).mbDone 0 0 [] else s.mbDone 5 0 [])

/-- HOSTRANGE (R446). -/
def execHostrange (s : State) : Out :=
  s.command 0x15 (fun vd =>
    let v := s.vox
    let i := v.field 9 1
    let base := v.field 0x10 8
    let len := v.field 0x18 8
    if i > 15 || base % 4096 ≠ 0 || len % 4096 ≠ 0 || !hostRange base len || v.field 0x20 1 > 1 then s.mbDone 1 0 []
    else
      let old := (s.vd vd).hostRanges
      let ranges := if v.field 0x20 1 = 1 then tset old i (base, len) else tdel old i
      (s.modVd vd (fun d => { d with hostRanges := ranges })).mbDone 0 0 [])

/-- Whether a flit that waits at a port leaves it as a VD's route goes to another: one of the VD's, on the route's channel or a system
channel (R449). -/
def movesWith (vd vc : Nat) (f : Flit) : Bool := f.src = vd && (f.vc = vc || f.vc = 24 || f.vc = 25)

/-- Whether a waiting flit has an entry of its own among the operations that are unanswered, which send it again. -/
def State.resent (s : State) (f : Flit) : Bool :=
  s.hb.unretired.any (fun e => e.status = 255 && (e.tag = f.tag && f.typ = 1 || f.typ = 3 && f.recs.any (fun k => k.op < 5 && k.tag = e.tag)))

/-- The flits of a VD that wait at a port leave it, in their order (R449). -/
def State.pullFlits (s : State) (vd port vc : Nat) : State :=
  let p := s.port port
  s.setPort port { p with queues := p.queues.map (fun (q : Nat × List Flit) => (q.1, q.2.filter (fun f => !movesWith vd vc f))) }

/-- A route bound to another port that reaches the same module: what waits, and what is unanswered, leaves on the new port in its order
(R449). -/
def State.rebind (s : State) (vd : Nat) (old new : Route) : State :=
  if old.port = new.port || (s.port old.port).far ≠ (s.port new.port).far then s
  else
    let waiting := ((s.port old.port).queues.flatMap (fun q => q.2)).filter (fun f => movesWith vd old.vc f && !s.resent f)
    let t := waiting.foldl (fun (t : State) f => t.enqueue new.port { f with vc := if f.vc = old.vc then new.vc else f.vc })
      (s.pullFlits vd old.port old.vc)
    let mine : PeerOut → Bool := fun e => tagVd e.tag = vd && e.status = 255 && e.port = old.port && (e.vc = old.vc || e.vc = 24)
    let t := (s.hb.unretired.filter mine).foldl
      (fun (t : State) (e : PeerOut) => t.enqueue new.port { e.flit with vc := if e.vc = 24 then 24 else new.vc }) t
    { t with hb := { t.hb with unretired := t.hb.unretired.map (fun (e : PeerOut) =>
      if mine e then { e with port := new.port, vc := if e.vc = 24 then 24 else new.vc } else e) } }

/-- ROUTE (R444, R449, R450). -/
def execRoute (s : State) : Out :=
  s.command 0x16 (fun vd =>
    let v := s.vox
    let r := v.field 9 1
    let new : Route := { port := v.field 0xA 1, vc := v.field 0xB 1, remote := v.field 0xC 1 }
    if r > 15 || new.port > 7 || new.vc > 23 || new.remote > 95 || v.field 0xD 1 > 1 then s.mbDone 1 0 []
    else if v.field 0xD 1 = 0 then (s.modVd vd (fun d => { d with routes := tdel d.routes r })).mbDone 0 0 []
    else
      let t := match tfind (s.vd vd).routes r with
        | some old => s.rebind vd old new
        | none => s
      (t.modVd vd (fun d => { d with routes := tset d.routes r new })).mbDone 0 0 [])

/-- RECVRANGE (R444). -/
def execRecvrange (s : State) : Out :=
  s.command 0x17 (fun vd =>
    let base := s.vox.field 0x10 8
    let pages := s.vox.field 0x18 4
    if !addrOk base 4096 || pages ≥ 2 ^ 28 then s.mbDone 1 0 []
    else (s.modVd vd (fun d => { d with recvBase := base, recvPages := pages })).mbDone 0 0 [])

/-- PEERCONVOY (R456). -/
def execPeerconvoy (s : State) : Out :=
  s.command 0x18 (fun vd =>
    let v := s.vox
    let i := v.field 9 1
    if i > 15 || v.field 0xA 1 > 15 || v.field 0x10 1 > 1 then s.mbDone 1 0 []
    else
      let old := (s.vd vd).peers
      let peers :=
        if v.field 0x10 1 = 1 then
          tset old i { route := v.field 0xA 1, locId := v.field 0xC 2, homeId := v.field 0xE 2 }
        else tdel old i
      (s.modVd vd (fun d => { d with peers := peers })).mbDone 0 0 [])

/-- VDRESUME (R472): the quarantine is lifted and logged, and the VD's launches may be placed again. -/
def execVdresume (s : State) : Out :=
  s.command 0x19 (fun vd =>
    if (s.vd vd).quarantined then
      (((s.modVd vd (fun d => { d with quarantined := false })).log vd 0x0B [2, BitVec.ofNat 64 (s.vd vd).cause]).mbDone 0 0 []).soon .placeLaunch
        (s.vd vd).part 0 0
    else s.mbDone 0 0 [])

/-! ### Migration (R474) -/

/-- The frames of a VD with their contents: number, bytes, poison of each line. -/
def State.frameData (s : State) (vd : Nat) : List (Nat × List Byte × Bool) :=
  (s.framesOf vd).flatMap (fun f => (List.range 64).map (fun i =>
    (64 * f.2 + i, s.bytes (4096 * f.1 + 64 * i) 64, s.badAt (4096 * f.1 + 64 * i))))

/-- The package of a VD that is exported (R474). -/
def State.package (s : State) (vd : Nat) : Package :=
  let d := s.vd vd
  { create := d.create, q := d.q, guest := d.guest, stolen := d.stolen, hash := d.log.hash, next := d.log.next, area := d.saveSize,
    saves := d.saves, spilled := d.spilled, spilledBad := d.spilledBad, spilledEdges := d.spilledEdges, spilledFifos := d.spilledFifos,
    spilledSupp := d.spilledSupp, spillTarns := d.spillTarns, lines := s.frameData vd }

/-- The lines of a VD's frames that fail their check as they are read (R427). -/
def State.failingLines (s : State) (vd : Nat) : List Nat :=
  (s.framesOf vd).flatMap (fun f => ((List.range 64).map (fun i => 4096 * f.1 + 64 * i)).filter (fun a => s.check a = .failed))

/-- VDEXPORT (R474): the package is written and the VD destroyed here; status 0x05 where a region is not saved, 0x04 where the
destination's chain fails. -/
def execVdexport (s : State) : Out :=
  s.command 0x1A (fun vd =>
    let v := s.vox
    let chain := s.fromHost (v.field 0x10 8) (v.field 0x18 4)
    if !hostRange (v.field 0x10 8) (v.field 0x18 4) || !hostRange (v.field 0x20 8) (v.field 0x28 4) then s.mbDone 1 0 []
    else if s.regions.any (fun r => r.vd = vd) || s.change.isSome || s.cipher.windows.any (fun w => w.2.opener = vd) then
      s.mbDone 5 0 []
    else
      match Config.chainModule chain with
      | none => s.mbDone 4 0 []
      | some m =>
        let t := (if (s.vd vd).resident then s.dismiss vd else s).log vd 0x0C [1, BitVec.ofNat 64 m]
        let t := (t.failingLines vd).foldl (fun (t : State) a => t.afterRead a) t
        let x := t.package vd
        let body := Config.sealPackage chain t.draws x
        let p := body ++ (Config.rsaSign v.attestKey (Config.sha512 body)).take 512
        if p.length > v.field 0x28 4 then s.mbDone 3 0 []
        else
          let t := { t with draws := t.draws + 1, vox := { t.vox with exported := (p, m, x) :: t.vox.exported } }
          ((t.toHost (v.field 0x20 8) p).destroy vd).mbDone 0 p.length [])

/-- What a migration package holds, where it verifies, and the module that sealed it (R474): one that this module sealed opens for the
module that it was sealed for, with what was put in; any other as its sealer made it (log 10). -/
def State.unpack (s : State) (p : List Byte) : Option (Package × Nat) :=
  match s.vox.exported.find? (fun x => x.1 = p) with
  | some (_, m, x) => if m = s.vox.moduleId then some (x, s.vox.moduleId) else none
  | none => Config.openPackage p

/-- The VD of a package as it is created (R469, R474): by its `VDCREATE` record, with its quotas, its counters, its log chain, and the
contents of its save area. -/
def Package.vd (x : Package) (base : Nat) (now : Nat) (log : UsageLog) : Vd :=
  let w := (lget x.create 1 0).toNat
  { Vd.create0 (w / 2 ^ 8 % 256) (w / 2 ^ 32) base x.area (w / 2 ^ 16 % 256) x.q x.create now with
    guest := x.guest, stolen := x.stolen, log := { log with hash := x.hash, next := x.next }, saves := x.saves, spilled := x.spilled,
    spilledBad := x.spilledBad, spilledEdges := x.spilledEdges, spilledFifos := x.spilledFifos, spilledSupp := x.spilledSupp,
    spillTarns := x.spillTarns }

/-- A frame of an imported VD: a free frame of its partition, granted and filled. -/
def State.importLine (s : State) (vd : Nat) (map : List (Nat × Nat)) (x : Nat × List Byte × Bool) : State :=
  match map.find? (fun m => m.1 = x.1 / 64) with
  | some m =>
    let a := 4096 * m.2 + x.1 % 64 * 64
    if (s.frameOf a).owner = vd then s.storeUnit a x.2.1 x.2.2 else s
  | none => s

/-- The first free frames of a VD's partition. -/
def State.someFrames (s : State) (vd n : Nat) : List Nat :=
  ((quarterBases (s.partStrips (s.vd vd).part)).flatMap (fun q =>
    ((List.range (0x300000000 / 4096)).map (fun i => q / 4096 + i)).filter (fun f =>
      (tget s.cipher.frames f Frame.unowned).kind = 0 && s.frameIn vd f))).take n

/-- VDDUMPKEY (R489): the modulus that a dump is wrapped to. -/
def execVddumpkey (s : State) : Out :=
  s.command 0x1C (fun vd =>
    let a := s.vox.field 0x10 8
    if !hostRange a 512 then s.mbDone 1 0 []
    else (s.modVd vd (fun d => { d with dumpKey := some (fromLe (s.fromHost a 512)) })).mbDone 0 0 [])

/-! ### PARTITION (R18, R155, R402, R493) -/

/-- Whether a strip map is legal: each partition is a run of strips that starts at its first strip (R18). -/
def stripsOk (m : List Nat) : Bool :=
  (List.range 24).all (fun k =>
    let p := lget m k 255
    p = 255 || (p ≤ k && (List.range (k + 1)).all (fun j => j < p || lget m j 255 = p)))

/-- The save area that a VD needs in a new partition (R402). -/
def State.newArea (s : State) (vd bands : Nat) : Nat :=
  let d := s.vd vd
  if d.override then
    let a := d.saveSize * bands / (max 1 (s.partBands d.part))
    max ((a + 0xFFFF) / 0x10000 * 0x10000) (((d.saves.map (fun k => k.off + recordSize k.bands)).foldl max 0 + 0xFFFF) / 0x10000 * 0x10000)
  else max d.saveSize (areaSize bands d.spill d.q.tarns d.q.quarters)

/-- New save areas for VDs, one after another: none where one has no place (R402). -/
def State.newAreas (s : State) (m firsts : List Nat) : List Nat → List (Nat × Nat) → Option (List (Nat × Nat × Nat))
  | [], _ => some []
  | v :: r, taken =>
    let strips := mapStrips m (s.newPart firsts v)
    let size := s.newArea v (2 * strips.length)
    match areaPlace strips size taken with
    | none => none
    | some base => (State.newAreas s m firsts r ((base, size + ringSize) :: taken)).map (fun l => (v, base, size) :: l)

/-- Whether the VDs of every partition of a map fit in it: shares and resident slots (R469). -/
def State.sharesFit (s : State) (m firsts : List Nat) : Bool :=
  (List.range 24).all (fun p =>
    let l := (s.vds.filter (fun x => x.2.present && s.newPart firsts x.1 = p)).map (fun x => x.2)
    (l.map (fun d => d.most (fun q => q.share))).sum ≤ 256 && (l.map (fun d => d.most (fun q => q.slot))).sum ≤ 4 * (mapStrips m p).length)

/-- What a VD had spilled beyond its new layers and bands is discarded (R493). -/
def Vd.trim (d : Vd) (n layers : Nat) : Vd :=
  let keep : Nat → Bool := fun a =>
    if a ≥ 2 ^ 52 then (a - 2 ^ 52) / 2 ^ 27 < layers && (a - 2 ^ 52) / 2 ^ 18 % 512 < 16 * n
    else if a ≥ 2 ^ 51 then true
    else (a - 2 ^ 50) / 2 ^ 22 < 2 * n
  { d with
    spilled := d.spilled.filter (fun x => keep x.1), spilledBad := d.spilledBad.filter keep,
    spilledEdges := d.spilledEdges.filter (fun (x : Nat × Edge) => x.1 / 16 < 2 * n) }

/-- What is kept of a VD's channel FIFOs: those of ports whose two strips its new partition still holds; the others are cleared with the
strips (R195). -/
def Vd.keepFifos (d : Vd) (strips : List Nat) : Tbl Fifo :=
  d.spilledFifos.filter (fun (x : Nat × Fifo) => strips.contains (4 * (x.1 / 128) + 3) && strips.contains (4 * (x.1 / 128) + 4))

/-- The place in a VD's own terms of a line of its spill, by its address (the inverse of `State.spillLine`). -/
def State.spillPlace (s : State) (vd a : Nat) : Option Nat :=
  let d := s.vd vd
  let n := (s.partStrips d.part).length
  let o := a - s.spillStart vd
  let ponds := 2 * n * 2 ^ 22
  let t := o - ponds - 0x200000
  let tarns := d.spillTarns * 2 ^ 18
  if !d.spill || a < s.spillStart vd then none
  else if o < ponds then some (2 ^ 50 + o)
  else if o < ponds + 0x200000 then none
  else if t < tarns then some (2 ^ 52 + (t / 2 ^ 18 / (16 * n) * 512 + t / 2 ^ 18 % (16 * n)) * 2 ^ 18 + t % 2 ^ 18)
  else some (2 ^ 51 + (t - tarns))

/-- What a line of a VD's spill holds, by its address. -/
def State.spillBytes (s : State) (vd a : Nat) : List Byte :=
  match s.spillPlace vd a, s.miscBase vd with
  | some b, _ => (List.range 64).map (fun i => ((s.vd vd).spilled.find? (fun x => x.1 = b + i)).elim 0 (fun x => x.2))
  | none, some m => if m ≤ a && a < m + 0x200000 then partLine (s.vd vd).spillParts (a - m) else []
  | none, none => []

/-- The lines of a VD's spill that its area moves with (R402): those of every granule that is spilled poisoned, at their places now. -/
def State.spillBadLines (s : State) (vd : Nat) : List Nat :=
  ((s.vd vd).spilledBad.filterMap (fun b => (s.spillLine vd b).map (fun a => a / 64 * 64))).eraseDups

/-- A VD in its new partition, with what its partition still holds of it (R155, R195, R493). -/
def State.rehouse (s : State) (m : List Nat) (part vd : Nat) : State :=
  let n := (mapStrips m part).length
  s.modVd vd (fun d =>
    let e := { d with part := part, quarters := [], spillTarns := d.q.tarns, spilledFifos := d.keepFifos (mapStrips m part) }
    e.trim n (if n = 0 then 0 else min 16 (d.q.tarns / (16 * n))))

/-- The lines of a VD's save area read from its old place (R402): one that fails its check raises its event; a record that holds one is
marked unrestartable, and a granule of the spill that does is poisoned. The record lines that are written poisoned, by offset, those of what
is no storage, by place, and the contents of the records' lines. -/
def State.leaveArea (s : State) (v : Nat) : List Nat × List Nat × State :=
  let d := s.vd v
  let bad := s.badLines d.saveBase d.saveSize
  let lost := bad.filterMap (fun a => s.spillPlace v a)
  let t := (s.readBack v (bad.filter (fun x => s.check x = .failed))).modVd v (fun d => { d with
    saves := d.saves.map (fun k => { k with unrestartable := k.unrestartable || !(s.recordBad v k).isEmpty }),
    spilledBad := d.spilledBad ++ (lost.flatMap (fun b => [b, b + 32])).filter (fun b => !d.spilledBad.contains b) })
  ((bad.filter (fun a => a < s.spillStart v || !d.spill)).map (fun x => x - d.saveBase),
    (s.miscBase v).elim [] (fun m => (bad.filter (fun a => m ≤ a && a < m + 0x200000)).map (fun a => a - m)), t)

/-- The change applied (R155 steps 4 and 5, R402): save areas moved, strips reassigned, their storage stale. -/
def State.applyChange (s : State) (m firsts : List Nat) (areas : List (Nat × Nat × Nat)) : State :=
  let vds := s.touched m firsts
  let areas := areas.filter (fun x => (s.vd x.1).present)
  let t := { s with
    lastVd := s.lastVd.map (fun x => if x.1 / 2 ^ 32 < 3 && vds.contains x.2 then (x.1, noVd) else x),
    kept := s.kept.filter (fun x => (List.range x.2.bands).all (fun i => lget m ((x.1 + i) / 2) 255 = s.partOf ((x.1 + i) / 2))) }
  let old := areas.map (fun x => (x, s.leaveArea x.1))
  let t := areas.foldl (fun (t : State) x => (t.leaveArea x.1).2.2) t
  let t := { t with change := none, strips := Vector.ofFn (fun k : Fin 24 => lget m k.val 255) }
  let t := vds.foldl (fun (t : State) v => t.rehouse m (s.newPart firsts v) v) t
  let t := areas.foldl (fun (t : State) x => t.modVd x.1 (fun d => { d with saveBase := x.2.1, saveSize := x.2.2 })) t
  let t := old.foldl (fun (t : State) x =>
    let base := x.1.2.1
    let d := s.vd x.1.1
    let start := t.spillStart x.1.1
    t.writeLines base (x.1.2.2 / 64)
      (fun i => if base + 64 * i < start || !d.spill then (if 64 * i < d.saveSize then s.bytes (d.saveBase + 64 * i) 64 else [])
        else t.spillBytes x.1.1 (base + 64 * i))
      (x.2.1.map (fun o => base + o) ++ (t.miscBase x.1.1).elim [] (fun m => x.2.2.1.map (fun o => m + o)) ++ t.spillBadLines x.1.1)) t
  (List.range 24).foldl (fun t p => if (mapStrips m p).isEmpty then t else t.soon .residencyRotation p 0 0) t

/-- The new save areas of the VDs that a change touches: their partition, as a set of strips, changes (R402; log 23). -/
def State.changeAreas (s : State) (m firsts : List Nat) : Option (List (Nat × Nat × Nat)) :=
  s.newAreas m firsts (s.touched m firsts) s.hbmTaken

/-- A change accepted, its save areas reserved (R402): the VDs it touches leave (R155 steps 1 and 2). -/
def State.startChange (s : State) (m firsts : List Nat) (areas : List (Nat × Nat × Nat)) : State :=
  let vds := s.touched m firsts
  let t := vds.foldl (fun t v => t.modVd v (fun d => { d with switching := d.resident })) { s with change := some (m, firsts, areas) }
  (vds.map (fun v => (s.vd v).part)).eraseDups.foldl (fun t p => t.soon .residencyRotation p 0 0) t

/-- PARTITION (R18, R155, R402, R463): refused without effect, or begun; it completes once every VD that it touches has left. -/
def execPartition (s : State) : Out :=
  s.command 0x20 (fun _ =>
    match s.change with
    | some (m, firsts, areas) =>
      if (s.touched m firsts).any (fun v => (s.vd v).resident || s.regions.any (fun r => r.vd = v)) then s
      else (s.applyChange m firsts areas).mbDone 0 0 []
    | none =>
      let m := (List.range 24).map (fun k => s.vox.field (8 + k) 1)
      let firsts := (List.range 96).map (fun k => s.vox.field (0x20 + k) 1)
      if m.any (fun p => p ≥ 24 && p ≠ 255) || firsts.any (fun p => p ≠ 255 && lget m p 255 ≠ p)
          || s.vds.any (fun x => x.2.present && lget m (s.newPart firsts x.1) 255 ≠ s.newPart firsts x.1) then s.mbDone 1 0 []
      else if !stripsOk m then s.mbDone 5 0 []
      else
        match s.changeAreas m firsts with
        | some areas => if s.sharesFit m firsts then s.startChange m firsts areas else s.mbDone 3 0 []
        | none => s.mbDone 3 0 [])

/-- The lines of a VD's save area written afresh: those of its records, and those of its spill (R431, R474). -/
def State.fillArea (s : State) (vd : Nat) : State :=
  let d := s.vd vd
  let t := d.saves.foldl (fun (t : State) k => t.writeLines (d.saveBase + k.off) (recordSize k.bands / 64)
    (fun i => partLine (k.parts vd) (64 * i)) (k.badAt.map (fun x => d.saveBase + k.off + x))) s
  let a := t.spillStart vd
  if d.spill then t.writeLines a ((d.saveBase + d.saveSize - a) / 64) (fun i => t.spillBytes vd (a + 64 * i)) (t.spillBadLines vd) else t

/-- VDIMPORT (R474): the package is checked, the VD created with new frames, its time and its log chain resumed, and the lines of its save
area written. -/
def execVdimport (s : State) : Out :=
  s.command 0x1B (fun vd =>
    let v := s.vox
    if !hostRange (v.field 0x10 8) (v.field 0x18 4) then s.mbDone 1 0 []
    else
      match s.unpack (s.fromHost (v.field 0x10 8) (v.field 0x18 4)) with
      | none => s.mbDone 4 0 []
      | some (x, m) =>
        let nums := (x.lines.map (fun x => x.1 / 64)).eraseDups
        let part := (lget x.create 1 0).toNat / 2 ^ 8 % 256
        if s.change.isSome then s.mbDone 5 0 []
        else if s.partOf part ≠ part || !s.quotaRoom part vd x.q then s.mbDone 3 0 []
        else
          match areaPlace (s.partStrips part) x.area s.hbmTaken with
          | none => s.mbDone 3 0 []
          | some base =>
            let t := (s.setVd vd (x.vd base s.chron.toNat ((s.vd vd).log.rest s.chron))).newKeys vd
            let fs := t.someFrames vd nums.length
            if fs.length < nums.length then s.mbDone 3 0 []
            else
              let t := fs.foldl (fun t f => t.grantFrame vd f) t
              let t := x.lines.foldl (fun t x => t.importLine vd (nums.zip fs) x) t
              ((t.fillArea vd).log vd 0x0C [2, BitVec.ofNat 64 m]).mbDone 0 0 [])

/-! ### Convoys, logs, events, watchdog, power -/

/-- SLACK (R457): slack control of a convoy at its home; the first phase after enabling seeds no counts. -/
def execSlack (s : State) : Out :=
  s.command 0x23 (fun vd =>
    let c := s.vox.field 0xA 2
    match s.convoy vd c with
    | some v =>
      if s.vox.field 0xC 1 > 1 then s.mbDone 1 0 []
      else
        (s.setConvoy vd c { v with
          slackOn := s.vox.field 0xC 1 = 1, seeded := false,
          slacks := v.slacks.map (fun (x : Nat × Slack) => (x.1, { x.2 with high := 0, low := 0 })) }).mbDone 0 0 []
    | none => s.mbDone 1 0 [])

/-- LOGREAD (R477, R478): the open batch closes; whole batches are written while they fit, and freed. -/
def execLogread (s : State) : Out :=
  s.command 0x30 (fun vd =>
    let a := s.vox.field 0x10 8
    let room := s.vox.field 0x18 4
    if !hostRange a room then s.mbDone 1 0 []
    else
      let l := (s.vd vd).log.closeBatch s.chron
      let r := s.batchBytes vd room l.batches
      let t := s.modVd vd (fun d => { d with log := { l with batches := r.2 } })
      ((t.toHost a r.1).settleLog vd).mbDone 0 r.1.length [])

/-- EVENTRING (R485). -/
def execEventring (s : State) : Out :=
  s.command 0x31 (fun _ =>
    let a := s.vox.field 0x10 8
    let n := s.vox.field 0x18 4
    let e := s.vox.field 0x1C 1
    if a % 64 ≠ 0 || !(List.range 9).any (fun k => n = 256 * 2 ^ k) || !hostRange a (64 * n) || e > 1 then s.mbDone 1 0 []
    else { s with vox := { s.vox with ring := some (a, n, e = 1) } }.mbDone 0 0 [])

/-- DUMPAREA (R489). -/
def execDumparea (s : State) : Out :=
  s.command 0x32 (fun _ =>
    let a := s.vox.field 0x10 8
    let n := s.vox.field 0x18 8
    if a % 4096 ≠ 0 || n < 2 ^ 24 || !hostRange a n then s.mbDone 1 0 []
    else { s with vox := { s.vox with dump := some (a, n) } }.mbDone 0 0 [])

/-- WATCHDOG (R486). -/
def execWatchdog (s : State) : Out :=
  s.command 0x33 (fun _ => { s with vox := { s.vox with watchdog := s.vox.field 0x10 4 } }.mbDone 0 0 [])

/-- POWER (R471, R481). -/
def execPower (s : State) : Out :=
  s.command 0x34 (fun _ =>
    let cap := s.vox.field 0x10 4
    let n := s.vox.field 0x14 4
    if cap < 1000 || cap > 3200 || n < 1000 || n > 1000000 then s.mbDone 1 0 []
    else { s with vox := { s.vox with cap := cap, interval := n } }.mbDone 0 0 [])

end Sys2Proof.Machine
end

