-- ==== Sys2Proof/Machine/Monitor.lean ====
section
/-!
DEFINITION. What Voxkan does on its own: registers written and read, events, heat, power and coolant, quota intervals, the
chronometer, the watchdog and fatal errors (R6, R25, R133, R151, R197, R198, R443, R444, R462, R467, R470 to R473, R476, R477,
R479 to R486, R488 to R490; spec/18_voxkan.md).
-/
namespace Sys2Proof.Machine
open Sys2Proof

/-- Voxkan's state changed by a function. -/
def State.modVox (s : State) (f : Voxkan → Voxkan) : State := { s with vox := f s.vox }

/-! ### Registers (R6, R133, R443, R444, R462) -/

/-- `EVCONS` written (R462, R485): ring slots are free again. -/
def execEvconsWrite (v : DWord) (s : State) : Out := .next (s.modVox (fun x => { x with evcons := v.toNat % 2 ^ 32 }))

/-- A register of PF 0 written at an offset (R462). -/
def State.pfWrite (s : State) (off : Nat) (v : DWord) : State :=
  if off = 0x000 then s.soon (.mbctlGo v) 0 0 0
  else if off = 0x008 then
    s.modVox (fun x => { x with done := x.done && !v.getLsbD 17, overflow := x.overflow && !v.getLsbD 18 })
  else if off = 0x010 then s.modVox (fun x => { x with mbie := v.getLsbD 0 })
  else if off = 0x018 then s.soon (.evconsWrite v) 0 0 0
  else if 0x1000 ≤ off && off < 0x2000 then s.modVox (fun x => { x with buf := tset x.buf ((off - 0x1000) / 8) v })
  else s

/-- A register of the Helm page of a VD written (R133). -/
def State.vfWrite (s : State) (vd off : Nat) (v : DWord) : State :=
  let f : (HelmPage → HelmPage) → State := fun g => s.modVd vd (fun d => { d with helm := g d.helm })
  if off = 0x00 then s.soon (.hwatchWrite v) vd 0 0
  else if off = 0x08 then f (fun h => { h with hevent := v &&& 0xBF })
  else if off = 0x18 then f (fun h => { h with hinva := v &&& 0x000FFFFFFFFFF000 })
  else if off = 0x20 then s.soon (.hinvctl v) vd 0 0
  else if off = 0x28 then f (fun h => { h with hinvdst := v &&& 0x000FFFFFFFFFFFF8 })
  else if off = 0x30 then f (fun h => { h with overflow := h.overflow && !v.getLsbD 8 })
  else s

/-- REGISTER_WRITE of function `x` at offset `y`, `z` bytes wide (R6, R443): a register with behaviour has a step of its own; an access that
is not 8 bytes wide and aligned, and an unlisted register, change nothing. -/
def execRegisterWrite (v : DWord) (s : State) : Out :=
  let fn := s.cur.x
  let off := s.cur.y
  if off % 8 ≠ 0 || s.cur.z ≠ 8 then .next s
  else if fn = 0 then .next (s.pfWrite off v)
  else if fn ≤ 96 && (s.vd (fn - 1)).present then .next (s.vfWrite (fn - 1) off v)
  else .next s

/-- What a register of PF 0 reads (R462). -/
def State.pfRead (s : State) (off : Nat) : DWord :=
  let v := s.vox
  if off = 0x008 then
    BitVec.ofNat 64 (v.detail % 2 ^ 32 * 2 ^ 32 + b2n v.overflow * 2 ^ 18 + b2n v.done * 2 ^ 17 + b2n v.busy * 2 ^ 16 + v.status % 2 ^ 16)
  else if off = 0x010 then BitVec.ofNat 64 (b2n v.mbie)
  else if off = 0x018 then BitVec.ofNat 64 v.evcons
  else if off = 0x020 then s.chron
  else if off = 0x028 then BitVec.ofNat 64 v.devstate
  else if 0x1000 ≤ off && off < 0x2000 then tget v.buf ((off - 0x1000) / 8) 0
  else 0

/-- `HQSTAT` (R133). -/
def Vd.hqstat (d : Vd) : DWord :=
  let held : Nat → Nat := fun q => (d.graphs.filter (fun g => g.queue = q)).length
  let run : Nat → Nat := fun q => (d.graphs.filter (fun g => g.queue = q && g.started)).length
  BitVec.ofNat 64 ((List.range 4).map (fun q => held q * 2 ^ (8 * q) + run q * 2 ^ (8 * q + 32))).sum

/-- A route register (R444). -/
def routeWord (r : Option Route) : DWord :=
  match r with
  | some r => BitVec.ofNat 64 (2 ^ 31 + r.remote * 2 ^ 24 + r.vc * 2 ^ 16 + r.port)
  | none => 0

/-- `HPLINK` (R444). -/
def State.hplink (s : State) (d : Vd) : DWord :=
  BitVec.ofNat 64 ((List.range 8).map (fun p =>
    b2n ((s.port p).up && d.routes.any (fun (r : Nat × Route) => r.2.port = p)) * 2 ^ p)).sum

/-- What a register of the Helm page or the Harbour page of a VD reads (R133, R444). -/
def State.vfRead (s : State) (vd off : Nat) : DWord :=
  let d := s.vd vd
  if off = 0x00 then d.helm.hwatch
  else if off = 0x08 then d.helm.hevent
  else if off = 0x10 then d.hqstat
  else if off = 0x18 then d.helm.hinva
  else if off = 0x28 then d.helm.hinvdst
  else if off = 0x30 then BitVec.ofNat 64 (b2n d.helm.overflow * 256 + d.helm.invq.length)
  else if off = 0x1000 then s.hplink d
  else if off = 0x1008 then d.hpsent
  else if off = 0x1010 then d.hpnak
  else if off = 0x1018 then d.hprecv
  else if off = 0x1020 then d.hprej
  else if off = 0x1028 then BitVec.ofNat 64 d.recvBase
  else if off = 0x1030 then BitVec.ofNat 64 d.recvPages
  else if 0x1040 ≤ off && off < 0x10C0 then routeWord (tfind d.routes ((off - 0x1040) / 8))
  else 0

/-- What the host reads from a register with an access of `n` bytes (R443): one that is not 8 bytes wide and aligned, an unlisted register
and an absent function read zero. -/
def State.readRegister (s : State) (fn off n : Nat) : DWord :=
  if off % 8 ≠ 0 || n ≠ 8 then 0
  else if fn = 0 then s.pfRead off
  else if fn ≤ 96 && (s.vd (fn - 1)).present then s.vfRead (fn - 1) off
  else 0

/-- DOE_REQUEST of kind `x` (R442, R467): 0 presents the attestation chain by SPDM, 1 sets the link's IDE keys. -/
def execDoeRequest (s : State) : Out :=
  if s.cur.x = 0 then .next { s with hb := { s.hb with spdm := some s.chain } }
  else if s.cur.x = 1 then .next { s with hb := { s.hb with ide := true } }
  else .next s

/-! ### Events (R483 to R485) -/

/-- The order in which events are written: by chronometer, then by source. -/
def eventLt (a b : Event) : Bool := a.chron.toNat < b.chron.toNat || (a.chron = b.chron && a.src < b.src)

/-- The event that is written next, and the others. -/
def pickEvent : List Event → Option (Event × List Event)
  | [] => none
  | e :: r =>
    match pickEvent r with
    | none => some (e, [])
    | some (f, l) => if eventLt f e then some (f, e :: l) else some (e, r)

/-- The 64 bytes of an event record (R483). -/
def Event.bytes (e : Event) (seq : Nat) : List Byte :=
  toLe 8 e.chron.toNat ++ toLe 4 seq ++ toLe 2 e.src ++ toLe 2 e.code ++ toLe 1 e.vd ++ toLe 7 0
    ++ (dwBytes (e.detail.take 5) ++ toLe 40 0).take 40

/-- The count of lost events reported once the queue has room (R485). -/
def State.reportLost (s : State) : State :=
  if s.vox.lost > 0 && s.vox.events.length < 1024 then
    (s.modVox (fun x => { x with lost := 0 })).raise 0 0x0002 255 [BitVec.ofNat 64 s.vox.lost]
  else s

/-- EVENT_DELIVERY (R483, R485): an event held for 4 µs, the first in order, goes to its slot of the ring once the host has freed it. -/
def execEventDelivery (s : State) : Out :=
  match s.vox.ring, pickEvent s.vox.events with
  | some (a, n, vec), some (e, rest) =>
    let q := s.vox.evSeq
    if e.chron.toNat + 4000 ≤ s.chron.toNat && (q + 2 ^ 32 - s.vox.evcons) % 2 ^ 32 ≤ n then
      let t := (s.toHost (a + q % n * 64) (e.bytes q)).modVox (fun x => { x with
        events := rest, evSeq := q + 1, written := (x.written ++ [e]).drop (x.written.length + 1 - 1024) })
      .next ((if vec then t.msi 0 1 else t).reportLost)
    else .next s
  | _, _ => .next s

/-- LOG_BATCH_CLOSE of VD `x` (R477): at 256 entries, or 100 ms after the first. -/
def State.batchDue (s : State) (d : Vd) : Bool :=
  d.present && (d.log.openEntries.length ≥ 256 || (!d.log.openEntries.isEmpty && d.log.openedAt + 100000000 ≤ s.chron.toNat))

/-- LOG_BATCH_CLOSE (R477). -/
def execLogBatchClose (s : State) : Out :=
  let d := s.vd s.cur.x
  if s.batchDue d then .next (s.setVd s.cur.x { d with log := d.log.closeBatch s.chron }) else .next s

/-! ### Dividers and hot flags (R25, R197, R198, R479, R481, R482) -/

/-- The divider of a row domain under Voxkan's policies. -/
def State.therms (s : State) (d : Nat) : Nat := tget s.therm d 1

/-- What R479, R481 and R482 ask of a row domain. -/
def Voxkan.wants (v : Voxkan) (d : Nat) : Nat :=
  max (max (tget v.heat d 1) (tget v.powDiv d 1)) (if vg v.zones (d / 16) 0 = 2 then 4 else 1)

/-- An entry in the log of every VD with a region in a row domain. -/
def State.logDomain (s : State) (d kind v : Nat) : State :=
  (s.vdsOfDomain d).foldl (fun t vd => t.log vd kind [BitVec.ofNat 64 d, BitVec.ofNat 64 v]) s

/-- A row domain's divider brought to what is asked of it, with its event and log entries. -/
def State.settleDivider (s : State) (d : Nat) : State :=
  let w := s.vox.wants d
  if s.therms d = w then s
  else
    (({ s with therm := tset s.therm d w }).raise 0 0x0032 255 [BitVec.ofNat 64 d, BitVec.ofNat 64 w]).logDomain d 0x05 w

/-- A row domain's hot flag set or cleared: the change takes effect, with its event and log entries, in the next switch-domain cycle
(R198; CycleEnd). -/
def State.setHot (s : State) (d : Nat) (v : Bool) : State :=
  let b : BitVec 96 := BitVec.ofNat 96 (2 ^ d)
  { s with hotNext := if v then s.hotNext ||| b else s.hotNext &&& ~~~ b }

/-- What a temperature asks of a row domain's divider, which is at `cur` (R479): raised a step at 100 °C or more and again each 1 ms, lowered
a step after 10 ms below 92 °C. -/
def Voxkan.heatStep (v : Voxkan) (d temp now cur : Nat) : Voxkan :=
  let h := tget v.heat d 1
  let v := if temp ≥ 100 then
      match tfind v.hotSince d with
      | some t0 => if t0 + 1000000 ≤ now then { v with heat := tset v.heat d (min 4 (max h cur + 1)), hotSince := tset v.hotSince d now } else v
      | none => { v with heat := tset v.heat d (min 4 (max h cur + 1)), hotSince := tset v.hotSince d now }
    else { v with hotSince := tdel v.hotSince d }
  if temp < 92 then
    match tfind v.coolSince d with
    | some t0 => if t0 + 10000000 ≤ now then { v with heat := tset v.heat d (max 1 (h - 1)), coolSince := tset v.coolSince d now } else v
    | none => { v with coolSince := tset v.coolSince d now }
  else { v with coolSince := tdel v.coolSince d }

/-- The sensor of a row domain read (R479). -/
def State.readDomain (s : State) (temps : List Nat) (d : Nat) : State :=
  let temp := lget temps d 0
  let t := if temp ≥ 95 then s.setHot d true else if temp < 90 then s.setHot d false else s
  let t := (t.modVox (fun v => v.heatStep d temp s.chron.toNat (s.therms d))).settleDivider d
  if temp ≥ 110 then t.soon .fatal 2 0 0 else t

/-- A number added to a list at a threshold, and removed below another. -/
def band (l : List Nat) (h temp on off : Nat) : List Nat :=
  if temp ≥ on then insertSorted l h else if temp < off then l.filter (fun k => k != h) else l

/-- The sensor of an HBM stack read (R479). -/
def State.readStack (s : State) (temps : List Nat) (h : Nat) : State :=
  let temp := lget temps (96 + h) 0
  let t := s.modVox (fun v => { v with refresh := band v.refresh h temp 85 80, actCap := band v.actCap h temp 95 90 })
  if temp ≥ 105 then t.soon .fatal 2 0 0 else t

/-- Whether a cell lies in a stack's HBM (R98). -/
def onStack (h c : Nat) : Bool := isHbm c && c / 0xC00000000 = h

/-- Whether a VD has requests that wait on a stack (R480): accesses of its pilots, commands and bindings of its column ends, and a copy of
its graphs, by where they lead. -/
def State.waitsOn (s : State) (vd h : Nat) : Bool :=
  let entry : Option TEntry → Bool := fun o => o.any (fun e => onStack h e.pa)
  let mine := s.regions.filter (fun r => r.vd = vd)
  mine.any (fun r => (List.range r.bands).any (fun i => (s.pilot (r.lead + i)).pend.any (fun x => !x.isConvoy && onStack h x.cell))
      || r.ends.any (fun g => (s.edge g).cmds.any (fun c => c.unit.any (fun u => onStack h u.2) || entry c.te || entry c.te2))
      || [r.cur, r.succ, r.prev].any (fun o => o.any (fun b => b.binds.any (fun x => entry x.te && (x.br.dir = 0 || !x.takeq.isEmpty)))))
    || (s.vd vd).graphs.any (fun g => match g.state with
      | .copying pos _ _ => [(0x10, true), (0x18, false)].any (fun o => match s.copyCell vd (rd g.line o.1 8 + pos) o.2 with
        | .ok c => onStack h c
        | .error _ => false)
      | _ => false)

/-- A VD's share of what one 10 µs window of a stack lost (R480): the lost bandwidth is measured, and free here (log 2). A window
without loss ends the episode, which is logged. -/
def State.shortWindow (s : State) (vd h : Nat) : State :=
  let d := s.vd vd
  let holds := (s.partStrips d.part).any (fun k => k / 4 = h / 2)
  if d.present && holds && (s.vox.refresh.contains h || s.vox.actCap.contains h) && d.q.share > 0 && s.waitsOn vd h then
    let lost := d.q.share * (Config.freeNat s.draws) / 256
    let e := tget d.shorts h (s.chron.toNat, 0)
    ({ s with draws := s.draws + 1 }).setVd vd { d with
      stolenBw := d.stolenBw + lost, shorts := tset d.shorts h (e.1, e.2 + lost) }
  else
    match tfind d.shorts h with
    | some e => (s.setVd vd { d with shorts := tdel d.shorts h }).log vd 0x08
        [BitVec.ofNat 64 h, BitVec.ofNat 64 e.1, s.chron, BitVec.ofNat 64 e.2]
    | none => s

/-- SENSOR_READ with the temperatures of the 96 row domains and the 12 stacks, in whole °C (R197, R198, R479, R480). -/
def execSensorRead (temps : List Nat) (s : State) : Out :=
  let t := s.modVox (fun v => { v with temps := temps })
  let t := (List.range 96).foldl (fun t d => t.readDomain temps d) t
  let t := (List.range 12).foldl (fun t h => t.readStack temps h) t
  .next ((t.vds.map (fun (x : Nat × Vd) => x.1)).foldl (fun t vd =>
    (List.range 12).foldl (fun u h => u.shortWindow vd h) t) t)

/-- The hottest row domain, the lowest among equals. -/
def hottest (temps : List Nat) : Nat :=
  (List.range 96).foldl (fun b d => if lget temps d 0 > lget temps b 0 then d else b) 0

/-- The average of 100 power samples over the cap (R481): the hottest row domain is slowed by a step each 1 ms. -/
def State.overCap (s : State) : State :=
  let v := s.vox
  let now := s.chron.toNat
  if v.capSince = 0 || v.capSince + 1000000 ≤ now + 1 then
    let d := hottest v.temps
    let t := s.modVox (fun v => { v with capSince := now + 1, powDiv := tset v.powDiv d (min 4 (s.therms d + 1)) })
    let t := t.settleDivider d
    if v.capSince = 0 then t.raise 0 0x0041 255 [BitVec.ofNat 64 (v.watts.sum / 100)] else t
  else s

/-- A raised divider lowered after 10 ms below 95 % of the cap (R481); which one is open (log 2). -/
def State.underCap (s : State) : State :=
  let v := s.vox
  let now := s.chron.toNat
  if v.lowSince = 0 then s.modVox (fun v => { v with lowSince := now + 1 })
  else if v.lowSince + 10000000 ≤ now + 1 then
    let raised := (List.range 96).filter (fun d => tget v.powDiv d 1 > 1)
    let d := lget raised (Config.freeNat s.draws % (max 1 raised.length)) 96
    let t := ({ s with draws := s.draws + 1 }).modVox (fun v => { v with lowSince := now + 1 })
    if d < 96 then (t.modVox (fun v => { v with powDiv := tset v.powDiv d (tget v.powDiv d 1 - 1) })).settleDivider d else t
  else s

/-- POWER_SAMPLE of `x` watts (R481), judged by the average over 1 ms. -/
def execPowerSample (s : State) : Out :=
  let t := s.modVox (fun v => { v with watts := (v.watts ++ [s.cur.x]).drop (v.watts.length + 1 - 100) })
  let v := t.vox
  if v.watts.length < 100 then .next t
  else
    let sum := v.watts.sum
    let t := if sum > 100 * v.cap then t.overCap else t.modVox (fun v => { v with capSince := 0 })
    .next (if sum < 95 * v.cap then t.underCap else t.modVox (fun v => { v with lowSince := 0 }))

/-- The hottest sensor of a coolant zone: the row domains and the stacks of its package column. -/
def zoneTemp (temps : List Nat) (z : Nat) : Nat :=
  ((List.range 16).map (fun i => lget temps (16 * z + i) 0) ++ [lget temps (96 + 2 * z) 0, lget temps (97 + 2 * z) 0]).foldl max 0

/-- The valve opening of a zone (R482). -/
def opening (temp : Nat) : Nat := min 255 (max 32 (8 * (temp - 50)))

/-- A zone's telemetry taken in (R482): as a number of six bytes, inlet, outlet and flow in mL/s, the first the least significant; a read
that failed is 2^48 or more. -/
def Voxkan.zoneRead (v : Voxkan) (z x now : Nat) : Voxkan :=
  if x ≥ 2 ^ 48 then { v with zoneFails := vs v.zoneFails z (vg v.zoneFails z 0 + 1) }
  else
    let flow := x / 2 ^ 32
    let v := { v with zoneFails := vs v.zoneFails z 0, zoneTemps := vs v.zoneTemps z (x % 2 ^ 16, x / 2 ^ 16 % 2 ^ 16) }
    if flow < 20 then (if vg v.zoneLow z 0 = 0 then { v with zoneLow := vs v.zoneLow z (now + 1) } else v)
    else { v with zoneLow := vs v.zoneLow z 0 }

/-- Why a zone has lost its coolant, 0 if it has not: bits 0 and 1 pump fault and leak, 2 five failed reads, 3 a flow below 20 mL/s for
100 ms (R482). -/
def Voxkan.zoneLoss (v : Voxkan) (z board now : Nat) : Nat :=
  board % 4 + (if vg v.zoneFails z 0 ≥ 5 then 4 else 0)
    + (if vg v.zoneLow z 0 ≠ 0 && vg v.zoneLow z 0 + 100000000 ≤ now + 1 then 8 else 0)

/-- A zone judged (R482): its row domains go to ÷4 and hot with event 0x40, until the condition has been absent for 1 s. -/
def State.judgeZone (s : State) (z board : Nat) : State :=
  let now := s.chron.toNat
  let loss := s.vox.zoneLoss z board now
  let doms := (List.range 16).map (fun i => 16 * z + i)
  if loss ≠ 0 then
    let t := s.modVox (fun v => { v with zoneBack := vs v.zoneBack z 0 })
    if vg s.vox.zones z 0 = 2 then t
    else
      let t := t.modVox (fun v => { v with zones := vs v.zones z 2 })
      (doms.foldl (fun t d => (t.settleDivider d).setHot d true) t).raise 0 0x0040 255
        [BitVec.ofNat 64 z, Config.coolantCause loss]
  else if vg s.vox.zones z 0 = 2 then
    let back := vg s.vox.zoneBack z 0
    if back = 0 then s.modVox (fun v => { v with zoneBack := vs v.zoneBack z (now + 1) })
    else if back + 1000000000 ≤ now + 1 then
      doms.foldl (fun t d => t.settleDivider d)
        (s.modVox (fun v => { v with zones := vs v.zones z 0, zoneBack := vs v.zoneBack z 0 }))
    else s
  else s

/-- The transfers of a coolant cycle (R482): to the board controller at 0x2C, by code and payload. -/
def coolantTransfers (openings : List Nat) : List (Nat × Nat × List Byte) :=
  (List.range 6).map (fun z => (0x2C, 0x10, [BitVec.ofNat 8 z, BitVec.ofNat 8 (lget openings z 32)]))
    ++ [(0x2C, 0x11, [BitVec.ofNat 8 (openings.foldl max 0)]), (0x2C, 0x30, [])]
    ++ (List.range 6).map (fun z => (0x2C, 0x20, [BitVec.ofNat 8 z])) ++ [(0x2C, 0x21, [])]

/-- COOLANT_CYCLE with the telemetry of each zone and the board status `x` (R482), each 10 ms. -/
def execCoolantCycle (zones : List Nat) (s : State) : Out :=
  let now := s.chron.toNat
  let v := s.vox
  let openings := (List.range 6).map (fun z => opening (zoneTemp v.temps z))
  let t := s.modVox (fun v => { v with
    valves := openings, pump := openings.foldl max 0, i3c := coolantTransfers openings })
  let t := (List.range 6).foldl (fun t z => t.modVox (fun v => v.zoneRead z (lget zones z (2 ^ 48)) now)) t
  .next ((List.range 6).foldl (fun t z => t.judgeZone z s.cur.x) t)

/-! ### Quota intervals and the chronometer (R151 to R154, R470, R471, R473) -/

/-- The interval's end for one VD (R471, R476): totals logged, charges back to zero, a changed quota in effect. -/
def State.endInterval (s : State) (vd : Nat) : State :=
  let d := s.vd vd
  if !d.present then s
  else
    let t := if d.exhausted && d.resident then s.log vd 0x03 [BitVec.ofNat 64 (d.charge - d.q.bricks)] else s
    let t := { t with draws := t.draws + 1 }.log vd 0x02
      [BitVec.ofNat 64 d.charge, Config.freeWord s.draws, BitVec.ofNat 64 d.peerBytes, BitVec.ofNat 64 d.stolenBw]
    let t := t.modVd vd (fun d => { d with charge := 0, exhausted := false, peerBytes := 0 })
    match d.nextQ with
    | some q => (t.modVd vd (fun d => { d with q := q, nextQ := none })).log vd 0x0D []
    | none => t

/-- The partitions that exist. -/
def State.parts (s : State) : List Nat := (List.range 24).filter (fun p => s.partOf p = p)

/-- QUOTA_INTERVAL (R153, R471, R476). -/
def execQuotaInterval (s : State) : Out :=
  let t := (s.vds.map (fun (x : Nat × Vd) => x.1)).foldl (fun t vd => t.endInterval vd) s
  let t := t.modVox (fun v => { v with intervalAt := s.chron.toNat })
  .next (t.parts.foldl (fun t p => (t.soon .placeLaunch p 0 0).soon .residencyRotation p 0 0) t)

/-- Whether a VD is non-resident, from the first tide injection of its switch (R154, R473). -/
def Vd.away (d : Vd) : Bool := !d.resident || (d.switching && d.injected)

/-- Whether a VD that is away has a saved region, one that is being saved, or a launch that would fit (R152). -/
def State.hasKept (s : State) (vd : Nat) (d : Vd) : Bool :=
  !d.saves.isEmpty || s.regions.any (fun r => r.vd = vd)
    || d.graphs.any (fun g => g.started && g.state = .placing && (s.fitMask vd g.bands g.mask).isSome)

/-- Which of its counters a VD advances in a nanosecond (R473). -/
inductive TimeRow where
  | held | guest | stolen
  deriving DecidableEq, Repr

/-- The row of R473 that a VD matches: the first that holds. -/
def State.timeRow (s : State) (vd : Nat) (d : Vd) : TimeRow :=
  if !d.present || d.migrating then .held
  else if s.snaps.any (fun o => o.restore && o.vd = vd) then .stolen
  else if d.away then (if d.exhausted || !s.hasKept vd d then .held else .stolen)
  else .guest

/-- The brick-cycles of a VD's regions in a cycle (R151). -/
def State.bricks (s : State) (vd : Nat) : Nat :=
  ((s.regions.filter (fun r => r.vd = vd)).map (fun r => 256 * 1024 * r.bands)).sum

/-- The charge of a cycle (R151): from the placement of a region to the release of its bands. -/
def State.chargeCycle (s : State) : State :=
  { s with vds := s.vds.map (fun x =>
      (x.1, { x.2 with charge := x.2.charge + s.bricks x.1, periodCharge := x.2.periodCharge + s.bricks x.1 })) }

/-- A VD after a nanosecond: its time, and the runnable wait of its launches (R152, R473). -/
def State.tickVd (s : State) (vd : Nat) (d : Vd) : Vd :=
  let row := s.timeRow vd d
  { d with
    guest := if row = .guest then d.guest + 1 else d.guest,
    stolen := if row = .stolen then d.stolen + 1 else d.stolen,
    graphs := d.graphs.map (fun g =>
      if g.started && g.state = .placing && d.mayPlace && (s.fitMask vd g.bands g.mask).isSome then { g with waited := g.waited + 1 }
      else g) }

/-- What a nanosecond makes due for a VD (R153, R477). -/
def State.dueVd (s : State) (vd : Nat) : State :=
  let d := s.vd vd
  let t := if d.present && !d.exhausted && d.q.bricks ≠ 0 && d.charge ≥ d.q.bricks then s.soon .quotaExhausted vd 0 0 else s
  if s.batchDue d then t.soon .logBatchClose vd 0 0 else t

/-- Whether a region has been still for the whole watchdog interval (R486). -/
def State.stalled (s : State) (r : Region) : Bool :=
  s.vox.watchdog ≠ 0 && !s.isFrozen r && r.seen + 1000 * s.vox.watchdog ≤ s.chron.toNat

/-- CHRONOMETER_TICK (R152 to R154, R470, R471, R473, R486): a nanosecond. -/
def execChronometerTick (s : State) : Out :=
  let vds := s.vds.map (fun x => (x.1, s.tickVd x.1 x.2))
  let regions := s.regions.map (fun r => if s.isFrozen r then { r with seen := s.chron.toNat } else r)
  let t := { s with chron := s.chron + 1, vds := vds, regions := regions }
  let now : Nat := t.chron.toNat
  let t := (t.vds.map (fun (x : Nat × Vd) => x.1)).foldl (fun t vd => t.dueVd vd) t
  let t := if now % 50000 = 0 then t.soon .sharingPeriod 0 0 0 else t
  let t := if now % 1000000 = 0 then t.parts.foldl (fun t p => t.soon .residencyRotation p 1 0) t else t
  let t := if t.vox.intervalAt + 1000 * t.vox.interval ≤ now then t.soon .quotaInterval 0 0 0 else t
  .next ((t.regions.filter (fun r => t.stalled r)).foldl (fun t r => t.soon .regionStall r.lead 0 0) t)

/-! ### Watchdog, quarantine, fatal errors (R472, R486, R488 to R490) -/

/-- REGION_STALL of the region with lead pilot `x` (R486): event 0x0030, once for each stall. -/
def execRegionStall (s : State) : Out :=
  match s.region s.cur.x with
  | some r =>
    if s.stalled r then
      .next ((s.modRegion r.lead (fun q => { q with seen := 2 ^ 64 })).raise 0 0x0030 r.vd [BitVec.ofNat 64 r.tagInc])
    else .next s
  | none => .next s

/-- QUARANTINE of VD `x` with cause `y` (R472). -/
def execQuarantine (s : State) : Out := .next (s.quarantine s.cur.x s.cur.y)

/-- HEARTBEAT_GAP (R490): fatal. -/
def execHeartbeatGap (s : State) : Out := .next (s.soon .fatal 3 0 0)

/-- Every region frozen at once (R400, R488): one that is being saved or restored stays where it is. -/
def State.freezeAll (s : State) : State :=
  let old := s.snaps.map (fun o => { o with gated := true })
  let new := (s.regions.filter (fun r => (s.snapOf r).isNone)).map (fun r =>
    { SnapOp.start .helm r s.cycle with freeze := true, save := false, gated := true })
  { s with snaps := old ++ new }

/-- Events in the order in which they are written, with fuel. -/
def sortEvents : List Event → Nat → List Event
  | _, 0 => []
  | l, n + 1 =>
    match pickEvent l with
    | some (e, r) => e :: sortEvents r n
    | none => []

/-- The last 1,024 events as records (R489). -/
def State.lastEvents (s : State) : List Byte :=
  let l := s.vox.written ++ sortEvents s.vox.events s.vox.events.length
  let first := s.vox.evSeq - s.vox.written.length
  let k := l.length - 1024
  (((l.zipIdx).drop k).map (fun x => x.1.bytes (first + x.2))).flatten

/-- Regions by VD, then by incarnation (R489). -/
def State.scanOrder (s : State) : List Region :=
  (List.range 96).flatMap (fun v => (s.regions.filter (fun r => r.vd = v)).foldl (fun (acc : List Region) r =>
    acc.takeWhile (fun q => q.inc < r.inc) ++ [r] ++ acc.dropWhile (fun q => q.inc < r.inc)) [])

/-- The scan state of a frozen region: what a save record of it would hold, byte for byte (R400, R404, R489; DEDUCED, log 10). -/
def State.scanState (s : State) (r : Region) : List Byte :=
  let k := s.record r ((s.snapOf r).getD (SnapOp.start .helm r s.cycle))
  (List.range (recordSize k.bands)).map (partByte (k.parts r.vd))

/-- The entry of a region in the dump (R489): its scan state sealed to its VD's dump key, or incarnation and size alone where there is no
key or no room. -/
def State.scanEntry (s : State) (r : Region) (key room : Nat) : List Byte :=
  let bare := Config.listScan r.inc (recordSize r.bands)
  match (s.vd r.vd).dumpKey with
  | none => bare
  | some m =>
    let x := Config.sealScan m (Config.freeKey key) (s.scanState r)
    if x.length ≤ room then x else bare

/-- The entries of regions in their order, the fresh keys drawn from a number on, in the room left (R489). -/
def State.scanEntries (s : State) : List Region → Nat → Nat → List Byte
  | [], _, _ => []
  | r :: rs, key, room =>
    let x := s.scanEntry r key room
    x ++ s.scanEntries rs (key + 1) (room - x.length)

/-- The dump (R489), as far as it fits in the area. -/
def State.writeDump (s : State) (cause : Nat) : State :=
  match s.vox.dump with
  | none => s
  | some (a, n) =>
    let head := toLe 4 0x504D5856 ++ (List.range 4092).map (fun i => Config.dumpHeader cause s.chron.toNat s.vox.fw.version i)
    let l := head ++ s.summary ++ s.lastEvents
    let rs := s.scanOrder
    let t := { s with draws := s.draws + rs.length }
    (t.toHost a ((l ++ s.scanEntries rs s.draws (n - l.length)).take n)).modVox (fun v => { v with dumped := true })

/-- FATAL with cause `x` (R488, R489): the Helm stops, every region freezes, event 0x00FF, the dump, `DEVSTATE` 3, vector 2. Causes are
the model's numbers: 0 an uncorrectable word in the key store, the roots or Voxkan's memory, 1 a failed entropy test, 2 heat, 3 the
heartbeat, 4 a stack's metadata array. -/
def execFatal (s : State) : Out :=
  if s.vox.devstate = 3 then .next s
  else
    let t := s.freezeAll.raise 0 0x00FF 255 [Config.fatalCause s.cur.x]
    .next (((t.writeDump s.cur.x).modVox (fun v => { v with devstate := 3 })).msi 0 2)

end Sys2Proof.Machine
end

