-- ==== Sys2Proof/Machine/CycleEnd.lean ====
section
/-!
DEFINITION. The end of a cycle: which elements still have their turn in it, write-backs that arrive, what the region controller judges
on the counts, changes of hot flags and router sets, rewrites whose time has run out (R25, R34, R35, R198, R200, R202, R205, R218,
R240).
-/
namespace Sys2Proof.Machine
open Sys2Proof

/-- The elements whose cycle this is and that have not had it (R25), in element order. -/
def State.dueElems (s : State) : List Nat := s.regions.flatMap (fun r => r.elems.filter (fun e => s.elemCycle r e))

/-! ### Write-backs (R35, R218, R232, R240) -/

/-- A write-back put in its place among those of the cycle: element order, and firing order within an element (R240). -/
def wbInsert (w : WbArrival) : List WbArrival → List WbArrival
  | [] => [w]
  | x :: l => if w.elem < x.elem then w :: x :: l else x :: wbInsert w l

/-- A write-back arrives: one for a register already written or outside the mask is fault 0x0003, a poisoned one 0x0006 (R35, R218). -/
def Block.arrive (b : Block) (w : WbArrival) : Block × List FaultEv :=
  let f : Nat → List FaultEv := fun c =>
    [{ cause := c, elem := none, ctx := 0, slot := 0, bank := 0, detail := BitVec.ofNat 64 w.reg }]
  if !bit b.img.wbMask w.reg || (tfind b.wbs w.reg).isSome then (b, f 3)
  else ({ b with wbs := tset b.wbs w.reg w.val }, if w.poison then f 6 else [])

/-- The write-backs of a cycle arrive in order (R240). -/
def Block.arriveAll (b : Block) : Block × List FaultEv :=
  (b.wbIn.foldl (fun l w => wbInsert w l) []).foldl (fun p w =>
    let q := p.1.arrive w
    (q.1, p.2 ++ q.2)) ({ b with wbIn := [] }, [])

/-- The write-backs of the blocks of a region arrive at its lead pilot. -/
def State.arrivals (s : State) (r : Region) : State :=
  [r.cur, r.succ, r.prev].foldl (fun t o =>
    match o with
    | none => t
    | some b =>
      let p := b.arriveAll
      p.2.foldl (fun u f => u.fault r.lead f) (t.modRegion r.lead (fun q => q.modBlock b.inc (fun _ => p.1)))) s

/-! ### What the region controller judges (R34, R35, R240) -/

/-- Block fault 0x0002 (R35). -/
def sterileFault : FaultEv := { cause := 2, elem := none, ctx := 0, slot := 0, bank := 0, detail := 0 }

/-- The step that acts on the faults of a region. -/
def Region.faultStep (r : Region) : Instr := if r.blockFault.isSome then .blockFault else .elementFault

/-- Whether a block of a region has ended all its sinks with no branch token (R35): the running one before its conditions have held, or
the successor of a swap in progress. -/
def Region.sterile (r : Region) : Bool :=
  (!r.ending && r.cur.any Block.sterile) || (r.shadow = .swapping && r.succ.any Block.sterile)

/-- The conditions of a region judged at the end of a cycle: a fault wins (R240); every sink has ended with no branch token (R35); the
conditions of R34 hold, and the elements stop firing unless the block is left by a swap (R334). -/
def State.judge (s : State) (r : Region) : State :=
  if r.running ≠ .running || s.gated r then s
  else if !r.faults.isEmpty && !(r.ending && r.shadow ≠ .swapping) then s.soon r.faultStep r.lead 0 0
  else if r.sterile then (s.fault r.lead sterileFault).soon .blockFault r.lead 0 0
  else if r.ending then s.soon .commit r.lead 0 0
  else if r.committing.isSome then
    (s.modRegion r.lead (fun q => { q with ending := true, stopped := decide (q.shadow ≠ .swapping) })).soon .commit r.lead 0 0
  else s

/-- A rewrite whose latest cycle comes next is applied then (R202). -/
def State.rewriteDue (s : State) (r : Region) : State :=
  match r.rewrites with
  | w :: _ => if w.issued + 16 + 2 * w.recs.length ≤ s.cycle + 1 then s.soon .switchRewriteApply r.lead 0 0 else s
  | [] => s

/-- Column ends that may pass to the successor do so in the cycle that begins (R333). -/
def State.endsDue (s : State) (r : Region) : State :=
  match r.endTarget with
  | some inc => (s.edges.filter (fun x => r.hasEnd x.1 && x.2.endInc != inc && s.endPasses r x.1 inc)).foldl
      (fun t x => t.soon .columnEndPasses r.lead x.1 0) s
  | none => s

/-- A region at the end of a cycle. -/
def State.regionEnd (s : State) (r : Region) : State :=
  let t := ((s.rewriteDue r).endsDue r).arrivals r
  match t.region r.lead with
  | some q => t.judge q
  | none => t

/-! ### Hot flags, router sets, parity (R198, R200, R205) -/

/-- A change of a row domain's hot flag takes effect (R198): a cleared flag raises every ready that was held low; an event, and an entry
in the log of every VD of the domain. -/
def State.hotChange (s : State) (d : Nat) : State :=
  let v := s.hotNext.getLsbD d
  let b : BitVec 96 := BitVec.ofNat 96 (2 ^ d)
  if s.hot.getLsbD d = v then s
  else
    let t := { s with hot := s.hot ^^^ b }
    let t := if v then t
      else { t with elems := t.elems.map (fun (x : Nat × Elem) =>
        if domainOf x.1 = d then (x.1, { x.2 with router := { x.2.router with lowUntil := Vector.replicate 4 0 } }) else x) }
    (t.raise 0 0x0031 255 [BitVec.ofNat 64 d, BitVec.ofNat 64 (b2n v)]).logDomain d 0x06 (b2n v)

/-- Whether a router changes to its element's set in the cycle that begins (R200). -/
def State.changesSet (s : State) (e : Nat) : Bool :=
  (s.elem e).core.active != (s.elem e).router.rset && s.routes e && (s.elem e).mayChange (s.swWords e)

/-- The switch registers of an element that are used with a wrong parity bit (R205). -/
def State.badRegisters (s : State) (e : Nat) : List Nat :=
  if s.routes e then (List.range 16).filter (fun z => s.badParity e true z) else []

/-- The end of a cycle (R34, R35, R198, R200, R202, R205, R240). -/
def State.cycleEnd (s : State) : State :=
  let t := s.regions.foldl (fun t r => t.regionEnd r) s
  let t := t.elems.foldl (fun u x => if t.changesSet x.1 then u.soon .routerSetChange x.1 0 0 else u) t
  let t := t.elems.foldl (fun u x =>
    match t.badRegisters x.1 with
    | z :: _ => u.soon .configurationParity x.1 1 z
    | [] => u) t
  if t.hot = t.hotNext then t else (List.range 96).foldl State.hotChange t

end Sys2Proof.Machine
end

