-- ==== Sys2Proof/Machine/Dispatch.lean ====
section
/-!
DEFINITION. One arm per constructor of Instr, each a call of its meaning.
-/
namespace Sys2Proof.Machine
open Sys2Proof

def exec (i : Instr) (s : State) : Host.Outcome State Fault Refusal :=
  match i with
  | .add d a b => Sys2Proof.Machine.execAdd d a b s
  | .sub d a b => Sys2Proof.Machine.execSub d a b s
  | .and d a b => Sys2Proof.Machine.execAnd d a b s
  | .or d a b => Sys2Proof.Machine.execOr d a b s
  | .xor d a b => Sys2Proof.Machine.execXor d a b s
  | .shl d a b => Sys2Proof.Machine.execShl d a b s
  | .shr d a b => Sys2Proof.Machine.execShr d a b s
  | .sra d a b => Sys2Proof.Machine.execSra d a b s
  | .mul d a b => Sys2Proof.Machine.execMul d a b s
  | .mulh d a b => Sys2Proof.Machine.execMulh d a b s
  | .divn d a b => Sys2Proof.Machine.execDivn d a b s
  | .rem d a b => Sys2Proof.Machine.execRem d a b s
  | .remn d a b => Sys2Proof.Machine.execRemn d a b s
  | .slt d a b => Sys2Proof.Machine.execSlt d a b s
  | .div d a b => Sys2Proof.Machine.execDiv d a b s
  | .sltn d a b => Sys2Proof.Machine.execSltn d a b s
  | .min d a b => Sys2Proof.Machine.execMin d a b s
  | .max d a b => Sys2Proof.Machine.execMax d a b s
  | .clz d a => Sys2Proof.Machine.execClz d a s
  | .popc d a => Sys2Proof.Machine.execPopc d a s
  | .addi d a imm => Sys2Proof.Machine.execAddi d a imm s
  | .andi d a imm => Sys2Proof.Machine.execAndi d a imm s
  | .ori d a imm => Sys2Proof.Machine.execOri d a imm s
  | .xori d a imm => Sys2Proof.Machine.execXori d a imm s
  | .shli d a c => Sys2Proof.Machine.execShli d a c s
  | .shri d a c => Sys2Proof.Machine.execShri d a c s
  | .srai d a c => Sys2Proof.Machine.execSrai d a c s
  | .slti d a imm => Sys2Proof.Machine.execSlti d a imm s
  | .lui d imm => Sys2Proof.Machine.execLui d imm s
  | .ldN8 d a imm => Sys2Proof.Machine.execLdN8 d a imm s
  | .ldN16 d a imm => Sys2Proof.Machine.execLdN16 d a imm s
  | .ldN32 d a imm => Sys2Proof.Machine.execLdN32 d a imm s
  | .ld d a imm => Sys2Proof.Machine.execLd d a imm s
  | .ldS8 d a imm => Sys2Proof.Machine.execLdS8 d a imm s
  | .ldS16 d a imm => Sys2Proof.Machine.execLdS16 d a imm s
  | .ldS32 d a imm => Sys2Proof.Machine.execLdS32 d a imm s
  | .ldacq d a imm => Sys2Proof.Machine.execLdacq d a imm s
  | .stN8 src b imm => Sys2Proof.Machine.execStN8 src b imm s
  | .stN16 src b imm => Sys2Proof.Machine.execStN16 src b imm s
  | .stN32 src b imm => Sys2Proof.Machine.execStN32 src b imm s
  | .st src b imm => Sys2Proof.Machine.execSt src b imm s
  | .strel src b imm => Sys2Proof.Machine.execStrel src b imm s
  | .beq a b off => Sys2Proof.Machine.execBeq a b off s
  | .bne a b off => Sys2Proof.Machine.execBne a b off s
  | .blt a b off => Sys2Proof.Machine.execBlt a b off s
  | .bge a b off => Sys2Proof.Machine.execBge a b off s
  | .bltn a b off => Sys2Proof.Machine.execBltn a b off s
  | .bgen a b off => Sys2Proof.Machine.execBgen a b off s
  | .jal off => Sys2Proof.Machine.execJal off s
  | .jalr d a imm => Sys2Proof.Machine.execJalr d a imm s
  | .blkld a mask => Sys2Proof.Machine.execBlkld a mask s
  | .blkgo mask => Sys2Proof.Machine.execBlkgo mask s
  | .blkarm mask => Sys2Proof.Machine.execBlkarm mask s
  | .blkwait d mask => Sys2Proof.Machine.execBlkwait d mask s
  | .resteer d a mask => Sys2Proof.Machine.execResteer d a mask s
  | .cfgwrSw a mask => Sys2Proof.Machine.execCfgwrSw a mask s
  | .cfgwrConst a mask => Sys2Proof.Machine.execCfgwrConst a mask s
  | .cfgwrDiv a mask => Sys2Proof.Machine.execCfgwrDiv a mask s
  | .cfgwrLoop a mask => Sys2Proof.Machine.execCfgwrLoop a mask s
  | .wbrd d mask n => Sys2Proof.Machine.execWbrd d mask n s
  | .injectData a mask port tag => Sys2Proof.Machine.execInjectData a mask port tag s
  | .injectNull a mask port tag => Sys2Proof.Machine.execInjectNull a mask port tag s
  | .injectMark a mask port tag => Sys2Proof.Machine.execInjectMark a mask port tag s
  | .fence src => Sys2Proof.Machine.execFence src s
  | .waitw d a b c => Sys2Proof.Machine.execWaitw d a b c s
  | .atom d a b ord f => Sys2Proof.Machine.execAtom d a b ord f s
  | .cvjoin a => Sys2Proof.Machine.execCvjoin a s
  | .cvleave a => Sys2Proof.Machine.execCvleave a s
  | .cvarrive a => Sys2Proof.Machine.execCvarrive a s
  | .cvwait d a => Sys2Proof.Machine.execCvwait d a s
  | .winacq a => Sys2Proof.Machine.execWinacq a s
  | .winrel a => Sys2Proof.Machine.execWinrel a s
  | .cpy d a b => Sys2Proof.Machine.execCpy d a b s
  | .trap imm => Sys2Proof.Machine.execTrap imm s
  | .ctlrd d r => Sys2Proof.Machine.execCtlrd d r s
  | .ctlwr a r => Sys2Proof.Machine.execCtlwr a r s
  | .chron d => Sys2Proof.Machine.execChron d s
  | .rgnctlEnd a => Sys2Proof.Machine.execRgnctlEnd a s
  | .sfctlPop a => Sys2Proof.Machine.execSfctlPop a s
  | .sfresume a => Sys2Proof.Machine.execSfresume a s
  | .vecAdd op => Sys2Proof.Machine.execVecAdd op s
  | .vecSub op => Sys2Proof.Machine.execVecSub op s
  | .vecMul op => Sys2Proof.Machine.execVecMul op s
  | .vecMulh op => Sys2Proof.Machine.execVecMulh op s
  | .vecMad op => Sys2Proof.Machine.execVecMad op s
  | .vecAbs op => Sys2Proof.Machine.execVecAbs op s
  | .vecNeg op => Sys2Proof.Machine.execVecNeg op s
  | .vecMin op => Sys2Proof.Machine.execVecMin op s
  | .vecMax op => Sys2Proof.Machine.execVecMax op s
  | .vecAnd op => Sys2Proof.Machine.execVecAnd op s
  | .vecOr op => Sys2Proof.Machine.execVecOr op s
  | .vecXor op => Sys2Proof.Machine.execVecXor op s
  | .vecNot op => Sys2Proof.Machine.execVecNot op s
  | .vecShl op => Sys2Proof.Machine.execVecShl op s
  | .vecShr op => Sys2Proof.Machine.execVecShr op s
  | .vecSra op => Sys2Proof.Machine.execVecSra op s
  | .vecRot op => Sys2Proof.Machine.execVecRot op s
  | .vecClz op => Sys2Proof.Machine.execVecClz op s
  | .vecPopc op => Sys2Proof.Machine.execVecPopc op s
  | .vecAdds op => Sys2Proof.Machine.execVecAdds op s
  | .vecSubs op => Sys2Proof.Machine.execVecSubs op s
  | .vecAvg op => Sys2Proof.Machine.execVecAvg op s
  | .vecFadd op => Sys2Proof.Machine.execVecFadd op s
  | .vecFsub op => Sys2Proof.Machine.execVecFsub op s
  | .vecFmul op => Sys2Proof.Machine.execVecFmul op s
  | .vecFma op => Sys2Proof.Machine.execVecFma op s
  | .vecFmin op => Sys2Proof.Machine.execVecFmin op s
  | .vecFmax op => Sys2Proof.Machine.execVecFmax op s
  | .vecFabs op => Sys2Proof.Machine.execVecFabs op s
  | .vecFneg op => Sys2Proof.Machine.execVecFneg op s
  | .vecFcps op => Sys2Proof.Machine.execVecFcps op s
  | .vecCmp op => Sys2Proof.Machine.execVecCmp op s
  | .vecFcmp op => Sys2Proof.Machine.execVecFcmp op s
  | .vecSel op => Sys2Proof.Machine.execVecSel op s
  | .vecClass op => Sys2Proof.Machine.execVecClass op s
  | .vecCvt op => Sys2Proof.Machine.execVecCvt op s
  | .vecCvtsr op => Sys2Proof.Machine.execVecCvtsr op s
  | .vecPack op => Sys2Proof.Machine.execVecPack op s
  | .vecUnpack op => Sys2Proof.Machine.execVecUnpack op s
  | .vecExp2 op => Sys2Proof.Machine.execVecExp2 op s
  | .vecLog2 op => Sys2Proof.Machine.execVecLog2 op s
  | .vecRcp op => Sys2Proof.Machine.execVecRcp op s
  | .vecRsq op => Sys2Proof.Machine.execVecRsq op s
  | .vecSqrt op => Sys2Proof.Machine.execVecSqrt op s
  | .vecSinpi op => Sys2Proof.Machine.execVecSinpi op s
  | .vecCospi op => Sys2Proof.Machine.execVecCospi op s
  | .vecLbcast op => Sys2Proof.Machine.execVecLbcast op s
  | .vecLrot op => Sys2Proof.Machine.execVecLrot op s
  | .vecLred op => Sys2Proof.Machine.execVecLred op s
  | .vecLscan op => Sys2Proof.Machine.execVecLscan op s
  | .vecLidx op => Sys2Proof.Machine.execVecLidx op s
  | .vecMov op => Sys2Proof.Machine.execVecMov op s
  | .vecMovRdflags op => Sys2Proof.Machine.execVecMovRdflags op s
  | .vecMovRcflags op => Sys2Proof.Machine.execVecMovRcflags op s
  | .vecMovWrflags op => Sys2Proof.Machine.execVecMovWrflags op s
  | .vecMovRdseed op => Sys2Proof.Machine.execVecMovRdseed op s
  | .vecMovWrseed op => Sys2Proof.Machine.execVecMovWrseed op s
  | .vecMovi op => Sys2Proof.Machine.execVecMovi op s
  | .vecLdc op => Sys2Proof.Machine.execVecLdc op s
  | .vecFscale op => Sys2Proof.Machine.execVecFscale op s
  | .vecFrexp op => Sys2Proof.Machine.execVecFrexp op s
  | .mac op => Sys2Proof.Machine.execMac op s
  | .dot op => Sys2Proof.Machine.execDot op s
  | .dots op => Sys2Proof.Machine.execDots op s
  | .dotx op => Sys2Proof.Machine.execDotx op s
  | .mma op => Sys2Proof.Machine.execMma op s
  | .wload op => Sys2Proof.Machine.execWload op s
  | .mulw op => Sys2Proof.Machine.execMulw op s
  | .mula op => Sys2Proof.Machine.execMula op s
  | .accrd op => Sys2Proof.Machine.execAccrd op s
  | .accclr op => Sys2Proof.Machine.execAccclr op s
  | .accset op => Sys2Proof.Machine.execAccset op s
  | .accadd op => Sys2Proof.Machine.execAccadd op s
  | .accmode op => Sys2Proof.Machine.execAccmode op s
  | .perm op => Sys2Proof.Machine.execPerm op s
  | .permld op => Sys2Proof.Machine.execPermld op s
  | .recstep op => Sys2Proof.Machine.execRecstep op s
  | .bgate op => Sys2Proof.Machine.execBgate op s
  | .nop op => Sys2Proof.Machine.execNop op s
  | .pset op => Sys2Proof.Machine.execPset op s
  | .plog op => Sys2Proof.Machine.execPlog op s
  | .send op => Sys2Proof.Machine.execSend op s
  | .deq op => Sys2Proof.Machine.execDeq op s
  | .tag op => Sys2Proof.Machine.execTag op s
  | .mfwd op => Sys2Proof.Machine.execMfwd op s
  | .mgen op => Sys2Proof.Machine.execMgen op s
  | .nullt op => Sys2Proof.Machine.execNullt op s
  | .loop op => Sys2Proof.Machine.execLoop op s
  | .ldec op => Sys2Proof.Machine.execLdec op s
  | .rep op => Sys2Proof.Machine.execRep op s
  | .lde op => Sys2Proof.Machine.execLde op s
  | .ste op => Sys2Proof.Machine.execSte op s
  | .ldp op => Sys2Proof.Machine.execLdp op s
  | .stp op => Sys2Proof.Machine.execStp op s
  | .cmde op => Sys2Proof.Machine.execCmde op s
  | .brtok op => Sys2Proof.Machine.execBrtok op s
  | .wbk op => Sys2Proof.Machine.execWbk op s
  | .movc op => Sys2Proof.Machine.execMovc op s
  | .yield op => Sys2Proof.Machine.execYield op s
  | .faulte op => Sys2Proof.Machine.execFaulte op s
  | .engineCommandSend opc op => Sys2Proof.Machine.execEngineCommandSend opc op s
  | .walkCompletes q => Sys2Proof.Machine.execWalkCompletes q s
  | .streamFault q => Sys2Proof.Machine.execStreamFault q s
  | .windowStoreApply q => Sys2Proof.Machine.execWindowStoreApply q s
  | .hwatchWrite v => Sys2Proof.Machine.execHwatchWrite v s
  | .hinvctl v => Sys2Proof.Machine.execHinvctl v s
  | .registerWrite v => Sys2Proof.Machine.execRegisterWrite v s
  | .dataLineWrite data mask => Sys2Proof.Machine.execDataLineWrite data mask s
  | .hostMemWrite data mask => Sys2Proof.Machine.execHostMemWrite data mask s
  | .peerSend f => Sys2Proof.Machine.execPeerSend f s
  | .peerCompletion f => Sys2Proof.Machine.execPeerCompletion f s
  | .peerRetire f => Sys2Proof.Machine.execPeerRetire f s
  | .convoyFlit f => Sys2Proof.Machine.execConvoyFlit f s
  | .linkRetry f => Sys2Proof.Machine.execLinkRetry f s
  | .mbctlGo v => Sys2Proof.Machine.execMbctlGo v s
  | .evconsWrite v => Sys2Proof.Machine.execEvconsWrite v s
  | .sensorRead temps => Sys2Proof.Machine.execSensorRead temps s
  | .coolantCycle zones => Sys2Proof.Machine.execCoolantCycle zones s
  | .phaseReleaseRecord f => Sys2Proof.Machine.execPhaseReleaseRecord f s
  | .eret => Sys2Proof.Machine.execEret s
  | .park => Sys2Proof.Machine.execPark s
  | .asyncTrap => Sys2Proof.Machine.execAsyncTrap s
  | .blockLoadEnds => Sys2Proof.Machine.execBlockLoadEnds s
  | .groupAdderStep => Sys2Proof.Machine.execGroupAdderStep s
  | .brickResultCompletes => Sys2Proof.Machine.execBrickResultCompletes s
  | .yieldClearTimeout => Sys2Proof.Machine.execYieldClearTimeout s
  | .outboundTokenClaim => Sys2Proof.Machine.execOutboundTokenClaim s
  | .inboundTokenSend => Sys2Proof.Machine.execInboundTokenSend s
  | .edgeRequest => Sys2Proof.Machine.execEdgeRequest s
  | .xsplit => Sys2Proof.Machine.execXsplit s
  | .xjoin => Sys2Proof.Machine.execXjoin s
  | .xscale => Sys2Proof.Machine.execXscale s
  | .nwatch => Sys2Proof.Machine.execNwatch s
  | .nread => Sys2Proof.Machine.execNread s
  | .nclr => Sys2Proof.Machine.execNclr s
  | .cvtin => Sys2Proof.Machine.execCvtin s
  | .cvtout => Sys2Proof.Machine.execCvtout s
  | .transformTokenTaken => Sys2Proof.Machine.execTransformTokenTaken s
  | .normWatchRound => Sys2Proof.Machine.execNormWatchRound s
  | .sadv => Sys2Proof.Machine.execSadv s
  | .sswap => Sys2Proof.Machine.execSswap s
  | .scopy => Sys2Proof.Machine.execScopy s
  | .spref => Sys2Proof.Machine.execSpref s
  | .sflush => Sys2Proof.Machine.execSflush s
  | .szero => Sys2Proof.Machine.execSzero s
  | .sgath => Sys2Proof.Machine.execSgath s
  | .sscat => Sys2Proof.Machine.execSscat s
  | .streamCommandResponse => Sys2Proof.Machine.execStreamCommandResponse s
  | .bindingIteration => Sys2Proof.Machine.execBindingIteration s
  | .bufferHandOver => Sys2Proof.Machine.execBufferHandOver s
  | .storeBindingEnd => Sys2Proof.Machine.execStoreBindingEnd s
  | .scrubPass => Sys2Proof.Machine.execScrubPass s
  | .storageClear => Sys2Proof.Machine.execStorageClear s
  | .aadd => Sys2Proof.Machine.execAadd s
  | .afadd => Sys2Proof.Machine.execAfadd s
  | .amin => Sys2Proof.Machine.execAmin s
  | .amax => Sys2Proof.Machine.execAmax s
  | .aand => Sys2Proof.Machine.execAand s
  | .aor => Sys2Proof.Machine.execAor s
  | .axor => Sys2Proof.Machine.execAxor s
  | .aswap => Sys2Proof.Machine.execAswap s
  | .acas => Sys2Proof.Machine.execAcas s
  | .ainc => Sys2Proof.Machine.execAinc s
  | .supd => Sys2Proof.Machine.execSupd s
  | .eflush => Sys2Proof.Machine.execEflush s
  | .suppressionRetire => Sys2Proof.Machine.execSuppressionRetire s
  | .convoyPhaseComplete => Sys2Proof.Machine.execConvoyPhaseComplete s
  | .sprg => Sys2Proof.Machine.execSprg s
  | .sprgq => Sys2Proof.Machine.execSprgq s
  | .springBlockDecoded => Sys2Proof.Machine.execSpringBlockDecoded s
  | .springResponse => Sys2Proof.Machine.execSpringResponse s
  | .tokenTaken => Sys2Proof.Machine.execTokenTaken s
  | .routeForward => Sys2Proof.Machine.execRouteForward s
  | .delayNodeOffer => Sys2Proof.Machine.execDelayNodeOffer s
  | .channelNodeDeliver => Sys2Proof.Machine.execChannelNodeDeliver s
  | .dieLinkFailure => Sys2Proof.Machine.execDieLinkFailure s
  | .readyDelayCount => Sys2Proof.Machine.execReadyDelayCount s
  | .configurationParity => Sys2Proof.Machine.execConfigurationParity s
  | .elementSwap => Sys2Proof.Machine.execElementSwap s
  | .routerSetChange => Sys2Proof.Machine.execRouterSetChange s
  | .columnEndPasses => Sys2Proof.Machine.execColumnEndPasses s
  | .switchRewriteApply => Sys2Proof.Machine.execSwitchRewriteApply s
  | .commit => Sys2Proof.Machine.execCommit s
  | .blockFault => Sys2Proof.Machine.execBlockFault s
  | .elementFault => Sys2Proof.Machine.execElementFault s
  | .elementBlocked => Sys2Proof.Machine.execElementBlocked s
  | .launchWord => Sys2Proof.Machine.execLaunchWord s
  | .placeLaunch => Sys2Proof.Machine.execPlaceLaunch s
  | .invalidationComplete => Sys2Proof.Machine.execInvalidationComplete s
  | .nodeBlock => Sys2Proof.Machine.execNodeBlock s
  | .nodePilot => Sys2Proof.Machine.execNodePilot s
  | .nodeCopy => Sys2Proof.Machine.execNodeCopy s
  | .nodeCond => Sys2Proof.Machine.execNodeCond s
  | .nodeLoop => Sys2Proof.Machine.execNodeLoop s
  | .nodeSwitch => Sys2Proof.Machine.execNodeSwitch s
  | .nodeWaitw => Sys2Proof.Machine.execNodeWaitw s
  | .nodeWaitwRecheck => Sys2Proof.Machine.execNodeWaitwRecheck s
  | .nodeWaitwTimeout => Sys2Proof.Machine.execNodeWaitwTimeout s
  | .nodeSignal => Sys2Proof.Machine.execNodeSignal s
  | .nodeHostnote => Sys2Proof.Machine.execNodeHostnote s
  | .nodePreemptTide => Sys2Proof.Machine.execNodePreemptTide s
  | .nodePreemptFreeze => Sys2Proof.Machine.execNodePreemptFreeze s
  | .nodePreemptRestore => Sys2Proof.Machine.execNodePreemptRestore s
  | .nodePreemptDiscard => Sys2Proof.Machine.execNodePreemptDiscard s
  | .nodeEnd => Sys2Proof.Machine.execNodeEnd s
  | .winopen => Sys2Proof.Machine.execWinopen s
  | .winrekey => Sys2Proof.Machine.execWinrekey s
  | .winclose => Sys2Proof.Machine.execWinclose s
  | .sharingPeriod => Sys2Proof.Machine.execSharingPeriod s
  | .quotaExhausted => Sys2Proof.Machine.execQuotaExhausted s
  | .residencyRotation => Sys2Proof.Machine.execResidencyRotation s
  | .ctxsize => Sys2Proof.Machine.execCtxsize s
  | .tide => Sys2Proof.Machine.execTide s
  | .freeze => Sys2Proof.Machine.execFreeze s
  | .save => Sys2Proof.Machine.execSave s
  | .restore => Sys2Proof.Machine.execRestore s
  | .discard => Sys2Proof.Machine.execDiscard s
  | .tideMarkSnapshot => Sys2Proof.Machine.execTideMarkSnapshot s
  | .caughtToken => Sys2Proof.Machine.execCaughtToken s
  | .freezeGateCloses => Sys2Proof.Machine.execFreezeGateCloses s
  | .tideTimeout => Sys2Proof.Machine.execTideTimeout s
  | .dataLineRead => Sys2Proof.Machine.execDataLineRead s
  | .nodeWriteBack => Sys2Proof.Machine.execNodeWriteBack s
  | .hostMemRead => Sys2Proof.Machine.execHostMemRead s
  | .cxlCacheRequest => Sys2Proof.Machine.execCxlCacheRequest s
  | .retryTimeout => Sys2Proof.Machine.execRetryTimeout s
  | .burbexPortDown => Sys2Proof.Machine.execBurbexPortDown s
  | .flitSelect => Sys2Proof.Machine.execFlitSelect s
  | .slackUpdate => Sys2Proof.Machine.execSlackUpdate s
  | .reset => Sys2Proof.Machine.execReset s
  | .resync => Sys2Proof.Machine.execResync s
  | .attest => Sys2Proof.Machine.execAttest s
  | .fwstage => Sys2Proof.Machine.execFwstage s
  | .fwactivate => Sys2Proof.Machine.execFwactivate s
  | .vdcreate => Sys2Proof.Machine.execVdcreate s
  | .vddestroy => Sys2Proof.Machine.execVddestroy s
  | .vdquota => Sys2Proof.Machine.execVdquota s
  | .vdroot => Sys2Proof.Machine.execVdroot s
  | .framesGrant => Sys2Proof.Machine.execFramesGrant s
  | .framesRelease => Sys2Proof.Machine.execFramesRelease s
  | .hostrange => Sys2Proof.Machine.execHostrange s
  | .route => Sys2Proof.Machine.execRoute s
  | .recvrange => Sys2Proof.Machine.execRecvrange s
  | .peerconvoy => Sys2Proof.Machine.execPeerconvoy s
  | .vdresume => Sys2Proof.Machine.execVdresume s
  | .vdexport => Sys2Proof.Machine.execVdexport s
  | .vdimport => Sys2Proof.Machine.execVdimport s
  | .vddumpkey => Sys2Proof.Machine.execVddumpkey s
  | .partition => Sys2Proof.Machine.execPartition s
  | .slack => Sys2Proof.Machine.execSlack s
  | .logread => Sys2Proof.Machine.execLogread s
  | .eventring => Sys2Proof.Machine.execEventring s
  | .dumparea => Sys2Proof.Machine.execDumparea s
  | .watchdog => Sys2Proof.Machine.execWatchdog s
  | .power => Sys2Proof.Machine.execPower s
  | .powerSample => Sys2Proof.Machine.execPowerSample s
  | .quotaInterval => Sys2Proof.Machine.execQuotaInterval s
  | .logBatchClose => Sys2Proof.Machine.execLogBatchClose s
  | .eventDelivery => Sys2Proof.Machine.execEventDelivery s
  | .regionStall => Sys2Proof.Machine.execRegionStall s
  | .quarantine => Sys2Proof.Machine.execQuarantine s
  | .heartbeatGap => Sys2Proof.Machine.execHeartbeatGap s
  | .fatal => Sys2Proof.Machine.execFatal s
  | .pilotWaitwRecheck => Sys2Proof.Machine.execPilotWaitwRecheck s
  | .pilotLoadReturn => Sys2Proof.Machine.execPilotLoadReturn s
  | .burbexPortUp => Sys2Proof.Machine.execBurbexPortUp s
  | .backInvalidateResponse => Sys2Proof.Machine.execBackInvalidateResponse s
  | .cxlCacheCompletion => Sys2Proof.Machine.execCxlCacheCompletion s
  | .doeRequest => Sys2Proof.Machine.execDoeRequest s
  | .chronometerTick => Sys2Proof.Machine.execChronometerTick s

end Sys2Proof.Machine
end

