-- ==== Sys2Proof/Machine/Sched.lean ====
section
/-!
DEFINITION. Turns: a pilot fetches and issues, an element fires, a clock cycle passes, a step of the table happens, the outside
world acts; and which turn comes where nothing is due (R5, R25, R211, R314, R316, R317, R321, R325, R458, R490; log 1, log 11).
-/
namespace Sys2Proof.Machine
open Sys2Proof

/-! ### A pilot's turn (R314, R316, R317, R321, R325) -/

/-- The word at a pilot's program address (R314). -/
def State.fetchWord (s : State) (p : Nat) : Nat := s.readLe (chartCell p ((s.pilot p).pc.toNat % 65536)) 4

/-- The registers that a pilot word reads or writes, for the words that may issue while a load is in flight: the ALU group, the
immediate forms and the loads, by their major opcodes (R72 to R75, R316). Every other instruction could trap or act, and waits
(R317). -/
def lightRegs (w : Nat) : Option (List Reg) :=
  let m := w / 2 ^ 26 % 64
  let d : Reg := BitVec.ofNat 5 (w / 2 ^ 21)
  let a : Reg := BitVec.ofNat 5 (w / 2 ^ 16)
  if m = 0 then some [d, a, BitVec.ofNat 5 (w / 2 ^ 11)]
  else if m ≤ 9 || (0x10 ≤ m && m ≤ 0x17) then some [d, a]
  else none

/-- Whether an instruction may issue beside the loads in flight: it names no register that one of them writes, and none is an
acquire (R115, R316). -/
def Pilot.mayIssue (p : Pilot) (w : Nat) : Bool :=
  if p.pend.any PAcc.isLoad then
    !p.pend.any PAcc.isAcq &&
      (match lightRegs w with
       | some l => l.all (fun r => r = 0 || !p.pend.any (fun x => x.isLoad && x.reg = r))
       | none => false)
  else true

/-- Whether a pilot has only gone on to the next instruction: no trap has been taken. -/
def Pilot.wentOn (p q : Pilot) : Bool := q.pc = p.pc + 4 && q.pstatus = p.pstatus && q.run = .running

/-- Whether a word is a branch or a jump, which may lead to its own address (R74). -/
def jumps (w : Nat) : Bool := 0x20 ≤ w / 2 ^ 26 % 64 && w / 2 ^ 26 % 64 ≤ 0x27

/-- The state in which a pilot's instruction runs. -/
def State.atPilot (s : State) (p : Nat) : State := { s with cur := { s.cur with pilot := p } }

/-- An instruction of a pilot issued (R316, R317): its meaning, unless it must wait for a load; one that would trap beside a load in
flight waits. A pilot that has issued counts as activity of its region (R486). -/
def State.issueAt (s : State) (p w : Nat) (i : Instr) : Out :=
  let q := s.pilot p
  if q.mayIssue w then
    match exec i (s.atPilot p) with
    | .next t =>
      if q.pend.any PAcc.isLoad && !q.wentOn (t.pilot p) then .next s
      else if jumps w || t.pilot p != q then .next (t.touch p)
      else .next t
    | .fault f => .fault f
    | .refused r => .refused r
  else .next s

/-- A pilot's turn (R314, R317, R321, R325): an asynchronous trap where one is due, a fetch fault outside chart memory, a misaligned
address, an illegal word, or the instruction. A pilot that waits in `WAITW` reads again by its own step. -/
def State.turnPilot (s : State) (p : Nat) : Out :=
  let q := s.pilot p
  let trap : Out → Out := fun o => if q.pend.any PAcc.isLoad then .next s else o
  if !s.acts p || q.run != .running then .next s
  else if (s.asyncCause p).isSome then exec .asyncTrap { s with cur := { s.cur with x := p } }
  else if q.waitSince.isSome then .next s
  else if !isChart q.pc then trap ((s.atPilot p).trap 7 0 q.pc)
  else if q.pc.toNat % 4 ≠ 0 then trap ((s.atPilot p).trap 2 0 q.pc)
  else
    match decodePilot (s.fetchWord p) with
    | .ok i => s.issueAt p (s.fetchWord p) i
    | .error _ => trap (s.atPilot p).illegal

/-! ### An element's turn (R25, R211, R458) -/

/-- What a firing cycle of an element does: at most one slot fires, results complete (R211, R245); a slot whose parity is wrong is
found at its firing (R236). -/
def State.fireCycle (s : State) (e : Nat) : Out :=
  match s.firing e with
  | none => .next ((s.idleCycle e).endCycle e)
  | some (i, u) =>
    if u.badParity e false u.cur.slot then
      exec .configurationParity { u with cur := { u.cur with x := e, y := 0, z := u.cur.slot } }
    else
      match exec i u with
      | .next t => .next ((u.afterFiring t e (u.cur.ctx % 4) (u.cur.ctx / 4)).endCycle e)
      | .fault f => .fault f
      | .refused r => .refused r

/-- An element's turn (R25, R36, R211): once in a cycle of its row domain, in which its slack step may hold it back (R458), and which a
swap occupies. -/
def State.turnElement (s : State) (e : Nat) : Out :=
  match s.regionOfElem e with
  | none => .next s
  | some r =>
    if !s.elemCycle r e then .next s
    else
      let t := s.modElem e (fun m => { m with last := s.cycle + 1 })
      if s.slackHolds r e then .next (t.endCycle e)
      else if s.swapsNow r e then exec .elementSwap { s with cur := { s.cur with x := e } }
      else t.fireCycle e

/-! ### The clock and the outside world (R5, R179, R427, R490) -/

/-- Half a nanosecond passes (R5). Every element whose cycle this is has its turn in it, and then the cycle ends: what is judged at its
end follows (R34, R35, R151, R198, R200), and the second half brings the chronometer's tick. -/
def State.turnClock (s : State) : State :=
  let due := s.dueElems
  if !due.isEmpty then { s with agenda := due.map Turn.element ++ .clock :: s.agenda }
  else
    let t := s.cycleEnd.chargeCycle
    if t.half then { t with half := false }.soon .chronometerTick 0 0 0 else { t with half := true }

/-- The host stores to its own memory, within one line; a watched line is taken from the Helm (R136). -/
def State.hostStores (s : State) (a : Nat) (l : List Byte) : State :=
  if a % 64 + l.length ≤ 64 && a < 2 ^ 45 then (s.storeUnit (hostBase + a) l false).takeLines (hostBase + a) else s

/-- A word of a pilot that cannot be corrected (R472, R490): event 0x0023, the region frozen, the VD quarantined. -/
def State.badPilot (s : State) (p : Nat) : State :=
  match s.regionAt p with
  | none => s
  | some r =>
    let t := (s.raise (0x40 + p) 0x0023 r.vd [BitVec.ofNat 64 p]).modPilot p (fun q => { q with bad := true })
    ((t.beginFreeze .helm r false).getD t).soon .quarantine r.vd 3 0

/-- The parity bit of a configuration word changed (R205, R236): nothing happens before the word is used. -/
def State.damageWord (s : State) (e k : Nat) : State :=
  if 128 ≤ k then s
  else s.modElem e (fun m => { m with core := { m.core with parity := insertSorted m.core.parity k } })

/-- A parity error in an element's register or accumulator (R490): what is read from it is poisoned. -/
def State.badReg (s : State) (e c k : Nat) : State :=
  s.modElem e (fun m =>
    let x := vg m.core.ctx c (Ctx.activated 0)
    let y := if k < 8 then { x with v := vs x.v k { vg x.v k VReg.zero with poison := true } }
      else
        let a := vg x.acc ((k - 8) / 8) Acc.zero
        { x with acc := vs x.acc ((k - 8) / 8) { a with lanes := vs a.lanes (k % 8) { vg a.lanes (k % 8) LaneAcc.zero with ap := true } } }
    { m with core := { m.core with ctx := vs m.core.ctx c y, spoilt := insertSorted m.core.spoilt (128 * c + k) } })

/-- A unit of memory whose code cannot correct it (R179, R427, R490). -/
def State.badUnit (s : State) (a : Nat) : State :=
  if isHbm a then s.poisonUnit a
  else if isSram a then { s with upsets := tset s.upsets (unitOf a) 3 }
  else if 2 ^ 48 ≤ a && a < chartCell 48 0 then s.badPilot ((a - 2 ^ 48) / 65536)
  else s

/-- An error in one bank of a granule (R179). -/
def State.upset (s : State) (a k : Nat) : State :=
  if isSram a && k < 11 then { s with upsets := tset s.upsets (unitOf a) (tget s.upsets (unitOf a) 0 ||| 2 ^ k) } else s

/-- A node of level `k` fails for some frames: every read beneath it fails (R427). -/
def State.nodeFails (s : State) (k : Nat) (fs : List Nat) : State :=
  { s with cipher := { s.cipher with
    badCounters := fs.foldl insertSorted s.cipher.badCounters, levels := fs.foldl (fun t f => tset t f k) s.cipher.levels } }

/-- The frames of an owner, with their numbers: those of the owner entries, and those of a VD's save area (R401, R419). -/
def State.ownerFrames (s : State) (owner : Nat) : List (Nat × Nat) :=
  ((s.cipher.frames.filter (fun x => x.2.kind != 0 && x.2.ownerKey = owner)).map (fun x => (x.1, x.2.num)))
    ++ (if owner < 96 && (s.vd owner).present then
          (List.range ((s.vd owner).saveSize / 4096)).map (fun i => ((s.vd owner).saveBase / 4096 + i, 2 ^ 29 + i))
        else [])

/-- Whether a node's content and MAC verify in the place of a metadata node (R422, R427): under the owner's MAC key and the counters of
its parent. -/
def State.nodeVerifies (s : State) (owner level index : Nat) (c : Counter) (m : BitVec 64) : Bool :=
  match s.keysOf owner with
  | some (_, km) => m = s.nodeMac km owner level index c
  | none => false

/-- A tree node of levels 2 to 5 changed in a metadata array (R423, R427): where its MAC does not verify it fails for every frame beneath it
that is verified through it; a node in the cache, at or below it, is trusted (R426). -/
def State.damageNode (s : State) (owner level index : Nat) (c : Counter) (m : BitVec 64) : State :=
  if level < 2 || 5 < level || s.cipher.trusts (nodeKey owner level index) then s
  else if s.nodeVerifies owner level index c m then
    { s with cipher := { s.cipher with nodes := tset s.cipher.nodes (nodeKey owner level index) c } }
  else
    let through : Nat → Bool := fun n =>
      n / 64 ^ (level - 1) = index && (List.range level).all (fun j => !s.cipher.trusts (nodeKey owner (j + 1) (n / 64 ^ j)))
    s.nodeFails level (((s.ownerFrames owner).filter (fun x => through x.2)).map (fun x => x.1))

/-- A frame's counter line changed in the metadata array (R423, R427). One in the cache is trusted (R426). -/
def State.damageCounter (s : State) (fr : Nat) (c : Counter) (m : BitVec 64) : State :=
  let f := s.frameOf (4096 * fr)
  if !isHbm (4096 * fr) || f.kind = 0 || s.cipher.trusts (nodeKey f.ownerKey 1 f.num) then s
  else if s.nodeVerifies f.ownerKey 1 f.num c m then { s with cipher := { s.cipher with counters := tset s.cipher.counters fr c } }
  else s.nodeFails 1 [fr]

/-- What stands in HBM for a line, changed behind the cipher unit's back (R427): what verifies as a clean or a poisoned line is one. -/
def State.damageLine (s : State) (a : Nat) (c : List (BitVec 128)) (m : BitVec 64) : State :=
  let u := unitOf a
  let t := { s with cipher := { s.cipher with raw := tdel s.cipher.raw u } }
  if !isHbm a || (s.frameOf a).kind = 0 then s
  else
    match s.verify u (c, m) with
    | .clean => (t.cleanUnit u).put u (s.decryptLine u c)
    | .poisoned => t.poisonUnit u
    | .failed => { s with cipher := { s.cipher with raw := tset s.cipher.raw u (c, m) } }

/-- The host link trains: x16, x8 or x4, at 128, 64 or 32 GT/s (R442). -/
def State.trainHost (s : State) (lanes rate : Nat) : State :=
  if [16, 8, 4].contains lanes && [128, 64, 32].contains rate then { s with hb := { s.hb with lanes := lanes, rate := rate } } else s

/-- One turn. -/
def State.turn (s : State) : Turn → Out
  | .pilot p => s.turnPilot p
  | .performs p k => .next (s.perform p k)
  | .element e => s.turnElement e
  | .event i x y z => exec i { s with cur := { s.cur with x := x, y := y, z := z } }
  | .clock => .next s.turnClock
  | .hostStore a l => .next (s.hostStores a l)
  | .hostLink l g => .next (s.trainHost l g)
  | .damageLine a c m => .next (s.damageLine a c m)
  | .damageCounter f c m => .next (s.damageCounter f c m)
  | .damageNode o k n c m => .next (s.damageNode o k n c m)
  | .linkError e p => .next (s.linkError e p)
  | .damageUnit a => .next (s.badUnit a)
  | .upset a k => .next (s.upset a k)
  | .pilotWord p => .next (s.badPilot p)
  | .damageConfig e k => .next (s.damageWord e k)
  | .damageReg e c k => .next (s.badReg e c k)

/-! ### Which turn comes where nothing is due (log 1) -/

/-- Elements and edge units: steps that look for their own cause at the place named, and change nothing where there is none. -/
def fabricSteps : List Instr :=
  [.asyncTrap, .blockLoadEnds, .groupAdderStep, .brickResultCompletes, .yieldClearTimeout, .outboundTokenClaim,
   .inboundTokenSend, .edgeRequest, .xsplit, .xjoin, .xscale, .nwatch, .nread, .nclr, .cvtin, .cvtout, .transformTokenTaken,
   .normWatchRound]

/-- Engines and bindings: steps that look for their own cause at the place named, and change nothing where there is none. -/
def engineSteps : List Instr :=
  [.sadv, .sswap, .scopy, .spref, .sflush, .szero, .sgath, .sscat, .streamCommandResponse, .bindingIteration,
   .storeBindingEnd, .scrubPass, .storageClear, .aadd, .afadd, .amin, .amax, .aand, .aor, .axor, .aswap, .acas, .ainc,
   .supd, .eflush]

/-- Eddy and spring units, routers, blocks: steps that look for their own cause at the place named, and change nothing where there is none. -/
def routerSteps : List Instr :=
  [.convoyPhaseComplete, .sprg, .sprgq, .springBlockDecoded, .springResponse, .tokenTaken, .routeForward, .delayNodeOffer,
   .channelNodeDeliver, .dieLinkFailure, .configurationParity, .elementSwap, .routerSetChange, .columnEndPasses,
   .switchRewriteApply, .commit, .blockFault, .elementFault, .launchWord, .placeLaunch, .invalidationComplete]

/-- Graph nodes and placement: steps that look for their own cause at the place named, and change nothing where there is none. -/
def nodeSteps : List Instr :=
  [.nodeBlock, .nodePilot, .nodeCopy, .nodeCond, .nodeLoop, .nodeSwitch, .nodeWaitw, .nodeWaitwRecheck, .nodeWaitwTimeout,
   .nodeSignal, .nodeHostnote, .nodePreemptTide, .nodePreemptFreeze, .nodePreemptRestore, .nodePreemptDiscard, .nodeEnd,
   .winopen, .winrekey, .winclose, .quotaExhausted, .residencyRotation]

/-- The anchor engine, the cipher units and the Harbour: steps that look for their own cause at the place named, and change nothing where there is none. -/
def saveSteps : List Instr :=
  [.ctxsize, .tide, .freeze, .save, .restore, .discard, .tideMarkSnapshot, .caughtToken, .freezeGateCloses, .tideTimeout,
   .dataLineRead, .nodeWriteBack, .hostMemRead, .cxlCacheRequest, .cxlCacheCompletion, .backInvalidateResponse,
   .retryTimeout, .burbexPortDown, .burbexPortUp, .flitSelect, .reset]

/-- Management commands: steps that look for their own cause at the place named, and change nothing where there is none. -/
def commandSteps : List Instr :=
  [.resync, .attest, .fwstage, .fwactivate, .vdcreate, .vddestroy, .vdquota, .vdroot, .framesGrant, .framesRelease,
   .hostrange, .route, .recvrange, .peerconvoy, .vdresume, .vdexport, .vdimport, .vddumpkey, .partition, .slack, .logread,
   .eventring, .dumparea, .watchdog, .power]

/-- Voxkan and pilots: steps that look for their own cause at the place named, and change nothing where there is none. -/
def voxkanSteps : List Instr :=
  [.powerSample, .logBatchClose, .eventDelivery, .regionStall, .heartbeatGap, .fatal, .doeRequest, .pilotWaitwRecheck,
   .pilotLoadReturn]

/-- The steps that look for their own cause at the place named. -/
def ownSteps : List Instr := [fabricSteps, engineSteps, routerSteps, nodeSteps, saveSteps, commandSteps, voxkanSteps].flatten

/-- A flit of free numbers. -/
def freeFlit (f : Nat → Nat) : Flit :=
  { seq := f 0, typ := f 1, vc := f 2, ack := f 3, retry := f 4 % 2 = 1, credits := f 5, creditVc := f 6, dst := f 7, src := f 8,
    tag := f 9, off := f 10,
    grans := (List.range (f 11)).map (fun i => BitVec.ofNat 256 (f (20 + 8 * i))),
    masks := (List.range (f 11)).map (fun i => BitVec.ofNat 32 (f (21 + 8 * i))),
    recs := (List.range (f 12)).map (fun i =>
      { tag := f (22 + 8 * i), op := f (23 + 8 * i), step := f (24 + 8 * i), phase := f (25 + 8 * i) }),
    rest := f 13, crc := f 14 }

/-- A requester of free numbers. -/
def freeRequester (f : Nat → Nat) : Requester :=
  match f 0 % 3 with
  | 0 => .binding (f 1) (f 2 % 3) (f 3)
  | 1 => .cmd (f 1) (f 2)
  | _ => .pilot (f 1) (f 2)

/-- A step that carries values, with free ones. -/
def freeStep (f : Nat → Nat) : Nat → Instr
  | 0 => .walkCompletes (freeRequester f)
  | 1 => .streamFault (freeRequester f)
  | 2 => .windowStoreApply (freeRequester f)
  | 3 => .registerWrite (BitVec.ofNat 64 (f 0))
  | 4 => .hostMemWrite (BitVec.ofNat 512 (f 0)) (BitVec.ofNat 64 (f 1))
  | 5 => .peerSend (freeFlit f)
  | 6 => .peerCompletion (freeFlit f)
  | 7 => .peerRetire (freeFlit f)
  | 8 => .convoyFlit (freeFlit f)
  | 9 => .phaseReleaseRecord (freeFlit f)
  | 10 => .linkRetry (freeFlit f)
  | 11 => .sensorRead ((List.range 108).map f)
  | _ => .coolantCycle ((List.range 6).map f)

/-- The places that the outside world may give a step: a rotation and a held record have causes of their own, and a fatal error from
outside is an uncorrectable word, a failed entropy test or a metadata array; a slot's parity is judged at its firing. -/
def freePlace (i : Instr) (x y z : Nat) : Turn :=
  match i with
  | .residencyRotation => .event i x 0 z
  | .configurationParity => .event i x 1 z
  | .convoyFlit f => .event (.convoyFlit f) x 0 z
  | .fatal => .event i (lget [0, 1, 4] (x % 3) 0) y z
  | _ => .event i x y z

/-- A metadata node of free numbers (R424). -/
def freeCounter (f : Nat → Nat) : Counter :=
  { major := f 0 % 2 ^ 64, minors := ((List.range 64).filter (fun i => f (1 + i) % 128 != 0)).map (fun i => (i, f (1 + i) % 128)) }

/-- A turn of free numbers. -/
def freeTurn (f : Nat → Nat) : Turn :=
  let g : Nat → Nat := fun k => f (k + 5)
  match f 0 % 20 with
  | 0 => .pilot (f 1 % 48)
  | 1 => .performs (f 1 % 48) (f 2)
  | 2 => .element (f 1 % 49152)
  | 3 => .clock
  | 4 => .hostStore (f 1) ((List.range (f 2 % 65)).map (fun i => BitVec.ofNat 8 (g i)))
  | 5 => .damageLine (f 1) ((List.range 4).map (fun i => BitVec.ofNat 128 (g i))) (BitVec.ofNat 64 (f 2))
  | 6 => .damageCounter (f 1) (freeCounter g) (BitVec.ofNat 64 (f 2))
  | 7 => .linkError (f 1) (f 2)
  | 8 => .damageUnit (f 1)
  | 9 => .pilotWord (f 1)
  | 10 => .damageReg (f 1) (f 2) (f 3)
  | 11 => .damageConfig (f 1) (f 2 % 128)
  | 12 => .upset (f 1) (f 2 % 11)
  | 13 => .damageNode (f 1 % 192) (2 + f 2 % 4) (f 3) (freeCounter g) (BitVec.ofNat 64 (f 4))
  | 14 => freePlace (freeStep g (f 1 % 13)) (f 2) (f 3) (f 4)
  | 15 => .hostLink (f 1) (f 2)
  | _ => freePlace (lget ownSteps (f 1 % 256) .asyncTrap) (f 2) (f 3) (f 4)

/-- How many free numbers a turn may use. -/
def drawsPerTurn : Nat := 2 ^ 32

/-- The turn that comes next: the first of the agenda, or, with nothing due, any (log 1). -/
def State.nextTurn (s : State) : Turn × State :=
  match s.agenda with
  | t :: r => (t, { s with agenda := r })
  | [] => (freeTurn (fun k => Config.freeNat (s.draws + k)), { s with draws := s.draws + drawsPerTurn })

/-- The stores of a step reach memory (log 4). -/
def State.land (s t : State) : State := { t with mem := drain s.mem t.stores, stores := [] }

/-! ### An instruction placed where the next step fetches it (log 1) -/

/-- A VD and a one-band region for pilot 0, where it has none. -/
def State.housed (s : State) : State :=
  match s.regionAt 0 with
  | some _ => s
  | none =>
    { s with
      regions := s.regions ++ [{ Region.start 0 1 0 0 s.incs .pilot with seen := s.chron.toNat }], incs := s.incs + 1,
      strips := vs s.strips 0 0, vds := tset s.vds 0 { s.vd 0 with present := true, resident := true } }

/-- Pilot 0 about to fetch: it runs, at an address of its chart memory, with nothing in flight and no trap due. -/
def Pilot.ready (p : Pilot) : Pilot :=
  { p with
    run := .running, waitSince := none, pend := [], pstatus := p.pstatus &&& ~~~ 1#64,
    pc := if isChart p.pc && p.pc.toNat % 4 = 0 then p.pc else chartBase }

/-- A pilot word placed at pilot 0's program address, and its turn first (R314). -/
def State.placeWord (s : State) (w : Nat) : State :=
  let t := s.housed
  let p := (t.pilot 0).ready
  let u := t.setPilot 0 p
  { u with
    agenda := [.pilot 0], snaps := u.snaps.filter (fun o => !(u.regions.any (fun r => r.lead = o.region && r.holds 0))),
    mem := memWrite u.mem (chartCell 0 (p.pc.toNat % 65536)) (toLe 4 w) }

/-- A slot of 48 bits placed as the only slot of element 0, in a running block, and its turn first (R78). -/
def State.placeSlot (s : State) (w : Nat) : State :=
  let t := s.housed
  let t := match t.regionAt 0 with
    | some r => t.modRegion r.lead (fun r => { r with
        running := .running, stopped := false, shadow := .empty, succ := none, div := Vector.replicate 16 1, cur := some (Image.empty.block r.lead r.inc) })
    | none => t
  let c := { ElemCfg.empty with loaded := true, slots := [BitVec.ofNat 48 w], inc := (match t.regionAt 0 with | some r => r.inc | none => 0) }
  let k := { ElemCore.reset with cfg := Vector.replicate 2 c }
  { t.modElem 0 (fun m => { m with core := k, last := 0 }) with agenda := [.element 0], snaps := [], therm := [] }

end Sys2Proof.Machine
end

