-- ==== Sys2Proof/Machine/Step.lean ====
section
/-!
DEFINITION. One step of the machine: the next turn, with its stores landed in memory; and an instruction placed where the next step
fetches it (log 1).
-/
namespace Sys2Proof.Machine
open Sys2Proof

/-- One step: the first turn of the agenda, or any turn where nothing is due. -/
def step (s : State) : Host.Outcome State Fault Refusal :=
  match s.nextTurn.2.turn s.nextTurn.1 with
  | .next t => .next (s.land t)
  | .fault f => .fault f
  | .refused r => .refused r

/-- An instruction word placed so that the next step fetches and runs it: a pilot word of 32 bits, or an element slot of 48. -/
def State.withFetchWord (s : State) (nbits w : Nat) : State := if nbits ≤ 32 then s.placeWord w else s.placeSlot w

end Sys2Proof.Machine
end

