-- ==== Sys2Proof/Certificates/Slice0/Elements.lean ====
section
/-!
DEFINITION. The vocabulary of the statements about element firings: what a firing leaves as it was, where its result goes, and what
null and poisoned operands do (R207, R208, R213, R242 to R246).
-/
namespace Sys2Proof.Claims
open Sys2Proof Sys2Proof.Machine

/-- Nothing outside the firing element differs; in it only the firing context, the heads that the firing dequeues and its output
buffers may. No byte of memory differs (R213). -/
def firingFrame (s t : State) (o : Op) : Prop :=
  t = { s with elems := t.elems, draws := t.draws } ∧ (∀ e, e ≠ s.cur.elem → t.elem e = s.elem e) ∧
  t.elem s.cur.elem = { s.elem s.cur.elem with core := t.core } ∧
  t.core = { s.core with ctx := t.core.ctx, inp := t.core.inp, out := t.core.out } ∧
  (∀ c, c ≠ s.cur.ctx → vg t.core.ctx c (Ctx.activated 0) = vg s.core.ctx c (Ctx.activated 0)) ∧
  (∀ k, k < 4 → vg t.core.inp k [] =
    if (o.dqa = true ∧ o.a.toNat = 8 + k) ∨ (o.dqb = true ∧ o.b.toNat = 8 + k) then (vg s.core.inp k []).tail
    else vg s.core.inp k []) ∧
  ∀ k, t.byte k = s.byte k

/-- In the firing context only the destination register, the flags, the generator and the outstanding results may differ, and
of the output buffers only the destination's. -/
def resultOnly (s t : State) (dst : Nat) : Prop :=
  t.ctx = { s.ctx with v := t.ctx.v, aflags := t.ctx.aflags, sr := t.ctx.sr, outst := t.ctx.outst } ∧
  (∀ n, n ≠ dst → vg t.ctx.v n VReg.zero = vg s.ctx.v n VReg.zero) ∧
  ∀ n, n + 8 ≠ dst → vg t.core.out n [] = vg s.core.out n []

/-- Where a result goes (R207, R213, R244): a register takes the executing lanes and keeps the others, with its null and poison
bits; an output buffer takes one token whose other lanes are zero, of the context's round, with the tag given. A null result keeps
a register's payload and carries no poison. -/
def deliveredTag (s t : State) (dst : Nat) (val : Nat → Word) (null poison : Bool) (tag : BitVec 2) : Prop :=
  (dst < 8 →
    (vg t.ctx.v dst VReg.zero).null = null ∧ (vg t.ctx.v dst VReg.zero).poison = (poison && !null) ∧
    (null = true → (vg t.ctx.v dst VReg.zero).val = (vg s.ctx.v dst VReg.zero).val) ∧
    (null = false → ∀ k, k < 8 → lane (vg t.ctx.v dst VReg.zero).val k =
      if s.runs k = true then val k else lane (vg s.ctx.v dst VReg.zero).val k)) ∧
  (8 ≤ dst → ∃ q, vg t.core.out (dst - 8) [] = vg s.core.out (dst - 8) [] ++ [q] ∧ q.tok.kind = (if null = true then 1 else 0) ∧
    q.tok.poison = (poison && !null) ∧ q.tok.tag = tag ∧ q.tok.round = s.ctx.cround ∧
    (null = false → ∀ k, k < 8 → lane q.tok.payload k = if s.runs k = true then val k else 0))

/-- A result with tag 0. -/
def delivered (s t : State) (dst : Nat) (val : Nat → Word) (null poison : Bool) : Prop := deliveredTag s t dst val null poison 0

/-- A firing with the common rules of R244, its effect told from a base state `s` (that in which it fires, but for the array it
holds): with a null operand the result is null and nothing else happens; otherwise the
executing lanes have the property `P`, the result carries poison when a data operand does, and flags and generator state
afterwards have the property `F`. -/
def firesFrom (i : Instr) (u s : State) (o : Op) (src trig : List Src) (P : Nat → Word → Prop)
    (F : BitVec 32 → BitVec 32 → Prop) : Prop :=
  s.cur.ctx < 8 → o.dst.toNat < 12 →
  ((src ++ trig).any (fun x => x.null) = true → ∃ t, exec i u = .next t ∧ firingFrame s t o ∧ resultOnly s t o.dst.toNat ∧
    delivered s t o.dst.toNat (fun _ => 0) true false ∧ t.ctx.aflags = s.ctx.aflags ∧ t.ctx.sr = s.ctx.sr) ∧
  ((src ++ trig).any (fun x => x.null) = false → ∃ t val, exec i u = .next t ∧ firingFrame s t o ∧ resultOnly s t o.dst.toNat ∧
    delivered s t o.dst.toNat val false (src.any (fun x => x.poison)) ∧ (∀ k, k < 8 → s.runs k = true → P k (val k)) ∧
    F t.ctx.aflags t.ctx.sr)

/-- A firing told from the state in which it fires. -/
def fires (i : Instr) (s : State) (o : Op) (src trig : List Src) (P : Nat → Word → Prop) (F : BitVec 32 → BitVec 32 → Prop) : Prop :=
  firesFrom i s s o src trig P F

/-- The flags after a firing: those before it, `PSN` where a data operand is poisoned, and those that `raised` gives for a
subword of an executing lane (R58, R207, R244). -/
def flagsAfter (s : State) (src : List Src) (n : Nat) (raised : Nat → Nat → BitVec 32) (f : BitVec 32) : Prop :=
  ∀ b, f.getLsbD b = (s.ctx.aflags.getLsbD b || (decide (b = 7) && src.any (fun x => x.poison)) ||
    (List.range 8).any (fun k => s.runs k && (List.range n).any (fun j => (raised k j).getLsbD b)))

/-- A firing that computes each subword on its own: subword `j` of executing lane `k` is `val k j`, it raises `raised k j`, and the
generator does not step. -/
def subwise (i : Instr) (s : State) (o : Op) (src : List Src) (w n : Nat) (val : Nat → Nat → Nat) (raised : Nat → Nat → BitVec 32) :
    Prop :=
  fires i s o src [] (fun k r => ∀ j, j < n → sub r j w = val k j) (fun f sr => flagsAfter s src n raised f ∧ sr = s.ctx.sr)

/-- Exact saturation of an integer to a width (R43). -/
def clamp (n : Int) (w : Nat) (sgn : Bool) : Int :=
  if sgn = true then max (- 2 ^ (w - 1)) (min (2 ^ (w - 1) - 1) n) else max 0 (min (2 ^ w - 1) n)

/-- The environment in which one rounding is looked at alone: no flag set, the generator as it stands. -/
def State.bare (s : State) : FEnv := { aflags := 0, srstate := s.ctx.sr }

/-- Lane `k` of accumulator `d` of the firing context. -/
def State.accLane (s : State) (d k : Nat) : LaneAcc := vg (s.ctx.getAcc d).lanes k LaneAcc.zero

/-- What an effect does to accumulator `d` wherever it is applied in a context of the mode and `F` of `s`: lane `k` of those in `on`
becomes what `new` gives of it, and the other lanes stay. -/
def changesLanes (s : State) (e : AccEff) (d : Nat) (on : Nat → Bool) (new : Nat → LaneAcc → FEnv → LaneAcc × FEnv) : Prop :=
  ∀ v : State, v.cur.ctx < 8 → (v.ctx.getAcc d).f32 = (s.ctx.getAcc d).f32 → (v.ctx.getAcc d).frac = (s.ctx.getAcc d).frac →
    ∀ k, k < 8 → State.accLane (v.applyEff e) d k =
      if on k = true then (new k (State.accLane v d k) (State.bare v)).1 else State.accLane v d k

/-- A firing that changes the lanes `on` of accumulator `d` each on its own (R289, R294): with a null operand nothing changes;
otherwise lane `k` becomes what `new` gives of it, the other lanes, the mode and `F` stay, and the flags raised are set. Behind a group
step of the context that has not been applied, the same effect waits with the firing's outstanding result (R295). The effect is
told from a base state `s`, as above. -/
def accumulates (i : Instr) (u s : State) (o : Op) (src : List Src) (d : Nat) (on : Nat → Bool)
    (new : Nat → LaneAcc → FEnv → LaneAcc × FEnv) : Prop :=
  s.cur.ctx < 8 → d < 4 →
  (src.any (fun x => x.null) = true → ∃ t, exec i u = .next t ∧ firingFrame s t o ∧ t.core.out = s.core.out ∧
    t.ctx = { s.ctx with outst := t.ctx.outst }) ∧
  (src.any (fun x => x.null) = false → s.held = true → ∃ t x e, exec i u = .next t ∧ firingFrame s t o ∧ t.core.out = s.core.out ∧
    t.ctx = { s.ctx with aflags := t.ctx.aflags, outst := t.ctx.outst } ∧
    (∀ b, t.ctx.aflags.getLsbD b = (s.ctx.aflags.getLsbD b || (decide (b = 7) && src.any (fun x => x.poison)))) ∧
    t.ctx.outst.getLast? = some x ∧ x.effs = [e] ∧ changesLanes s e d on new) ∧
  (src.any (fun x => x.null) = false → s.held = false → ∃ t, exec i u = .next t ∧ firingFrame s t o ∧ t.core.out = s.core.out ∧
    t.ctx = { s.ctx with acc := t.ctx.acc, aflags := t.ctx.aflags, outst := t.ctx.outst } ∧
    (∀ n, n ≠ d → t.ctx.getAcc n = s.ctx.getAcc n) ∧ (t.ctx.getAcc d).f32 = (s.ctx.getAcc d).f32 ∧
    (t.ctx.getAcc d).frac = (s.ctx.getAcc d).frac ∧
    (∀ k, k < 8 → State.accLane t d k = if on k = true then (new k (State.accLane s d k) (State.bare s)).1 else State.accLane s d k) ∧
    ∀ b, t.ctx.aflags.getLsbD b = (s.ctx.aflags.getLsbD b || (decide (b = 7) && src.any (fun x => x.poison)) ||
      (List.range 8).any (fun k => on k && (new k (State.accLane s d k) (State.bare s)).2.aflags.getLsbD b)))

end Sys2Proof.Claims
end

