-- ==== Sys2Proof/Certificates/Slice0/Pilots.lean ====
section
/-!
DEFINITION. The vocabulary of the statements about pilots: what stays as it was, what a written register and a taken trap
leave (R313, R315, R317 to R320).
-/
namespace Sys2Proof.Claims
open Sys2Proof Sys2Proof.Machine

/-- Nothing but the record of the acting pilot differs: no other pilot, no other field of the state, no byte of memory. -/
def onlyPilot (s t : State) : Prop :=
  t = { s with pilots := t.pilots } ∧ (∀ q, q ≠ s.cur.pilot → t.pilot q = s.pilot q) ∧ ∀ a, t.byte a = s.byte a

/-- Register `d` of the acting pilot holds `v` (`x0` still reads zero), the pc has passed the word, nothing else differs:
no other register, no control register, no access in flight, no memory (R313). -/
def wrote (s t : State) (d : Reg) (v : DWord) : Prop :=
  (∀ r, t.me.get r = if r = d ∧ d ≠ 0 then v else s.me.get r) ∧ t.me = { s.me with x := t.me.x, pc := s.me.pc + 4 } ∧
    onlyPilot s t

/-- The instruction answers a next state in which it has written a value with the property `P` to `xd`, and nothing else. -/
def writes (i : Instr) (s : State) (d : Reg) (P : DWord → Prop) : Prop :=
  ∃ t v, exec i s = .next t ∧ wrote s t d v ∧ P v

/-- The instruction answers a next state that has passed the word and differs in nothing else of the acting pilot's. -/
def passed (s t : State) : Prop := t.me = { s.me with pc := s.me.pc + 4 } ∧ onlyPilot s t

/-- A trap has been taken (R317 to R319): the trap registers hold cause, value and resume address; with `PSTATUS`.TH set or no
handler the pilot has stopped, otherwise IE has moved to PIE, IE is 0, TH is 1, the other status bits are as they were and
the pc is the handler's. No register differs, and nothing outside the pilot. -/
def trapped (s t : State) (cause sub : Nat) (val resume : DWord) : Prop :=
  t.me.trapcause = BitVec.ofNat 64 (sub * 65536 + cause) ∧ t.me.trapval = val ∧ t.me.trapaddr = resume ∧ t.me.x = s.me.x ∧
    t.me = { s.me with trapcause := t.me.trapcause, trapval := t.me.trapval, trapaddr := t.me.trapaddr, waitSince := none,
                       pc := t.me.pc, pstatus := t.me.pstatus, run := t.me.run } ∧
    onlyPilot s t ∧
    if s.me.pstatus.getLsbD 2 = true ∨ s.me.tvec &&& 0xFFFC = 0 then
      t.me.run = .stopped ∧ t.me.pstatus = s.me.pstatus ∧ t.me.pc = s.me.pc
    else
      t.me.run = s.me.run ∧ t.me.pc = chartBase + (s.me.tvec &&& 0xFFFC) ∧ t.me.pstatus.getLsbD 0 = false ∧
        t.me.pstatus.getLsbD 1 = s.me.pstatus.getLsbD 0 ∧ t.me.pstatus.getLsbD 2 = true ∧
        ∀ k, 3 ≤ k → t.me.pstatus.getLsbD k = s.me.pstatus.getLsbD k

/-- The instruction traps. -/
def traps (i : Instr) (s : State) (cause sub : Nat) (val resume : DWord) : Prop :=
  ∃ t, exec i s = .next t ∧ trapped s t cause sub val resume

/-- The control transfer: the pc is the target, the link register `d` holds `v`, and nothing else differs; a target outside
chart memory traps at the instruction itself with cause 7 and writes nothing (R325). -/
def goesTo (i : Instr) (s : State) (d : Reg) (target : DWord) : Prop :=
  if isChart target = true then
    ∃ t, exec i s = .next t ∧ (∀ r, t.me.get r = if r = d ∧ d ≠ 0 then s.me.pc + 4 else s.me.get r) ∧
      t.me = { s.me with x := t.me.x, pc := target } ∧ onlyPilot s t
  else traps i s 7 0 target s.me.pc

/-- The acting pilot has taken the next word; its registers are as they were; the other fields of its record that are not
named by a statement may differ. -/
def onward (s t : State) : Prop := t.cur = s.cur ∧ t.me.pc = s.me.pc + 4 ∧ t.me.x = s.me.x ∧ t.me.pstatus = s.me.pstatus

/-- The little-endian number of `n` bytes at a cell address (R3). -/
def number (s : State) (a n : Nat) : Nat := ((List.range n).map (fun k => (s.byte (a + k)).toNat * 256 ^ k)).sum

/-- Bytes `a` to `a + n - 1` hold the low bytes of `v`, least significant first; every other byte is as it was (R3). -/
def wroteBytes (s t : State) (a n v : Nat) : Prop :=
  ∀ k, t.byte k = if a ≤ k ∧ k < a + n then BitVec.ofNat 8 (v / 256 ^ (k - a)) else s.byte k

/-- A unit whose store takes effect in the ordinary way: in HBM its frame's counters verify, no line of the frame has
been changed behind its unit's back, and the frame's major counter has room (R425, R428); in SRAM its code can correct it (R179). -/
def healthy (s : State) (a : Nat) : Prop :=
  s.lost a = false ∧ (isHbm a = true →
    s.cipher.badCounters.contains (a / 4096) = false ∧ s.cipher.raw.filter (fun x => x.1 / 4096 = a / 4096) = [] ∧
      (tget s.cipher.counters (a / 4096) Counter.zero).major ≠ 2 ^ 64 - 1)

/-- The entry that a pilot's access in flight makes: kind, addresses, register, data, window. -/
def inFlight (s t : State) (kind : PKind) (va cell : Nat) (reg : Reg) (data : DWord) (window : Option Nat) : Prop :=
  onward s t ∧ (∃ x, t.me.pend = s.me.pend ++ [x] ∧ x.kind = kind ∧ x.va = va ∧ x.cell = cell ∧ x.reg = reg ∧ x.data = data ∧
    x.window = window) ∧ ∀ q, q ≠ s.cur.pilot → t.pilot q = s.pilot q

/-- What a load of `n` bytes gives of the number that the bytes hold: zero-extended or sign-extended (R323). -/
def loaded (n : Nat) (sgn : Bool) (w : Nat) (v : DWord) : Prop :=
  if sgn = true then v.toInt = if 2 * w < 256 ^ n then (w : Int) else (w : Int) - 256 ^ n else v.toNat = w

/-- An address of the acting pilot reaches a cell: in its own chart memory, or by translation, the tarn window or a window. -/
def reaches (s : State) (va : DWord) (write : Bool) (c : Nat) : Prop :=
  (isChart va = true ∧ c = chartCell s.cur.pilot (va.toNat % 65536)) ∨
  (isChart va = false ∧ ((∃ e, s.place s.myVd va.toNat write false s.me.tlb = .cell c e) ∨
    s.place s.myVd va.toNat write false s.me.tlb = .tarn c ∨
    ∃ w, s.place s.myVd va.toNat write false s.me.tlb = .window w c))

/-- The region of the acting pilot after the instruction. -/
def regionNow (t : State) (r : Region) : Prop := t.myRegion = some r

end Sys2Proof.Claims
end

