-- ==== Sys2Proof/Certificates/Slice0/Fabric.lean ====
section
/-!
DEFINITION. The vocabulary of the statements about the steps of the table that have no word of their own: the state in which a step
runs, and what it leaves as it was (R70).
-/
namespace Sys2Proof.Claims
open Sys2Proof Sys2Proof.Machine

/-- No byte of memory and no poison mark differs. -/
def memoryKept (s t : State) : Prop := (∀ k, t.byte k = s.byte k) ∧ t.poison = s.poison

/-- Only the elements named may differ. -/
def elemsKept (s t : State) (P : Nat → Prop) : Prop := ∀ e, ¬ P e → t.elem e = s.elem e

/-- Only the regions named by their lead may differ. -/
def regionsKept (s t : State) (P : Nat → Prop) : Prop := ∀ l, ¬ P l → t.region l = s.region l

/-- A data input of an element that takes a data or null token now (R31, R36, R71, R183, R393). -/
def inputOpen (s : State) (e i : Nat) : Prop :=
  (s.elem e).core.blocked = false ∧ vg (s.elem e).router.hold (4 + i) 0 ≤ s.cycle ∧ (s.elem e).swapIn.getLsbD i = false ∧ (s.elem e).tideClosed.getLsbD i = false ∧ (s.elem e).snap = none ∧
    (vg (s.elem e).core.inp i []).length < 4

/-- A fault of an element without a firing, at the end of the region's list, which stops (R237, R239). -/
def faultOf (s t : State) (r : Region) (f : FaultEv) : Prop :=
  t = s.modRegion r.lead (fun q => { q with faults := q.faults ++ [f], stopped := true, faultAt := s.cycle + 1 })

/-- The state answers to whoever issued an anchor command from a graph's node (R409). -/
def answered (t : State) (vd g code : Nat) : Prop := ∃ x ∈ (t.vd vd).graphs, x.id = g ∧ ∃ v, x.answer = some (code, v)

/-- A mailbox command has completed (R463): not busy, done, with the status and detail. -/
def mailDone (t : State) (status detail : Nat) : Prop :=
  t.vox.busy = false ∧ t.vox.done = true ∧ t.vox.status = status ∧ t.vox.detail = detail ∧ t.vox.latched = none

/-- Result doubleword `k` of a mailbox command, from buffer offset 0x08 (R463). -/
def mailResult (t : State) (k : Nat) : DWord := tget t.vox.buf (k + 1) 0

/-- The last event delivered to Voxkan (R483). -/
def eventLast (t : State) (src code vd : Nat) (detail : List DWord) : Prop :=
  ∃ x, t.vox.events.getLast? = some x ∧ x.src = src ∧ x.code = code ∧ x.vd = vd ∧ x.detail = detail

/-- A graph's node of a kind can begin (R138, R139, R141, R142): the Helm acts on the graph, the
node's line reads as `l`, and its fields are legal. -/
def nodeBegins (s : State) (kind : Nat) (x : Graph) (l : List Byte) : Prop :=
  s.graph s.cur.x s.cur.y = some x ∧ s.vox.devstate = 2 ∧ (s.vd s.cur.x).present = true ∧ x.started = true ∧ x.state = .begin ∧
    (s.vd s.cur.x).quarantined = false ∧
    (∀ f ∈ x.stack, f.addr ≠ x.node) ∧
    (s.helmRead s.cur.x x.node 64).1 = some l ∧ rd l 0 1 = kind ∧ nodeFault l = none

/-- The graph with its node read. -/
def inHand (s : State) (x : Graph) (l : List Byte) : Graph :=
  { x with line := l, since := s.chron.toNat, lastRead := s.chron.toNat, waited := 0 }

/-- The state in which a node has begun: its status field shows 0x01 (R139). -/
def begun (s : State) (x : Graph) (l : List Byte) : State :=
  (s.setGraph s.cur.x (inHand s x l)).nodeStatus s.cur.x x.node 1

/-- A graph's node of a kind is in progress. -/
def nodeRuns (s : State) (kind : Nat) (x : Graph) (g : GState) : Prop :=
  s.graph s.cur.x s.cur.y = some x ∧ s.vox.devstate = 2 ∧ (s.vd s.cur.x).present = true ∧ x.started = true ∧ x.state = g ∧
    rd x.line 0 1 = kind

/-- The status field of a node, where its page can be written and is not in host memory (R139). -/
def statusWritten (b t : State) (vd node value : Nat) : Prop :=
  ∀ c, b.helmCell vd (node + 4) true = .ok c → isHost c = false → healthy b c → number t c 4 = value

/-- A graph as it stands. -/
def graphNow (t : State) (vd g : Nat) (P : Graph → Prop) : Prop := ∃ y, t.graph vd g = some y ∧ P y

/-- A node completes from state `b` (R139): status 2 with the detail, and the graph goes on at the next node. -/
def completes (b t : State) (vd : Nat) (x : Graph) (detail next : Nat) : Prop :=
  graphNow t vd x.id (fun y => y.node = next ∧ y.state = .begin ∧ y.stack = x.stack ∧ y.answer = none) ∧
    statusWritten b t vd x.node (2 + detail % 65536 * 65536)

/-- A node fails from state `b` (R140): status 3 with code and detail, and the graph ends. -/
def failsNode (b t : State) (vd : Nat) (x : Graph) (code detail : Nat) : Prop :=
  t.graph vd x.id = none ∧ statusWritten b t vd x.node (3 + code * 256 + detail % 65536 * 65536)

/-- Command `i` of edge unit `g` has performed (R175, R217): it is in hand no more, and its place in the order of responses holds the token
`out`, or is gone where it returns none. -/
def performed (s t : State) (g i : Nat) (out : Option Token) : Prop :=
  (t.edge g).cmds = (s.edge g).cmds.filter (fun c => c.id != i) ∧
    (∀ tok, out = some tok → (t.edge g).rsps.map (fun p => (p.id, p.tok)) =
      (s.edge g).rsps.map (fun p => (p.id, if p.id = i then some tok else p.tok))) ∧
    (out = none → (t.edge g).rsps = (s.edge g).rsps.filter (fun p => p.id != i))

/-- The token that answers a command: its lanes, the command's round, tag 0 (R175, R273). -/
def answers (q : Token) (c : Cmd) (val : Nat → Nat) (poison : Bool) : Prop :=
  q.kind = 0 ∧ q.round = c.tok.round ∧ q.tag = 0 ∧ q.poison = poison ∧ ∀ k, k < 8 → lane q.payload k = BitVec.ofNat 32 (val k)

/-- What a command reads of a range at its source or destination address: the bytes, and whether a granule among them is poisoned. -/
def readsRange (s : State) (r : Region) (c : Cmd) (second : Bool) (kind a n : Nat) (data : List Byte) (bad : Bool) : Prop :=
  n ≠ 0 ∧ ∃ p l, s.spot r.vd s.cur.x kind a false false (s.entryOf s.cur.x c second) = .cell p ∧
    s.cellsOf r.vd s.cur.x kind false (s.entryOf s.cur.x c second) (pieces a n) = .ok l ∧
    data = l.flatMap (fun x => s.view x.1 x.2) ∧ bad = l.any (fun x => s.viewBad x.1)

/-- Little-endian number of a list of bytes. -/
def numberOf (l : List Byte) : Nat := ((List.range l.length).map (fun k => (l[k]?.getD 0).toNat * 256 ^ k)).sum

/-- The stream binding at the place of the event, in the state after it. -/
def bindingNow (t : State) (P : Block → BindSt → Prop) : Prop := ∃ r b x, t.curBinding = some (r, b, x) ∧ P b x

/-- A command in hand, in the state after the event. -/
def commandNow (t : State) (g i : Nat) (P : Cmd → Prop) : Prop := ∃ c, (t.edge g).find i = some c ∧ P c

/-- A command's accesses have all performed with a status; its response becomes due (R175). -/
def accessesDone (s t : State) (g : Nat) (c : Cmd) (status : Nat) : Prop :=
  memoryKept s t ∧ commandNow t g c.id (fun d => d.ended = some status ∧ d.pos = c.pos ∧ d.written = c.written) ∧
    t.agenda = .event .streamCommandResponse g c.id 0 :: s.agenda

end Sys2Proof.Claims
end

