-- ==== Sys2Proof/Safety.lean ====
section
/-!
DEFINITION. What a safe state is: memory in its canonical form and no store pending between steps (log 4).
-/
namespace Sys2Proof.Machine
open Sys2Proof

/-- Memory is canonical, and no store waits between two steps. -/
def State.Safe (s : State) : Prop := Memory.wf s.mem = true ∧ s.stores = []

end Sys2Proof.Machine
end

