-- ==== Sys2Proof/WellFormed.lean ====
section
/-!
DEFINITION. Which instructions are well-formed by their fields alone: the limits of R76, R77, R85 and R265. Limits
that need a block image (bindings, fusing table, types) are checked when the image loads (R71, R91).
-/
namespace Sys2Proof

/-- Whether the fields of an instruction keep the limits of its encoding. -/
def Instr.wellFormed (i : Instr) : Bool :=
  match i with
  | .add _ _ _ => true
  | .sub _ _ _ => true
  | .and _ _ _ => true
  | .or _ _ _ => true
  | .xor _ _ _ => true
  | .shl _ _ _ => true
  | .shr _ _ _ => true
  | .sra _ _ _ => true
  | .mul _ _ _ => true
  | .mulh _ _ _ => true
  | .divn _ _ _ => true
  | .rem _ _ _ => true
  | .remn _ _ _ => true
  | .slt _ _ _ => true
  | .div _ _ _ => true
  | .sltn _ _ _ => true
  | .min _ _ _ => true
  | .max _ _ _ => true
  | .clz _ _ => true
  | .popc _ _ => true
  | .addi _ _ _ => true
  | .andi _ _ _ => true
  | .ori _ _ _ => true
  | .xori _ _ _ => true
  | .shli _ _ _ => true
  | .shri _ _ _ => true
  | .srai _ _ _ => true
  | .slti _ _ _ => true
  | .lui _ _ => true
  | .ldN8 _ _ _ => true
  | .ldN16 _ _ _ => true
  | .ldN32 _ _ _ => true
  | .ld _ _ _ => true
  | .ldS8 _ _ _ => true
  | .ldS16 _ _ _ => true
  | .ldS32 _ _ _ => true
  | .ldacq _ _ _ => true
  | .stN8 _ _ _ => true
  | .stN16 _ _ _ => true
  | .stN32 _ _ _ => true
  | .st _ _ _ => true
  | .strel _ _ _ => true
  | .beq _ _ _ => true
  | .bne _ _ _ => true
  | .blt _ _ _ => true
  | .bge _ _ _ => true
  | .bltn _ _ _ => true
  | .bgen _ _ _ => true
  | .jal _ => true
  | .jalr _ _ _ => true
  | .blkld _ mask => mask != 0
  | .blkgo mask => mask != 0
  | .blkarm mask => mask != 0
  | .blkwait _ mask => mask != 0
  | .resteer _ _ mask => mask != 0
  | .cfgwrSw _ mask => mask != 0
  | .cfgwrConst _ mask => mask != 0
  | .cfgwrDiv _ mask => mask != 0
  | .cfgwrLoop _ mask => mask != 0
  | .wbrd _ mask _ => mask != 0
  | .injectData _ mask _ _ => mask != 0
  | .injectNull _ mask _ _ => mask != 0
  | .injectMark _ mask _ _ => mask != 0
  | .fence s => s.toNat ≤ 4
  | .waitw _ _ _ c => c.toNat ≤ 5
  | .atom _ _ _ _ f => f.toNat ≤ 9
  | .cvjoin _ => true
  | .cvleave _ => true
  | .cvarrive _ => true
  | .cvwait _ _ => true
  | .winacq _ => true
  | .winrel _ => true
  | .cpy _ _ _ => true
  | .trap _ => true
  | .ctlrd _ _ => true
  | .ctlwr _ r => r.toNat != 34 && r.toNat != 44 && r.toNat != 45
  | .chron _ => true
  | .rgnctlEnd _ => true
  | .sfctlPop _ => true
  | .sfresume _ => true
  | .vecAdd _ => true
  | .vecSub _ => true
  | .vecMul _ => true
  | .vecMulh _ => true
  | .vecMad _ => true
  | .vecAbs _ => true
  | .vecNeg _ => true
  | .vecMin _ => true
  | .vecMax _ => true
  | .vecAnd _ => true
  | .vecOr _ => true
  | .vecXor _ => true
  | .vecNot _ => true
  | .vecShl _ => true
  | .vecShr _ => true
  | .vecSra _ => true
  | .vecRot _ => true
  | .vecClz _ => true
  | .vecPopc _ => true
  | .vecAdds _ => true
  | .vecSubs _ => true
  | .vecAvg _ => true
  | .vecFadd _ => true
  | .vecFsub _ => true
  | .vecFmul _ => true
  | .vecFma _ => true
  | .vecFmin _ => true
  | .vecFmax _ => true
  | .vecFabs _ => true
  | .vecFneg _ => true
  | .vecFcps _ => true
  | .vecCmp _ => true
  | .vecFcmp _ => true
  | .vecSel _ => true
  | .vecClass _ => true
  | .vecCvt _ => true
  | .vecCvtsr _ => true
  | .vecPack _ => true
  | .vecUnpack _ => true
  | .vecExp2 _ => true
  | .vecLog2 _ => true
  | .vecRcp _ => true
  | .vecRsq _ => true
  | .vecSqrt _ => true
  | .vecSinpi _ => true
  | .vecCospi _ => true
  | .vecLbcast _ => true
  | .vecLrot _ => true
  | .vecLred _ => true
  | .vecLscan _ => true
  | .vecLidx _ => true
  | .vecMov op => op.md.toNat == 0
  | .vecMovRdflags op => op.md.toNat == 1
  | .vecMovRcflags op => op.md.toNat == 2
  | .vecMovWrflags op => op.md.toNat == 3
  | .vecMovRdseed op => op.md.toNat == 4
  | .vecMovWrseed op => op.md.toNat == 5
  | .vecMovi _ => true
  | .vecLdc _ => true
  | .vecFscale _ => true
  | .vecFrexp _ => true
  | .mac _ => true
  | .dot _ => true
  | .dots _ => true
  | .dotx _ => true
  | .mma _ => true
  | .wload _ => true
  | .mulw _ => true
  | .mula _ => true
  | .accrd _ => true
  | .accclr _ => true
  | .accset _ => true
  | .accadd _ => true
  | .accmode _ => true
  | .perm _ => true
  | .permld _ => true
  | .recstep _ => true
  | .bgate _ => true
  | .nop _ => true
  | .pset _ => true
  | .plog _ => true
  | .send _ => true
  | .deq _ => true
  | .tag _ => true
  | .mfwd _ => true
  | .mgen _ => true
  | .nullt _ => true
  | .loop _ => true
  | .ldec _ => true
  | .rep _ => true
  | .lde _ => true
  | .ste _ => true
  | .ldp _ => true
  | .stp _ => true
  | .cmde _ => true
  | .brtok _ => true
  | .wbk _ => true
  | .movc _ => true
  | .yield _ => true
  | .faulte _ => true
  | .engineCommandSend opc _ => opc.toNat < 30
  | .walkCompletes _ => true
  | .streamFault _ => true
  | .windowStoreApply _ => true
  | .hwatchWrite _ => true
  | .hinvctl _ => true
  | .registerWrite _ => true
  | .dataLineWrite _ _ => true
  | .hostMemWrite _ _ => true
  | .peerSend _ => true
  | .peerCompletion _ => true
  | .peerRetire _ => true
  | .convoyFlit _ => true
  | .linkRetry _ => true
  | .mbctlGo _ => true
  | .evconsWrite _ => true
  | .sensorRead _ => true
  | .coolantCycle _ => true
  | .phaseReleaseRecord _ => true
  | .eret => true
  | .park => true
  | .asyncTrap => true
  | .blockLoadEnds => true
  | .groupAdderStep => true
  | .brickResultCompletes => true
  | .yieldClearTimeout => true
  | .outboundTokenClaim => true
  | .inboundTokenSend => true
  | .edgeRequest => true
  | .xsplit => true
  | .xjoin => true
  | .xscale => true
  | .nwatch => true
  | .nread => true
  | .nclr => true
  | .cvtin => true
  | .cvtout => true
  | .transformTokenTaken => true
  | .normWatchRound => true
  | .sadv => true
  | .sswap => true
  | .scopy => true
  | .spref => true
  | .sflush => true
  | .szero => true
  | .sgath => true
  | .sscat => true
  | .streamCommandResponse => true
  | .bindingIteration => true
  | .bufferHandOver => true
  | .storeBindingEnd => true
  | .scrubPass => true
  | .storageClear => true
  | .aadd => true
  | .afadd => true
  | .amin => true
  | .amax => true
  | .aand => true
  | .aor => true
  | .axor => true
  | .aswap => true
  | .acas => true
  | .ainc => true
  | .supd => true
  | .eflush => true
  | .suppressionRetire => true
  | .convoyPhaseComplete => true
  | .sprg => true
  | .sprgq => true
  | .springBlockDecoded => true
  | .springResponse => true
  | .tokenTaken => true
  | .routeForward => true
  | .delayNodeOffer => true
  | .channelNodeDeliver => true
  | .dieLinkFailure => true
  | .readyDelayCount => true
  | .configurationParity => true
  | .elementSwap => true
  | .routerSetChange => true
  | .columnEndPasses => true
  | .switchRewriteApply => true
  | .commit => true
  | .blockFault => true
  | .elementFault => true
  | .elementBlocked => true
  | .launchWord => true
  | .placeLaunch => true
  | .invalidationComplete => true
  | .nodeBlock => true
  | .nodePilot => true
  | .nodeCopy => true
  | .nodeCond => true
  | .nodeLoop => true
  | .nodeSwitch => true
  | .nodeWaitw => true
  | .nodeWaitwRecheck => true
  | .nodeWaitwTimeout => true
  | .nodeSignal => true
  | .nodeHostnote => true
  | .nodePreemptTide => true
  | .nodePreemptFreeze => true
  | .nodePreemptRestore => true
  | .nodePreemptDiscard => true
  | .nodeEnd => true
  | .winopen => true
  | .winrekey => true
  | .winclose => true
  | .sharingPeriod => true
  | .quotaExhausted => true
  | .residencyRotation => true
  | .ctxsize => true
  | .tide => true
  | .freeze => true
  | .save => true
  | .restore => true
  | .discard => true
  | .tideMarkSnapshot => true
  | .caughtToken => true
  | .freezeGateCloses => true
  | .tideTimeout => true
  | .dataLineRead => true
  | .nodeWriteBack => true
  | .hostMemRead => true
  | .cxlCacheRequest => true
  | .retryTimeout => true
  | .burbexPortDown => true
  | .flitSelect => true
  | .slackUpdate => true
  | .reset => true
  | .resync => true
  | .attest => true
  | .fwstage => true
  | .fwactivate => true
  | .vdcreate => true
  | .vddestroy => true
  | .vdquota => true
  | .vdroot => true
  | .framesGrant => true
  | .framesRelease => true
  | .hostrange => true
  | .route => true
  | .recvrange => true
  | .peerconvoy => true
  | .vdresume => true
  | .vdexport => true
  | .vdimport => true
  | .vddumpkey => true
  | .partition => true
  | .slack => true
  | .logread => true
  | .eventring => true
  | .dumparea => true
  | .watchdog => true
  | .power => true
  | .powerSample => true
  | .quotaInterval => true
  | .logBatchClose => true
  | .eventDelivery => true
  | .regionStall => true
  | .quarantine => true
  | .heartbeatGap => true
  | .fatal => true
  | .pilotWaitwRecheck => true
  | .pilotLoadReturn => true
  | .burbexPortUp => true
  | .backInvalidateResponse => true
  | .cxlCacheCompletion => true
  | .doeRequest => true
  | .chronometerTick => true

end Sys2Proof
end

