-- ==== Sys2Proof/Certificates/Slice0/Obligations.lean ====
section
/-!
DEFINITION. The statements for the provers. Each formalises what rules of spec/ say an instruction or the machine does; the
rules are named in each docstring and in OBLIGATIONS.json.
-/
open Sys2Proof Sys2Proof.Machine Sys2Proof.Claims

/-! ### Pilots -/

/-- R322: the ALU group and the immediate forms, each answering the value of the table in `xd` and nothing else, whatever the operands.
Every operand is read before `xd` is written; the results are written as integers. -/
def Obligations.PilotArithmetic : Prop :=
  ∀ (s : State) (d a b : Reg) (imm : BitVec 16) (sh : BitVec 6), let x := s.me.get a; let y := s.me.get b; let c := y.toNat % 64
    writes (.add d a b) s d (fun v => v.toNat = (x.toNat + y.toNat) % 2 ^ 64) ∧
    writes (.sub d a b) s d (fun v => v.toNat = (x.toNat + (2 ^ 64 - y.toNat)) % 2 ^ 64) ∧
    writes (.and d a b) s d (fun v => ∀ k, v.getLsbD k = (x.getLsbD k && y.getLsbD k)) ∧
    writes (.or d a b) s d (fun v => ∀ k, v.getLsbD k = (x.getLsbD k || y.getLsbD k)) ∧
    writes (.xor d a b) s d (fun v => ∀ k, v.getLsbD k = (x.getLsbD k ^^ y.getLsbD k)) ∧
    writes (.shl d a b) s d (fun v => v.toNat = x.toNat * 2 ^ c % 2 ^ 64) ∧
    writes (.shr d a b) s d (fun v => v.toNat = x.toNat / 2 ^ c) ∧
    writes (.sra d a b) s d (fun v => v.toInt = x.toInt / 2 ^ c) ∧
    writes (.mul d a b) s d (fun v => v.toNat = x.toNat * y.toNat % 2 ^ 64) ∧
    writes (.mulh d a b) s d (fun v => v.toInt = x.toInt * y.toInt / 2 ^ 64) ∧
    writes (.div d a b) s d (fun v => v =
      if y = 0 then BitVec.ofInt 64 (-1) else BitVec.ofInt 64 (x.toInt.tdiv y.toInt)) ∧
    writes (.divn d a b) s d (fun v => v.toNat = if y = 0 then 2 ^ 64 - 1 else x.toNat / y.toNat) ∧
    writes (.rem d a b) s d (fun v => v = if y = 0 then x else BitVec.ofInt 64 (x.toInt - y.toInt * x.toInt.tdiv y.toInt)) ∧
    writes (.remn d a b) s d (fun v => v.toNat = if y = 0 then x.toNat else x.toNat % y.toNat) ∧
    writes (.slt d a b) s d (fun v => v = if x.toInt < y.toInt then 1 else 0) ∧
    writes (.sltn d a b) s d (fun v => v = if x.toNat < y.toNat then 1 else 0) ∧
    writes (.min d a b) s d (fun v => v.toInt = min x.toInt y.toInt) ∧
    writes (.max d a b) s d (fun v => v.toInt = max x.toInt y.toInt) ∧
    writes (.clz d a) s d (fun v => v.toNat ≤ 64 ∧ (∀ k, 64 ≤ k + v.toNat → x.getLsbD k = false) ∧
      (v.toNat < 64 → x.getLsbD (63 - v.toNat) = true)) ∧
    writes (.popc d a) s d (fun v => v.toNat = ((List.range 64).map (fun k => if x.getLsbD k then 1 else 0)).sum) ∧
    writes (.addi d a imm) s d (fun v => v = BitVec.ofInt 64 (x.toInt + imm.toInt)) ∧
    writes (.andi d a imm) s d (fun v => ∀ k, v.getLsbD k = (x.getLsbD k && imm.getLsbD k)) ∧
    writes (.ori d a imm) s d (fun v => ∀ k, v.getLsbD k = (x.getLsbD k || imm.getLsbD k)) ∧
    writes (.xori d a imm) s d (fun v => ∀ k, v.getLsbD k = (x.getLsbD k ^^ imm.getLsbD k)) ∧
    writes (.shli d a sh) s d (fun v => v.toNat = x.toNat * 2 ^ sh.toNat % 2 ^ 64) ∧
    writes (.shri d a sh) s d (fun v => v.toNat = x.toNat / 2 ^ sh.toNat) ∧
    writes (.srai d a sh) s d (fun v => v.toInt = x.toInt / 2 ^ sh.toNat) ∧
    writes (.slti d a imm) s d (fun v => v = if x.toInt < imm.toInt then 1 else 0) ∧
    writes (.lui d imm) s d (fun v => v.toInt = imm.toInt * 2 ^ 16)

/-- R325: branches and jumps, their targets, the link registers, a target outside chart memory, and the fetch outside chart memory
after the last word. -/
def Obligations.PilotBranches : Prop :=
  ∀ (s : State) (d a b : Reg) (off imm : BitVec 16) (far : BitVec 26),
    let x := s.me.get a; let y := s.me.get b; let next := s.me.pc + 4
    let branch := fun (i : Instr) (taken : Prop) =>
      (taken → goesTo i s 0 (next + BitVec.ofInt 64 (4 * off.toInt))) ∧
      (¬ taken → ∃ t, exec i s = .next t ∧ passed s t)
    branch (.beq a b off) (x = y) ∧ branch (.bne a b off) (x ≠ y) ∧
    branch (.blt a b off) (x.toInt < y.toInt) ∧ branch (.bge a b off) (y.toInt ≤ x.toInt) ∧
    branch (.bltn a b off) (x.toNat < y.toNat) ∧ branch (.bgen a b off) (y.toNat ≤ x.toNat) ∧
    goesTo (.jal far) s 31 (next + BitVec.ofInt 64 (4 * far.toInt)) ∧
    goesTo (.jalr d a imm) s d ((x + BitVec.ofInt 64 imm.toInt) &&& ~~~ 3#64) ∧
    ∀ p l, s.agenda = .pilot p :: l → let q := s.pilot p
      s.acts p = true → q.run = .running → s.asyncCause p = none → q.waitSince = none → q.pend.any PAcc.isLoad = false →
      isChart q.pc = false → ∃ t, step s = .next (s.land t) ∧ trapped (State.atPilot { s with agenda := l } p) t 7 0 q.pc q.pc

/-- R323, R324: the loads. Chart memory answers at once; another access is put in flight and returns by PILOT_LOAD_RETURN; a
misaligned address, an address that reaches nothing and a window of others trap with nothing changed.
Where the spec leaves a point of these open the choice is the model's: log 11, 12. -/
def Obligations.PilotLoads : Prop :=
  ∀ (s : State) (d a : Reg) (imm : BitVec 16), let va := s.me.get a + BitVec.ofInt 64 imm.toInt
    let load := fun (i : Instr) (n : Nat) (sgn acq : Bool) =>
      let goes := fun (c : Nat) (w : Option Nat) =>
        (s.roomInRecord = true → ∃ t, exec i s = .next t ∧ inFlight s t (.load n sgn acq) va.toNat c d 0 w ∧
          ∀ k, t.byte k = s.byte k) ∧ (s.roomInRecord = false → exec i s = .next s)
      (va.toNat % n ≠ 0 → traps i s 2 0 va s.me.pc) ∧
      (va.toNat % n = 0 → isChart va = true →
        writes i s d (fun v => loaded n sgn (number s (chartCell s.cur.pilot (va.toNat % 65536)) n) v)) ∧
      (va.toNat % n = 0 → isChart va = false →
        match s.place s.myVd va.toNat false false s.me.tlb with
        | .cell c _ => goes c none
        | .tarn c => goes c none
        | .window w c => goes c (some w)
        | .peer _ _ => traps i s 3 1 va s.me.pc
        | .noWindow => traps i s 5 1 va s.me.pc
        | .fault c bad => ∃ t, exec i s = .next t ∧ trapped (s.afterWalk bad) t 3 c va s.me.pc)
    load (.ldN8 d a imm) 1 false false ∧ load (.ldN16 d a imm) 2 false false ∧ load (.ldN32 d a imm) 4 false false ∧
    load (.ld d a imm) 8 false false ∧ load (.ldS8 d a imm) 1 true false ∧ load (.ldS16 d a imm) 2 true false ∧
    load (.ldS32 d a imm) 4 true false ∧ load (.ldacq d a imm) 8 false true

/-- R316, R317, R323, R324, R388, R433: a load in flight waits for the earlier accesses of its location; it then returns its bytes, as the
package sees them, to its register; one that meets poison traps with cause 6, and one whose window has closed with cause 5 sub-cause 1, as
if nothing after it had issued. One that a restore has parked is translated again.
Where the spec leaves a point of these open the choice is the model's: log 12. -/
def Obligations.PilotLoadReturns : Prop :=
  ∀ (s : State) (r : Region) (x : PAcc) (n : Nat) (sgn acq : Bool), let p := s.cur.x; let k := s.cur.y
    s.acts p = true → s.regionAt p = some r → (s.pilot p).pend[k]? = some x → x.kind = .load n sgn acq → 1 ≤ n → n ≤ 8 →
    let free := x.parked = none ∧ blockedBy ((s.pilot p).pend.take k) x.cell = false
    let traps := fun (cause : DWord) => ∃ t, exec .pilotLoadReturn s = .next t ∧ (t.pilot p).trapcause = cause ∧
      (t.pilot p).trapval = BitVec.ofNat 64 x.va ∧ (t.pilot p).trapaddr = x.pc ∧ (t.pilot p).x = x.snap ∧
      (t.pilot p).pend = (s.pilot p).pend.take k
    let gives := fun (c : Nat) => (s.viewBad c = false →
      ∃ t v, exec .pilotLoadReturn s = .next t ∧ loaded n sgn (numberOf (s.view c n)) v ∧
      (∀ r, (t.pilot p).get r = if r = x.reg ∧ x.reg ≠ 0 then v else (s.pilot p).get r) ∧
      (t.pilot p).pc = (s.pilot p).pc ∧ (t.pilot p).pend.length + 1 = (s.pilot p).pend.length ∧
      t = { s with pilots := t.pilots } ∧ ∀ q, q ≠ p → t.pilot q = s.pilot q) ∧
      (s.viewBad c = true → ((s.pilot p).pend.take k).any PAcc.isLoad = false → traps 6)
    (x.parked = none → blockedBy ((s.pilot p).pend.take k) x.cell = true → exec .pilotLoadReturn s = .next s) ∧
    (free → x.window = none → gives x.cell) ∧
    (∀ w c, free → x.window.isSome = true → s.windowPlace r.vd x.va = .window w c → gives c) ∧
    (free → x.window.isSome = true → (∀ w c, s.windowPlace r.vd x.va ≠ .window w c) →
      ((s.pilot p).pend.take k).any PAcc.isLoad = false → traps 0x10005) ∧
    (x.parked.isSome = true → ∃ t, exec .pilotLoadReturn s = .next t ∧ t = { s with pilots := t.pilots } ∧
      (t.pilot p).x = (s.pilot p).x ∧ (t.pilot p).pc = (s.pilot p).pc ∧ (t.pilot p).pend.length = (s.pilot p).pend.length)

/-- R323, R114: the stores. Chart memory is written at once; another store is put in flight. The stored bytes are the low bytes
of the register, and every other byte of memory is as it was.
Where the spec leaves a point of these open the choice is the model's: log 4, 12. -/
def Obligations.PilotStores : Prop :=
  ∀ (s : State) (r b : Reg) (imm : BitVec 16),
    let va := s.me.get b + BitVec.ofInt 64 imm.toInt; let v := s.me.get r
    let store := fun (i : Instr) (n : Nat) (rel : Bool) =>
      let goes := fun (c : Nat) (w : Option Nat) =>
        ∃ t, exec i s = .next t ∧ inFlight s t (.store n rel) va.toNat c 0 v w ∧ ∀ k, t.byte k = s.byte k
      (va.toNat % n ≠ 0 → traps i s 2 0 va s.me.pc) ∧
      (va.toNat % n = 0 → isChart va = true → ∃ t, exec i s = .next t ∧
        wroteBytes s t (chartCell s.cur.pilot (va.toNat % 65536)) n v.toNat ∧ t.me = { s.me with pc := s.me.pc + 4 } ∧
        t = { s with pilots := t.pilots, stores := t.stores } ∧ ∀ q, q ≠ s.cur.pilot → t.pilot q = s.pilot q) ∧
      (va.toNat % n = 0 → isChart va = false →
        match s.place s.myVd va.toNat true true s.me.tlb with
        | .cell c _ => s.roomInRecord = true → goes c none
        | .tarn c => s.roomInRecord = true → goes c none
        | .window w c => s.roomInRecord = true → s.myUnretired < 8 → s.tagRoom s.myVd = true → goes c (some w)
        | .peer route o => s.roomInRecord = true → s.myUnretired < 8 → s.tagRoom s.myVd = true → s.peerRoom s.myVd route = true →
            s.mySendInOrder route (o / 32 * 32) = true → s.me.pend = [] →
            ∃ t, exec i s = .next t ∧ onward s t ∧ ∀ k, t.byte k = s.byte k
        | .noWindow => traps i s 5 1 va s.me.pc
        | .fault c bad => ∃ t, exec i s = .next t ∧ trapped (s.afterWalk bad) t 3 c va s.me.pc)
    store (.stN8 r b imm) 1 false ∧ store (.stN16 r b imm) 2 false ∧ store (.stN32 r b imm) 4 false ∧
    store (.st r b imm) 8 false ∧ store (.strel r b imm) 8 true

/-- R317 to R321, R348: entering and leaving a trap handler, the asynchronous traps and their order, `PARK`.
Where the spec leaves a point of these open the choice is the model's: log 15, 37. -/
def Obligations.PilotTrapsAndReturns : Prop :=
  (∀ (s : State) (code : BitVec 16), traps (.trap code) s 8 0 (BitVec.ofNat 64 code.toNat) (s.me.pc + 4)) ∧
  (∀ (s : State), s.me.pstatus.getLsbD 2 = true → ∃ t, exec .eret s = .next t ∧ t.me.pc = s.me.trapaddr ∧
    t.me.pstatus.getLsbD 0 = s.me.pstatus.getLsbD 1 ∧ t.me.pstatus.getLsbD 2 = false ∧
    (∀ k, k ≠ 0 → k ≠ 2 → t.me.pstatus.getLsbD k = s.me.pstatus.getLsbD k) ∧
    t.me = { s.me with pc := t.me.pc, pstatus := t.me.pstatus } ∧ onlyPilot s t) ∧
  (∀ (s : State), s.me.pstatus.getLsbD 2 = false → traps .eret s 1 0 s.word s.me.pc) ∧
  (∀ (s : State), ∃ t, exec .park s = .next t ∧ t.me = { s.me with pc := s.me.pc + 4, run := .parked } ∧
    (∀ q, q ≠ s.cur.pilot → t.pilot q = s.pilot q) ∧ t = { s with pilots := t.pilots, agenda := t.agenda }) ∧
  (∀ (s : State) (r : Region), let p := s.cur.x; let q := s.pilot p
    s.acts p = true → s.regionAt p = some r → r.lead = p → q.run = .running → q.pstatus.getLsbD 0 = true →
    q.pstatus.getLsbD 2 = false → q.pend.any PAcc.isLoad = false → r.rewrites.any (fun x => x.pilot = p) = false →
    let taken := fun c => ∃ t, exec .asyncTrap s = .next t ∧ trapped (s.atPilot p) (t.atPilot p) c 0 0 q.pc
    (q.pstatus.getLsbD 5 = true → r.running = .frozen → r.efrep.isSome = true → taken 0x10) ∧
    (¬ (q.pstatus.getLsbD 5 = true ∧ r.running = .frozen ∧ r.efrep.isSome = true) → q.pstatus.getLsbD 6 = true → r.sfq ≠ [] →
      taken 0x11))

/-- R315, R6: what each control register reads as, and what a write leaves; read-only fields ignore writes, and a number that
the table does not list is an illegal instruction.
Where the spec leaves a point of these open the choice is the model's: log 3, 29. -/
def Obligations.PilotControlRegisters : Prop :=
  ∀ (s : State) (d a : Reg) (n : BitVec 12) (r : Region), s.myRegion = some r →
    let q := s.me; let v := s.me.get a
    let reads := fun (x : DWord) => writes (.ctlrd d n) s d (fun y => y = x)
    let sets := fun (x : Pilot) => ∃ t, exec (.ctlwr a n) s = .next t ∧ t.me = { x with pc := q.pc + 4 } ∧ onlyPilot s t
    let lead := r.lead = s.cur.pilot
    (n = 0x000 → reads q.pstatus ∧ ∃ w, sets { q with pstatus := w } ∧
      (∀ k, k ∈ [0, 1, 5, 6] → w.getLsbD k = v.getLsbD k) ∧ w.getLsbD 7 = (q.pstatus.getLsbD 7 && !v.getLsbD 7) ∧
      (∀ k, k ∉ [0, 1, 5, 6, 7] → w.getLsbD k = q.pstatus.getLsbD k)) ∧
    (n = 0x001 → reads q.trapcause ∧ sets { q with trapcause := BitVec.ofNat 64 (v.toNat % 2 ^ 24) }) ∧
    (n = 0x002 → reads q.trapaddr ∧ sets { q with trapaddr := v }) ∧
    (n = 0x003 → reads q.trapval ∧ sets { q with trapval := v }) ∧
    (n = 0x004 → reads q.tvec ∧ sets { q with tvec := BitVec.ofNat 64 (v.toNat % 2 ^ 16 / 4 * 4) }) ∧
    (n = 0x005 → reads q.pscratch ∧ sets { q with pscratch := v }) ∧
    (n = 0x008 → reads s.chron ∧ sets q) ∧
    (n = 0x009 → reads (s.vd r.vd).guest ∧ sets q) ∧
    (n = 0x00A → reads (s.vd r.vd).stolen ∧ sets q) ∧
    (n = 0x010 → sets q ∧ reads (BitVec.ofNat 64 ((if lead then 4096 else 0) + s.cur.pilot / 8 * 512 + s.cur.pilot % 8 * 64 +
      (r.bands - 1) * 8 + (s.cur.pilot - r.lead)))) ∧
    (n = 0x011 → sets q ∧ reads (match r.cur with | some b => BitVec.ofNat 64 (b.inc % 2 ^ 32) | none => 0)) ∧
    (n = 0x012 → sets q ∧ reads (BitVec.ofNat 64 (min 2 r.compQ.length * 64 + r.running.code * 16 + r.shadow.code))) ∧
    (n = 0x020 → sets q ∧ reads (match r.efrep with | some e => if lead then e.w0 else 0 | none => 0)) ∧
    (n = 0x021 → sets q ∧ reads (match r.efrep with | some e => if lead then e.w1 else 0 | none => 0)) ∧
    (n ∈ [0x022, 0x02C, 0x02D] → reads 0) ∧
    (n = 0x028 → sets q ∧ reads (match r.sfq with | e :: _ => if lead then e.w0 else 0 | [] => 0)) ∧
    (n = 0x029 → sets q ∧ reads (match r.sfq with | e :: _ => if lead then e.w1 else 0 | [] => 0)) ∧
    (n = 0x02A → sets q ∧ reads (match r.sfq with | e :: _ => if lead then e.w2 else 0 | [] => 0)) ∧
    (n = 0x02B → sets q ∧ reads (match r.sfq with | e :: _ => if lead then e.w3 else 0 | [] => 0)) ∧
    (n ∉ [0x000, 0x001, 0x002, 0x003, 0x004, 0x005, 0x008, 0x009, 0x00A, 0x010, 0x011, 0x012, 0x020, 0x021, 0x022, 0x028,
      0x029, 0x02A, 0x02B, 0x02C, 0x02D] → traps (.ctlrd d n) s 1 0 s.word q.pc ∧ traps (.ctlwr a n) s 1 0 s.word q.pc) ∧
    writes (.chron d) s d (fun y => y = (s.vd r.vd).guest)

/-- R116, R326, R327, R76: fences wait for the earlier accesses and an image's read, at `SYSTEM` scope for the host and the far modules
too; `WAITW` takes the word when its condition holds and waits otherwise, traps on poison and on an address that reaches no memory; its
recheck is the same instruction again.
Where the spec leaves a point of these open the choice is the model's: log 13, 26. -/
def Obligations.PilotFencesAndWaits : Prop :=
  (∀ (s : State) (sc : BitVec 3),
    let open4 := s.hostOpen s.myVd = true ∨ s.hb.snoops ≠ [] ∨ s.sendsOpen s.myVd = true
    (sc = 0 → ∃ t, exec (.fence sc) s = .next t ∧ passed s t) ∧
    (sc ≠ 0 → sc.toNat ≤ 4 → s.me.pend = [] → s.imageLoading = false → ¬ (sc = 4 ∧ open4) →
      ∃ t, exec (.fence sc) s = .next t ∧ passed s t) ∧
    (sc ≠ 0 → s.me.pend ≠ [] ∨ s.imageLoading = true ∨ (sc = 4 ∧ open4) → exec (.fence sc) s = .next s)) ∧
  (∀ (s : State) (d a b : Reg) (c : BitVec 3) (cell : Nat), c.toNat ≤ 5 →
    let va := s.me.get a; let y := s.me.get b; let w := BitVec.ofNat 64 (numberOf (s.view cell 8)); let i := Instr.waitw d a b c
    let holds := (c = 0 ∧ w = y) ∨ (c = 1 ∧ w ≠ y) ∨ (c = 2 ∧ y.toNat ≤ w.toNat) ∨ (c = 3 ∧ w.toNat < y.toNat) ∨
      (c = 4 ∧ y.toInt ≤ w.toInt) ∨ (c = 5 ∧ w.toInt < y.toInt)
    va.toNat % 8 = 0 → reaches s va false cell →
    (blockedBy s.me.pend cell = true → exec i s = .next s) ∧
    (blockedBy s.me.pend cell = false → s.viewBad cell = true → ∃ t, exec i s = .next t ∧ trapped (s.afterRead cell) t 6 0 va s.me.pc) ∧
    (blockedBy s.me.pend cell = false → s.viewBad cell = false →
      (holds → ∃ t, exec i s = .next t ∧ onlyPilot s t ∧ (∀ r, t.me.get r = if r = d ∧ d ≠ 0 then w else s.me.get r) ∧
        t.me = { s.me with x := t.me.x, pc := s.me.pc + 4, waitSince := none }) ∧
      (¬ holds → ∃ t, exec i s = .next t ∧ onlyPilot s t ∧ t.me = { s.me with waitSince := some s.chron.toNat }))) ∧
  (∀ (s : State) (d a b : Reg) (c : BitVec 3), let va := s.me.get a; let i := Instr.waitw d a b c
    (va.toNat % 8 ≠ 0 → traps i s 2 0 va s.me.pc) ∧
    (va.toNat % 8 = 0 → isChart va = false → match s.place s.myVd va.toNat false false s.me.tlb with
      | .peer _ _ => traps i s 3 1 va s.me.pc
      | .noWindow => traps i s 5 1 va s.me.pc
      | .fault c bad => ∃ t, exec i s = .next t ∧ trapped (s.afterWalk bad) t 3 c va s.me.pc
      | _ => True)) ∧
  (∀ (s : State) (d a b : Reg) (c : BitVec 3), s.acts s.cur.x = true → (s.pilot s.cur.x).run = .running →
    (s.pilot s.cur.x).waitSince.isSome = true → decodePilot ((s.atPilot s.cur.x).word.toNat) = .ok (.waitw d a b c) →
    exec .pilotWaitwRecheck s = exec (.waitw d a b c) (s.atPilot s.cur.x))

/-- R117, R118, R328, R361: an atomic reads its word, writes the new one at once and puts the original in flight to `xd`; nothing is
applied to a poisoned line; a tag found in the table is answered with its stored result; every other address traps; the original
returns to the register. An atomic waits while an access of its location is in flight, an ordered one while any is, and for room.
Where the spec leaves a point of these open the choice is the model's: log 12, 19. -/
def Obligations.PilotAtomics : Prop :=
  (∀ (s : State) (d a b : Reg) (ord : BitVec 1) (f : BitVec 4), f.toNat ≤ 9 →
    let va := s.me.get a; let y := s.me.get b; let old := s.me.get d; let i := Instr.atom d a b ord f; let tag := s.myTag.1
    let answers := fun (t : State) (c : Nat) (v : DWord) (tag : Nat) => onward s t ∧
      ∃ x, t.me.pend = s.me.pend ++ [x] ∧ x.kind = .atom ∧ x.reg = d ∧ x.data = v ∧ x.cell = c ∧ x.tag = tag
    let done := fun (c : Nat) =>
      let m := BitVec.ofNat 64 (number s c 8)
      let goes := blockedBy s.me.pend c = false ∧ (ord = 1 → s.me.pend = []) ∧ s.myUnretired < 8 ∧ s.roomInRecord = true ∧
        s.tagRoom s.myVd = true ∧ (s.atUnit c).length < 64 ∧ ∀ u ∈ s.atUnit c, unitOf u.2 ≠ unitOf c
      let before := s.me.redo.find? (fun x => x.sameAtom s.me.pc va)
      (isHbm c = false → isRes c = false → traps i s 4 1 va s.me.pc) ∧
      (isHbm c = true ∨ isRes c = true →
        (∀ x, before = some x → ∃ t, exec i s = .next t ∧ answers t c x.data x.tag ∧ ∀ k, t.byte k = s.byte k) ∧
        (before = none → ¬ goes → exec i s = .next s) ∧
        (before = none → goes → match s.myTag.2.lookup tag c f.toNat with
          | .fresh =>
            (s.badAt c = false → ∃ t new, exec i s = .next t ∧ answers t c m tag ∧ (healthy s c → wroteBytes s t c 8 new.toNat) ∧
              (f = 0 → new = m + y) ∧ (f = 1 → new = m &&& y) ∧ (f = 2 → new = m ||| y) ∧ (f = 3 → new = m ^^^ y) ∧
              (f = 4 → new.toInt = min m.toInt y.toInt) ∧ (f = 5 → new.toInt = max m.toInt y.toInt) ∧
              (f = 6 → new.toNat = min m.toNat y.toNat) ∧ (f = 7 → new.toNat = max m.toNat y.toNat) ∧
              (f = 8 → new = y) ∧ (f = 9 → new = if m = old then y else m)) ∧
            (s.badAt c = true → ∃ t, exec i s = .next t ∧ t.me.trapcause = 6 ∧ t.me.trapval = va ∧ t.me.trapaddr = s.me.pc ∧
              t.me.x = s.me.x ∧ ∀ k, t.byte k = s.byte k)
          | .again e => ∃ t, exec i s = .next t ∧ answers t c e.result tag ∧ ∀ k, t.byte k = s.byte k
          | .mismatch => ∃ t, exec i s = .next t ∧ trapped (s.myTag.2.mismatched tag (stackOfCell c)) t 6 0 va s.me.pc))
    (va.toNat % 8 ≠ 0 → traps i s 2 0 va s.me.pc) ∧
    (va.toNat % 8 = 0 → isChart va = true → traps i s 4 1 va s.me.pc) ∧
    (va.toNat % 8 = 0 → isChart va = false → match s.place s.myVd va.toNat true false s.me.tlb with
      | .cell c _ => done c
      | .window _ c => done c
      | .tarn _ => traps i s 4 1 va s.me.pc
      | .peer _ _ => traps i s 3 1 va s.me.pc
      | .noWindow => traps i s 5 1 va s.me.pc
      | .fault c bad => ∃ t, exec i s = .next t ∧ trapped (s.afterWalk bad) t 3 c va s.me.pc)) ∧
  (∀ (s : State) (x : PAcc), let p := s.cur.x
    s.acts p = true → (s.pilot p).pend[s.cur.y]? = some x → x.kind = .atom →
    ∃ t, exec .pilotLoadReturn s = .next t ∧ (t.pilot p).pc = (s.pilot p).pc ∧
      ∀ r, (t.pilot p).get r = if r = x.reg ∧ x.reg ≠ 0 then x.data else (s.pilot p).get r)

/-- R347, R181: `CPY` copies a granule, poison and all, advances its registers and goes on with the rest; a count of 0 has no effect; a
misaligned operand, a chart range, an address that reaches no memory and a line that fails its check trap, the registers naming the
granule not copied. Where the count's register is an address too, the three advance one after the other.
Where the spec leaves a point of these open the choice is the model's: log 9, 18. -/
def Obligations.PilotCopies : Prop :=
  ∀ (s : State) (d a b : Reg), let n := s.me.get d; let dst := s.me.get a; let src := s.me.get b; let i := Instr.cpy d a b
    let legal := n ≠ 0 ∧ dst.toNat % 32 = 0 ∧ src.toNat % 32 = 0 ∧ n.toNat % 32 = 0 ∧ n.toNat < 2 ^ 32
    let far := meetsChart dst n.toNat = false ∧ meetsChart src n.toNat = false
    (n = 0 → ∃ t, exec i s = .next t ∧ passed s t) ∧
    (n ≠ 0 → dst.toNat % 32 ≠ 0 → traps i s 2 0 dst s.me.pc) ∧
    (n ≠ 0 → dst.toNat % 32 = 0 → src.toNat % 32 ≠ 0 → traps i s 2 0 src s.me.pc) ∧
    (n ≠ 0 → dst.toNat % 32 = 0 → src.toNat % 32 = 0 → n.toNat % 32 ≠ 0 ∨ 2 ^ 32 ≤ n.toNat → traps i s 2 0 dst s.me.pc) ∧
    (legal → meetsChart dst n.toNat = true → traps i s 4 2 dst s.me.pc) ∧
    (legal → meetsChart dst n.toNat = false → meetsChart src n.toNat = true → traps i s 4 2 src s.me.pc) ∧
    (legal → far → s.me.pend ≠ [] ∨ s.roomInRecord = false → exec i s = .next s) ∧
    (legal → far → s.me.pend = [] → s.roomInRecord = true →
      (∀ c sub bad, s.granuleAt src.toNat false = .error (c, sub, bad) →
        ∃ t, exec i s = .next t ∧ trapped (s.afterWalk bad) t c sub src s.me.pc) ∧
      ∀ p, s.granuleAt src.toNat false = .ok p →
        (∀ c sub bad, s.granuleAt dst.toNat true = .error (c, sub, bad) →
          ∃ t, exec i s = .next t ∧ trapped (s.afterWalk bad) t c sub dst s.me.pc) ∧
        ∀ q, s.granuleAt dst.toNat true = .ok q →
          (s.check p = .failed → ∃ t, exec i s = .next t ∧ trapped (s.afterRead p) t 6 0 src s.me.pc) ∧
          (s.check p ≠ .failed → ∃ u, u.me.pc = s.me.pc ∧ (∀ r, u.me.get r = (s.me.granuleDone d a b).get r) ∧
            u.me.pstatus = (if s.viewBad p = true then s.me.pstatus ||| 0x80 else s.me.pstatus) ∧
            (s.viewBad p = false → isHost q = false → healthy s q → wroteBytes s u q 32 (numberOf (s.view p 32))) ∧
            (n = 32 → u.me.get d = 0 → ∃ t, exec i s = .next t ∧ passed u t) ∧
            (n = 32 → u.me.get d ≠ 0 → exec i s = .next u) ∧
            (d ≠ a → d ≠ b → a ≠ b → a ≠ 0 → b ≠ 0 → exec i s = exec i u ∧ u.me.get d = n - 32 ∧ u.me.get a = dst + 32 ∧
              u.me.get b = src + 32 ∧ ∀ r, r ≠ d → r ≠ a → r ≠ b → u.me.get r = s.me.get r)))

/-- R129, R130, R346, R362, R364: `WINACQ` and `WINREL` on a handle of a window of which the VD is a member, and on any other. A release
waits for the VD's stores to the window, for an unretired operation of the pilot fewer than eight, and for room in the record and in the
suppression table.
Where the spec leaves a point of these open the choice is the model's: log 26. -/
def Obligations.PilotWindows : Prop :=
  ∀ (s : State) (a : Reg), let h := s.me.get a
    (s.handleSlot s.myVd h = none → traps (.winacq a) s 5 1 h s.me.pc ∧ traps (.winrel a) s 5 1 h s.me.pc) ∧
    (∀ w, s.handleSlot s.myVd h = some w →
      (s.me.pend.any (fun x => x.isLoad && x.window = some w) = false → ∃ t, exec (.winacq a) s = .next t ∧ passed s t) ∧
      (s.me.pend.any (fun x => x.isLoad && x.window = some w) = true → exec (.winacq a) s = .next s) ∧
      (s.windowOpen s.myVd w = true ∨ 8 ≤ s.myUnretired ∨ s.roomInRecord = false ∨ s.tagRoom s.myVd = false →
        exec (.winrel a) s = .next s) ∧
      (s.windowOpen s.myVd w = false → s.myUnretired < 8 → s.roomInRecord = true → s.tagRoom s.myVd = true →
        ∃ t, exec (.winrel a) s = .next t ∧ onward s t ∧ ∀ k, t.byte k = s.byte k))

/-- R329 to R333, R335: `BLKLD`, `BLKGO` and `BLKARM` in every state of the shadow and running parts (the table of R330); a launched block
enters the completion queue, which keeps two entries.
Where the spec leaves a point of these open the choice is the model's: log 26, 30. -/
def Obligations.PilotBlockControl : Prop :=
  ∀ (s : State) (r : Region) (a : Reg) (mask : BitVec 8), s.myRegion = some r →
    let va := s.me.get a; let ld := Instr.blkld a mask; let go := Instr.blkgo mask; let arm := Instr.blkarm mask
    let quiet := s.me.pend = [] ∧ s.roomInRecord = true
    (r.maskOk mask.toNat true = false → traps ld s 1 0 s.word s.me.pc ∧ traps go s 1 0 s.word s.me.pc ∧ traps arm s 1 0 s.word s.me.pc) ∧
    (r.maskOk mask.toNat true = true →
      (va.toNat % 64 ≠ 0 → traps ld s 2 0 va s.me.pc) ∧
      (va.toNat % 64 = 0 → isChart va = true → traps ld s 4 2 va s.me.pc) ∧
      (va.toNat % 64 = 0 → isChart va = false →
        (r.lead ≠ s.cur.pilot → traps ld s 0x0B 0 s.word s.me.pc) ∧
        (r.lead = s.cur.pilot →
          (r.shadow = .loading ∨ r.shadow = .armed ∨ r.shadow = .swapping → traps ld s 0x0C 0 r.fabstat s.me.pc) ∧
          (r.shadow = .empty ∨ r.shadow = .loaded ∨ r.shadow = .failed → quiet → ∃ t, exec ld s = .next t ∧ onward s t ∧
            regionNow t { r with shadow := .loading, loadAddr := va.toNat, shImg := none } ∧ ∀ k, t.byte k = s.byte k) ∧
          (r.shadow = .empty ∨ r.shadow = .loaded ∨ r.shadow = .failed → ¬ quiet → exec ld s = .next s))) ∧
      (r.running = .none → r.shadow = .failed → traps go s 0x0A r.failSub r.failInfo s.me.pc) ∧
      (r.lead ≠ s.cur.pilot → ¬ (r.running = .none ∧ r.shadow = .failed) → traps go s 0x0B 0 s.word s.me.pc) ∧
      (r.lead = s.cur.pilot → r.running ≠ .none → traps go s 0x0C 0 r.fabstat s.me.pc) ∧
      (r.lead = s.cur.pilot → r.running = .none → r.shadow = .empty → traps go s 0x0D 0 r.fabstat s.me.pc) ∧
      (r.lead = s.cur.pilot → r.running = .none → r.shadow = .swapping → traps go s 0x0C 0 r.fabstat s.me.pc) ∧
      (r.lead = s.cur.pilot → r.running = .none → r.shadow = .loading → exec go s = .next s) ∧
      (r.lead = s.cur.pilot → r.running = .none → r.shadow = .loaded ∨ r.shadow = .armed → s.me.pend ≠ [] → exec go s = .next s) ∧
      (r.lead = s.cur.pilot → r.running = .none → r.shadow = .loaded ∨ r.shadow = .armed → s.me.pend = [] → ∀ m, r.shImg = some m →
        ∃ t q b, exec go s = .next t ∧ onward s t ∧ regionNow t q ∧ q.running = .running ∧ q.cur = some b ∧ b.inc = s.incs ∧
          b.img = m ∧ t.incs = s.incs + 1 ∧ q.shImg = r.actImg ∧ q.actImg = some m ∧
          q.shadow = (if r.actImg.isSome = true then .loaded else .empty) ∧
          q.compQ = (r.compQ ++ [({ inc := s.incs, status := none, wbs := [] } : Comp)]).drop (r.compQ.length - 1) ∧
          (∀ p, r.lead ≤ p → p < r.lead + r.bands → (t.pilot p).inj = Vector.replicate 16 0) ∧ ∀ k, t.byte k = s.byte k) ∧
      (r.shadow = .failed → traps arm s 0x0A r.failSub r.failInfo s.me.pc) ∧
      (r.shadow ≠ .failed → r.lead ≠ s.cur.pilot → traps arm s 0x0B 0 s.word s.me.pc) ∧
      (r.lead = s.cur.pilot → r.shadow = .loading → exec arm s = .next s) ∧
      (r.lead = s.cur.pilot → r.shadow = .empty → traps arm s 0x0D 0 r.fabstat s.me.pc) ∧
      (r.lead = s.cur.pilot → r.shadow = .swapping → traps arm s 0x0C 0 r.fabstat s.me.pc) ∧
      (r.lead = s.cur.pilot → r.shadow = .armed → ∃ t, exec arm s = .next t ∧ passed s t) ∧
      (r.lead = s.cur.pilot → r.shadow = .loaded → ∃ t, exec arm s = .next t ∧ onward s t ∧
        regionNow t { r with shadow := .armed, armedAt := s.cycle } ∧ ∀ k, t.byte k = s.byte k))

/-- R335, R336, R342 to R344: completion statuses and write-backs; the end of a frozen block, and of both blocks of a swap, once what it
has performed is ordered before it; stream reports; the resumption of the stream that a value names, and of nothing else. `CTLWR` to the
three registers is the same instruction.
Where the spec leaves a point of these open the choice is the model's: log 29. -/
def Obligations.PilotBlockResults : Prop :=
  ∀ (s : State) (r : Region) (d a : Reg) (mask : BitVec 8) (n : BitVec 4), s.myRegion = some r →
    let v := s.me.get a; let w := v.toNat; let wait := Instr.blkwait d mask; let wb := Instr.wbrd d mask n
    let ends := Instr.rgnctlEnd a; let pop := Instr.sfctlPop a; let res := Instr.sfresume a
    (r.maskOk mask.toNat true = true → r.lead = s.cur.pilot →
      (r.compQ = [] → writes wait s d (fun v => v = 0)) ∧
      (∀ c q, r.compQ = c :: q → c.status = none → exec wait s = .next s) ∧
      (∀ c q v, r.compQ = c :: q → c.status = some v → ∃ t, exec wait s = .next t ∧
        (∀ k, t.me.get k = if k = d ∧ d ≠ 0 then BitVec.ofNat 64 v.toNat else s.me.get k) ∧ t.me.pc = s.me.pc + 4 ∧
        regionNow t { r with compQ := q, lastWbs := c.wbs }) ∧
      writes wb s d (fun v => v = tget r.lastWbs n.toNat 0)) ∧
    (r.maskOk mask.toNat true = true → r.lead ≠ s.cur.pilot → traps wait s 0x0B 0 s.word s.me.pc ∧ traps wb s 0x0B 0 s.word s.me.pc) ∧
    (r.maskOk mask.toNat true = false → traps wait s 1 0 s.word s.me.pc ∧ traps wb s 1 0 s.word s.me.pc) ∧
    (v.getLsbD 0 = true → r.running = .frozen → s.mayEnd r = false → exec ends s = .next s) ∧
    (v.getLsbD 0 = true → r.running = .frozen → s.mayEnd r = true →
      ∃ t q, exec ends s = .next t ∧ onward s t ∧ regionNow t q ∧ q.running = .none ∧ q.cur = none ∧ q.succ = none ∧ q.efrep = none ∧
        q.shadow = (if r.shadow = .swapping then .empty else r.shadow) ∧ q.compQ.length = r.compQ.length ∧
        ∀ (k : Nat) (c : Comp) (b : Block), r.compQ[k]? = some c → r.cur = some b ∨ (r.shadow = .swapping ∧ r.succ = some b) →
          c.inc = b.inc → c.status = none → ∃ c' : Comp, q.compQ[k]? = some c' ∧
            c'.status = some (BitVec.ofNat 34 (0x80000000 + (match r.efrep with | some e => (e.w0 >>> 48).toNat | none => 0)))) ∧
    (v.getLsbD 0 = false ∨ r.running ≠ .frozen → ∃ t, exec ends s = .next t ∧ passed s t) ∧
    (v.getLsbD 0 = true → ∃ t, exec pop s = .next t ∧ onward s t ∧ regionNow t { r with sfq := r.sfq.tail }) ∧
    (v.getLsbD 0 = false → ∃ t, exec pop s = .next t ∧ passed s t) ∧
    (let stray := bits w (if v.getLsbD 55 = true then 50 else 32) (if v.getLsbD 55 = true then 5 else 18) ≠ 0
     let path := (elemAt (bits w 41 9) (bits w 34 7), bits w 32 2)
     let back := fun (b : Block) =>
      { b with binds := b.binds.modify (bits w 50 5) (fun x => if x.park.isSome then { x with park := none, te := none } else x) }
     (stray → ∃ t, exec res s = .next t ∧ passed s t) ∧
     (¬ stray → v.getLsbD 55 = false → ∃ t, exec res s = .next t ∧ onward s t ∧ (∀ g, t.edge g = s.edge g) ∧
      regionNow t { r with cur := r.cur.map back, succ := r.succ.map back, prev := r.prev.map back }) ∧
     (¬ stray → v.getLsbD 55 = true → ∃ t, exec res s = .next t ∧ onward s t ∧ regionNow t r ∧ ∀ g,
      (r.holds (pilotOfCol (g / 2)) = false → t.edge g = s.edge g) ∧
      (r.holds (pilotOfCol (g / 2)) = true → t.edge g = { s.edge g with cmds := (s.edge g).cmds.map (fun c =>
        if c.park.isSome && c.path g = path then { c with park := none, te := none, te2 := none } else c) }))) ∧
    exec (.ctlwr a 0x022) s = exec ends s ∧ exec (.ctlwr a 0x02C) s = exec pop s ∧ exec (.ctlwr a 0x02D) s = exec res s

/-- R201, R202, R337, R338: `RESTEER` and `CFGWR`: the checks in their order; a rewrite queued after those before it, in one cycle by pilot,
with the set that each router uses now, its pilot waiting until SWITCH_REWRITE_APPLY completes the instruction; the constant, divider
and loop count written in the slot named; every other value traps.
Where the spec leaves a point of these open the choice is the model's: log 37. -/
def Obligations.PilotSteering : Prop :=
  ∀ (s : State) (r : Region) (d a : Reg) (mask : BitVec 8), s.myRegion = some r →
    let v := s.me.get a; let w := v.toNat; let n := (s.me.get d).toNat; let part := r.maskOk mask.toNat false; let all := r.maskOk mask.toNat true
    let re := Instr.resteer d a mask; let sw := Instr.cfgwrSw a mask; let con := Instr.cfgwrConst a mask
    let div := Instr.cfgwrDiv a mask; let loop := Instr.cfgwrLoop a mask; let recs := s.chartRecs w n; let lead := r.lead = s.cur.pilot
    let queued := fun (i : Instr) (l : List SwRec) => ∃ t q x, exec i s = .next t ∧ t.me = s.me ∧ regionNow t q ∧
      (∃ l1 l2, r.rewrites = l1 ++ l2 ∧ q.rewrites = l1 ++ x :: l2 ∧ (∀ y ∈ l1, ¬ (y.issued = s.cycle ∧ s.cur.pilot < y.pilot)) ∧
        ∀ y, l2.head? = some y → y.issued = s.cycle ∧ s.cur.pilot < y.pilot) ∧
      x.pilot = s.cur.pilot ∧ x.recs = l ∧ x.issued = s.cycle ∧
      (∀ e k, (e, k) ∈ x.banks ↔ (∃ y ∈ l, e ∈ y.routers r.lead) ∧ k = (s.elem e).core.active) ∧ ∀ k, t.byte k = s.byte k
    let needs := fun (i : Instr) (shadow : Bool) (ready : Prop) =>
      (shadow = true → (r.shadow = .empty → traps i s 0x0D 0 r.fabstat s.me.pc) ∧
        (r.shadow = .loading ∨ r.shadow = .failed ∨ r.shadow = .swapping → traps i s 0x0C 0 r.fabstat s.me.pc) ∧
        (r.shadow = .loaded ∨ r.shadow = .armed → ready)) ∧
      (shadow = false → (r.running = .none → traps i s 0x0D 0 r.fabstat s.me.pc) ∧
        (r.running = .frozen → traps i s 0x0C 0 r.fabstat s.me.pc) ∧ (r.running = .running → ready))
    (part = false → traps re s 1 0 s.word s.me.pc ∧ traps sw s 1 0 s.word s.me.pc ∧ traps con s 1 0 s.word s.me.pc) ∧
    (all = false → traps div s 1 0 s.word s.me.pc ∧ traps loop s 1 0 s.word s.me.pc) ∧
    (all = true → ¬ lead → traps div s 0x0B 0 s.word s.me.pc ∧ traps loop s 0x0B 0 s.word s.me.pc) ∧
    (part = true → s.rewriting r = true → exec re s = .next s ∧ exec sw s = .next s) ∧
    (part = true → s.rewriting r = false →
      (w % 8 ≠ 0 → traps re s 2 0 v s.me.pc) ∧
      (w % 8 = 0 → isChart v = false ∨ w % 65536 + 8 * n > 65536 → traps re s 4 2 v s.me.pc) ∧
      (w % 8 = 0 → isChart v = true → w % 65536 + 8 * n ≤ 65536 →
        (r.running ≠ .running → traps re s 0x0D 0 r.fabstat s.me.pc) ∧
        (r.running = .running → n = 0 ∨ n > 256 → traps re s 0x0E 2 (s.me.get d) s.me.pc) ∧
        (r.running = .running → 0 < n → n ≤ 256 →
          (∀ k, k < n → (∀ j x, j < k → recs[j]? = some x → r.recOk mask.toNat x = true) →
            (∃ x, recs[k]? = some x ∧ r.recOk mask.toNat x = false) → traps re s 0x0E 1 (BitVec.ofNat 64 k) s.me.pc) ∧
          ((∀ x ∈ recs, r.recOk mask.toNat x = true) → queued re (recs.map (fun x => x.1))))) ∧
      (r.running = .none → traps sw s 0x0D 0 r.fabstat s.me.pc) ∧
      (r.running = .frozen → traps sw s 0x0C 0 r.fabstat s.me.pc) ∧
      (r.running = .running → r.recOk mask.toNat (swRecOf w) = false → traps sw s 0x0E 1 0 s.me.pc) ∧
      (r.running = .running → r.recOk mask.toNat (swRecOf w) = true → queued sw [(swRecOf w).1])) ∧
    (part = true → needs con (bit w 49) (
      let inside := bits w 36 6 < 8 * r.bands ∧ bit mask.toNat ((r.lead + bits w 36 6 / 8) % 8) = true
      (¬ inside → traps con s 0x0E 1 v s.me.pc) ∧
      (inside → bits w 50 14 ≠ 0 → traps con s 0x0E 4 v s.me.pc) ∧
      (inside → bits w 50 14 = 0 → ∃ t, exec con s = .next t ∧ t.me = { s.me with pc := s.me.pc + 4 } ∧
        let e := elemAt (8 * r.lead + bits w 36 6) (bits w 42 7); let m := (s.elem e).core; let m' := (t.elem e).core
        let b := if bit w 49 = true then 1 - m.active else m.active
        m' = { m with cfg := m'.cfg } ∧ (∀ k, k ≠ b → vg m'.cfg k ElemCfg.empty = vg m.cfg k ElemCfg.empty) ∧
        (b < 2 → ∀ k, k < 16 → vg (vg m'.cfg b ElemCfg.empty).consts k 0 =
          if k = bits w 32 4 then BitVec.ofNat 32 w else vg (vg m.cfg b ElemCfg.empty).consts k 0) ∧
        ∀ f, f ≠ e → t.elem f = s.elem f))) ∧
    (all = true → lead → needs div (bit w 7) (
      let put := fun (m : Image) => { m with div := vs m.div (bits w 0 4) (bits w 4 3) }
      (bits w 4 3 ∉ [1, 2, 3, 4] ∨ bits w 8 56 ≠ 0 → traps div s 0x0E 4 v s.me.pc) ∧
      (bits w 4 3 ∈ [1, 2, 3, 4] → bits w 8 56 = 0 → ∃ t, exec div s = .next t ∧ onward s t ∧
        regionNow t (if bit w 7 = true then { r with shImg := r.shImg.map put }
          else { r with div := vs r.div (bits w 0 4) (bits w 4 3), actImg := r.actImg.map put })))) ∧
    (all = true → lead → needs loop true (
      let put := fun (m : Image) => { m with loops := vs m.loops (bits w 32 2) (bits w 0 32) }
      let gap := ∃ m k j, r.shImg = some m ∧ k < j ∧ j < 4 ∧ vg (put m).loops k 0 = 0 ∧ vg (put m).loops j 0 ≠ 0
      (bits w 34 30 ≠ 0 ∨ gap → traps loop s 0x0E 4 v s.me.pc) ∧
      (bits w 34 30 = 0 → ¬ gap → ∃ t, exec loop s = .next t ∧ onward s t ∧ regionNow t { r with shImg := r.shImg.map put })))

/-- R339, R340: injections on every named port queue, the round they take and what they do to the counter, and what traps.
Where the spec leaves a point of these open the choice is the model's: log 22. -/
def Obligations.PilotInjections : Prop :=
  ∀ (s : State) (r : Region) (a : Reg) (mask : BitVec 8) (port : BitVec 4) (tag : BitVec 2), s.myRegion = some r →
    let va := s.me.get a; let v := BitVec.ofNat 256 (number s (chartCell s.cur.pilot (va.toNat % 65536)) 32)
    let injects := fun (i : Instr) (payload : Payload) (kind tg : BitVec 2) =>
      (r.maskOk mask.toNat false = false → traps i s 1 0 s.word s.me.pc) ∧
      (r.maskOk mask.toNat false = true →
        (va.toNat % 32 ≠ 0 → traps i s 2 0 va s.me.pc) ∧ (va.toNat % 32 = 0 → isChart va = false → traps i s 4 2 va s.me.pc) ∧
        (va.toNat % 32 = 0 → isChart va = true → r.running ≠ .running → traps i s 0x0D 0 r.fabstat s.me.pc) ∧
        (va.toNat % 32 = 0 → isChart va = true → r.running = .running →
          (kind = 2 → payload.toNat % 4 = 2 ∨ payload.toNat / 4 ≠ 0 ∨ tag ≠ 0 → traps i s 0x0E 3 (v.extractLsb' 0 64) s.me.pc) ∧
          ((kind = 2 → payload.toNat < 4 ∧ payload.toNat ≠ 2 ∧ tag = 0) →
            ((∃ p ∈ r.masked mask.toNat, 2 ≤ (vg (s.pilot p).injq port.toNat []).length) → exec i s = .next s) ∧
            ((∀ p ∈ r.masked mask.toNat, (vg (s.pilot p).injq port.toNat []).length < 2) →
              ∃ t, exec i s = .next t ∧ onward s t ∧ (∀ k, t.byte k = s.byte k) ∧
                ∀ p ∈ r.masked mask.toNat,
                  vg (t.pilot p).injq port.toNat [] = vg (s.pilot p).injq port.toNat [] ++
                    [{ payload := payload, kind := kind, round := vg (s.pilot p).inj port.toNat 0, tag := tg, poison := false,
                       src := 0 }] ∧
                  vg (t.pilot p).inj port.toNat 0 = (if kind = 2 ∧ payload = 0 then vg (s.pilot p).inj port.toNat 0 + 1
                    else if kind = 2 ∧ payload = 3 then 0 else vg (s.pilot p).inj port.toNat 0)))))
    injects (.injectData a mask port tag) v 0 tag ∧ injects (.injectNull a mask port tag) 0 1 tag ∧
    injects (.injectMark a mask port tag) v 2 0

/-- R76, R345, R361, R362, R365, R385, R456: the convoy instructions of a lead pilot: the errors in their order, membership, arrivals and
waits of a convoy of its own module, a wait for a convoy that has stopped being live among them; on a convoy of another module the record sent, and what its answer does. A number above 16 bits is an
illegal instruction; the lead pilot alone issues them.
Where the spec leaves a point of these open the choice is the model's: log 17, 19. -/
def Obligations.PilotConvoys : Prop :=
  ∀ (s : State) (r : Region) (d a : Reg), s.myRegion = some r →
    let c := (s.me.get a).toNat; let all := [(Instr.cvjoin a, 1), (.cvarrive a, 2), (.cvwait d a, 3), (.cvleave a, 4)]
    let err := fun i sub => traps i s 9 sub (BitVec.ofNat 64 c) s.me.pc
    let lead := r.lead = s.cur.pilot; let tagRoom := s.myUnretired < 8 ∧ s.roomInRecord = true ∧ s.tagRoom s.myVd = true
    let room := tagRoom ∧ (s.unitHeld (s.homeStack r.vd) (c % 16)).length < 64
    let ended := ((s.vd r.vd).endedArrival c r.graph = none → err (.cvwait d a) 5) ∧
      ∀ ph, (s.vd r.vd).endedArrival c r.graph = some ph → (¬ lead → traps (.cvwait d a) s 0x0B 0 s.word s.me.pc) ∧
        (lead → ∃ t, exec (.cvwait d a) s = .next t ∧ t.me.pc = s.me.pc + 4 ∧
          (∀ k, t.me.get k = if k = d ∧ d ≠ 0 then BitVec.ofNat 64 ph.toNat else s.me.get k) ∧
          (t.vd r.vd).endedArrival c r.graph = none)
    let fresh := fun op => (s.nextTag r r.inc (r.pilotSource s.cur.pilot) 0).2.lookup (s.nextTag r r.inc (r.pilotSource s.cur.pilot) 0).1
      (s.convoyLoc r.vd c) op = .fresh
    let ready := lead ∧ room ∧ fresh 0x50 ∧ fresh 0x51 ∧ fresh 0x52
    (65536 ≤ c → ∀ i op, (i, op) ∈ all → traps i s 1 0 s.word s.me.pc) ∧
    (c < 65536 → s.peerConvoy r.vd c = none →
     (s.convoy r.vd c = none → ((s.vd r.vd).convoys.length ≥ 256 → err (.cvjoin a) 1) ∧ err (.cvleave a) 4 ∧ err (.cvarrive a) 4 ∧ ended ∧
      ((s.vd r.vd).convoys.length < 256 → ¬ lead → traps (.cvjoin a) s 0x0B 0 s.word s.me.pc) ∧
      ((s.vd r.vd).convoys.length < 256 → lead → ¬ room → exec (.cvjoin a) s = .next s) ∧
      ((s.vd r.vd).convoys.length < 256 → ready → ∃ t x, exec (.cvjoin a) s = .next t ∧ onward s t ∧ t.convoy r.vd c = some x ∧
        x.phase = 0 ∧ x.members = [r.graph] ∧ x.later = [r.graph])) ∧
     (∀ v, s.convoy r.vd c = some v →
      (v.later.contains r.graph = true → err (.cvjoin a) 3) ∧
      (v.later.contains r.graph = false → v.later.length ≥ 4096 → err (.cvjoin a) 2) ∧
      (v.later.contains r.graph = false → v.later.length < 4096 → ready → ∃ t, exec (.cvjoin a) s = .next t ∧ onward s t ∧
        t.convoy r.vd c = some { v with later := v.later ++ [r.graph] }) ∧
      (v.later.contains r.graph = false → err (.cvleave a) 4 ∧ err (.cvarrive a) 4) ∧
      (v.later.contains r.graph = true → ¬ lead → traps (.cvarrive a) s 0x0B 0 s.word s.me.pc ∧ traps (.cvleave a) s 0x0B 0 s.word s.me.pc) ∧
      (v.later.contains r.graph = true → lead →
        v.members.contains r.graph = false ∨ v.arrived.contains r.graph = true ∨ s.released r.vd v.remote = false ∨ ¬ room →
        exec (.cvarrive a) s = .next s) ∧
      (v.later.contains r.graph = true → lead → s.released r.vd v.remote = false ∨ ¬ room → exec (.cvleave a) s = .next s) ∧
      (v.later.contains r.graph = true → ready → v.members.contains r.graph = true → v.arrived.contains r.graph = false →
        s.released r.vd v.remote = true → ∃ t x, exec (.cvarrive a) s = .next t ∧ onward s t ∧ t.convoy r.vd c = some x ∧
          x.arrived = v.arrived ++ [r.graph] ∧ x.members = v.members ∧ x.phase = v.phase) ∧
      (v.later = [r.graph] → ready → s.released r.vd v.remote = true →
        ∃ t, exec (.cvleave a) s = .next t ∧ onward s t ∧ (tdel (s.vd r.vd).convoys c = (t.vd r.vd).convoys)) ∧
      (v.later.contains r.graph = true → ready → s.released r.vd v.remote = true → (∃ g ∈ v.later, g ≠ r.graph) →
        ∃ t x, exec (.cvleave a) s = .next t ∧ onward s t ∧ t.convoy r.vd c = some x ∧ x.later.contains r.graph = false) ∧
      (v.done.find? (fun x => x.1 = r.graph) = none → ended) ∧
      (∀ x, v.done.find? (fun x => x.1 = r.graph) = some x →
        (¬ lead → traps (.cvwait d a) s 0x0B 0 s.word s.me.pc) ∧
        (lead → v.phase = x.2 → ∃ t, exec (.cvwait d a) s = .next t ∧ t.me = s.me ∧ t.convoy r.vd c =
          some { v with here := if v.here.contains r.graph = true then v.here else v.here ++ [r.graph] }) ∧
        (lead → v.phase ≠ x.2 → ∃ t, exec (.cvwait d a) s = .next t ∧ t.me.pc = s.me.pc + 4 ∧
          (∀ k, t.me.get k = if k = d ∧ d ≠ 0 then BitVec.ofNat 64 x.2.toNat else s.me.get k) ∧
          t.convoy r.vd c = some { v with done := v.done.filter (fun y => y.1 != r.graph), here := v.here.filter (· != r.graph) })))) ∧
    (c < 65536 → ∀ x, s.peerConvoy r.vd c = some x → ∀ i op, (i, op) ∈ all →
      (¬ lead → traps i s 0x0B 0 s.word s.me.pc) ∧
      (lead → s.me.pend = [] → tagRoom → (op = 2 ∨ op = 4 → s.sysReady r.vd = true) → (tfind (s.vd r.vd).routes x.route).isSome = true →
        ∃ t y, exec i s = .next t ∧ t.me.pc = s.me.pc ∧ t.me.x = s.me.x ∧ t.me.pend = [y] ∧ y.kind = .convoy op ∧ y.fault = false ∧
          y.va = x.route * 65536 + x.homeId) ∧
      (∀ y, lead → s.me.pend.find? PAcc.isConvoy = some y →
        let st := y.data.toNat / 2 ^ 32
        (y.fault = false → exec i s = .next s) ∧
        (y.fault = true → st < 0x80 → ∃ t, exec i s = .next t ∧ t.me.pc = s.me.pc + 4 ∧
          (∀ k, t.me.get k = if op = 3 ∧ k = d ∧ d ≠ 0 then BitVec.ofNat 64 (y.data.toNat % 2 ^ 32) else s.me.get k)) ∧
        (y.fault = true → 0x80 ≤ st → ∃ t, exec i s = .next t ∧ t.me.x = s.me.x ∧ t.me.trapaddr = s.me.pc ∧
          t.me.trapcause = BitVec.ofNat 64 (if st = 0x86 then 6 else (st - 0x80) * 65536 + 9))))

/-! ### Elements: the vector unit -/

/-- R247, R43, R244: integer arithmetic by subwords of every type, wrapped or saturated, with the flag of saturation. -/
def Obligations.VectorIntegerArithmetic : Prop :=
  ∀ (s : State) (o : Op),
    let a := s.opnd o.a.toNat; let b := s.opnd o.b.toNat; let d := s.opnd o.dst.toNat
    let w := vtWidth o.ty.toNat; let n := vtCount o.ty.toNat
    let x := fun k j => vtInt o.ty.toNat (sub (lane a.val k) j w)
    let y := fun k j => vtInt o.ty.toNat (sub (lane b.val k) j w)
    let z := fun k j => vtInt o.ty.toNat (sub (lane d.val k) j w)
    let wraps := fun (i : Instr) (src : List Src) (f : Nat → Nat → Int) =>
      subwise i s o src w n (fun k j => (f k j % 2 ^ w).toNat) (fun _ _ => 0)
    let sats := fun (i : Instr) (src : List Src) (f : Nat → Nat → Int) =>
      let sgn := vtSigned o.ty.toNat
      subwise i s o src w n (fun k j => (clamp (f k j) w sgn % 2 ^ w).toNat)
        (fun k j => if clamp (f k j) w sgn = f k j then 0 else 0x40)
    wraps (.vecAdd o) [a, b] (fun k j => x k j + y k j) ∧ wraps (.vecSub o) [a, b] (fun k j => x k j - y k j) ∧
    wraps (.vecMul o) [a, b] (fun k j => x k j * y k j) ∧ wraps (.vecMulh o) [a, b] (fun k j => x k j * y k j / 2 ^ w) ∧
    wraps (.vecMad o) [a, b, d] (fun k j => x k j * y k j + z k j) ∧
    wraps (.vecMin o) [a, b] (fun k j => min (x k j) (y k j)) ∧ wraps (.vecMax o) [a, b] (fun k j => max (x k j) (y k j)) ∧
    wraps (.vecAvg o) [a, b] (fun k j => (x k j + y k j + 1) / 2) ∧
    sats (.vecAdds o) [a, b] (fun k j => x k j + y k j) ∧ sats (.vecSubs o) [a, b] (fun k j => x k j - y k j) ∧
    sats (.vecAbs o) [a] (fun k j => (x k j).natAbs) ∧ sats (.vecNeg o) [a] (fun k j => - x k j)

/-- R247: logic, shifts, rotation and bit counts by subwords; a shift count that reaches the width gives 0, or the sign for
`SRA`. -/
def Obligations.VectorLogicAndShifts : Prop :=
  ∀ (s : State) (o : Op),
    let a := s.opnd o.a.toNat; let b := s.opnd o.b.toNat; let w := vtWidth o.ty.toNat; let n := vtCount o.ty.toNat
    let x := fun k j => sub (lane a.val k) j w; let y := fun k j => sub (lane b.val k) j w
    let gives := fun (i : Instr) (src : List Src) (f : Nat → Nat → Nat) => subwise i s o src w n f (fun _ _ => 0)
    gives (.vecAnd o) [a, b] (fun k j => x k j &&& y k j) ∧ gives (.vecOr o) [a, b] (fun k j => x k j ||| y k j) ∧
    gives (.vecXor o) [a, b] (fun k j => x k j ^^^ y k j) ∧ gives (.vecNot o) [a] (fun k j => 2 ^ w - 1 - x k j) ∧
    gives (.vecShl o) [a, b] (fun k j => if y k j < w then x k j * 2 ^ y k j % 2 ^ w else 0) ∧
    gives (.vecShr o) [a, b] (fun k j => if y k j < w then x k j / 2 ^ y k j else 0) ∧
    gives (.vecSra o) [a, b] (fun k j => if y k j < w then (signed (x k j) w / 2 ^ y k j % 2 ^ w).toNat
      else if signed (x k j) w < 0 then 2 ^ w - 1 else 0) ∧
    gives (.vecRot o) [a, b] (fun k j => x k j * 2 ^ (y k j % w) % 2 ^ w + x k j / 2 ^ (w - y k j % w)) ∧
    fires (.vecClz o) s o [a] [] (fun k r => ∀ j, j < n → sub r j w ≤ w ∧ x k j < 2 ^ (w - sub r j w) ∧
      (sub r j w < w → 2 ^ (w - 1 - sub r j w) ≤ x k j)) (fun f sr => flagsAfter s [a] n (fun _ _ => 0) f ∧ sr = s.ctx.sr) ∧
    gives (.vecPopc o) [a] (fun k j => ((List.range w).map (fun i => x k j / 2 ^ i % 2)).sum)

/-- R248 to R250, R268: floating-point arithmetic, each subword the encoding of one exact result, with its flags; minima and maxima, and
the operations on the sign bit, which raise none.
Where the spec leaves a point of these open the choice is the model's: log 27, 34. -/
def Obligations.VectorFloatArithmetic : Prop :=
  ∀ (s : State) (o : Op),
    let a := s.opnd o.a.toNat; let b := s.opnd o.b.toNat; let d := s.opnd o.dst.toNat; let f := vtFmt o.ty.toNat
    let w := vtWidth o.ty.toNat; let n := vtCount o.ty.toNat; let mode := RMode.ofCode (o.md.toNat % 8)
    let xb := fun k j => sub (lane a.val k) j w; let yb := fun k j => sub (lane b.val k) j w
    let x := fun k j => decodeF f (xb k j); let y := fun k j => decodeF f (yb k j)
    let z := fun k j => decodeF f (sub (lane d.val k) j w)
    let rounds := fun (i : Instr) (src : List Src) (v : Nat → Nat → Val × Bool) =>
      let g := fun k j => encodeF f (v k j).1 mode .ieee ((State.bare s).raiseIf (v k j).2 flagINV)
      subwise i s o src w n (fun k j => (g k j).1) (fun k j => (g k j).2.aflags)
    let steps := fun (i : Instr) (src : List Src) (m : Nat) =>
      fires i s o src [] (fun _ _ => True) (fun _ sr => sr = Nat.repeat srStep (((List.range 8).filter s.runs).length * m) s.ctx.sr)
    (f.width = w → mode ≠ .sr →
      rounds (.vecFadd o) [a, b] (fun k j => addVal (x k j) (y k j) mode) ∧
      rounds (.vecFsub o) [a, b] (fun k j => addVal (x k j) (y k j).negate mode) ∧
      rounds (.vecFmul o) [a, b] (fun k j => mulVal (x k j) (y k j)) ∧
      rounds (.vecFma o) [a, b, d] (fun k j => fmaVal (x k j) (y k j) (z k j) mode)) ∧
    (o.ty = 2 → mode ≠ .sr → rounds (.vecFscale o) [a, b] (fun k j =>
      ((x k j).scale (max (-300) (min 300 (lane b.val k).toInt)), false))) ∧
    (mode = .sr → steps (.vecFadd o) [a, b] n ∧ steps (.vecFsub o) [a, b] n ∧ steps (.vecFmul o) [a, b] n ∧
      steps (.vecFma o) [a, b, d] n ∧ steps (.vecFscale o) [a, b] 1) ∧
    (f.width = w →
      (let pick := fun (i : Instr) (less : Val → Val → Bool) =>
        subwise i s o [a, b] w n (fun k j =>
          if (x k j).isNaN = true ∧ (y k j).isNaN = true then f.canonicalNaN
          else if (x k j).isNaN = true then yb k j else if (y k j).isNaN = true then xb k j
          else if less (y k j) (x k j) = true then yb k j else xb k j)
          (fun k j => if (x k j).isSNaN = true ∨ (y k j).isSNaN = true then 1 else 0)
       pick (.vecFmin o) (fun u v => Val.cmp u v < 0 || (Val.cmp u v == 0 && u.neg && !v.neg)) ∧
       pick (.vecFmax o) (fun u v => Val.cmp v u < 0 || (Val.cmp v u == 0 && v.neg && !u.neg))) ∧
      (let sgn := fun v => v / 2 ^ (w - 1) % 2
       let signs := fun (i : Instr) (src : List Src) (g : Nat → Nat → Nat) =>
        subwise i s o src w n (fun k j => if (x k j).isNaN = true then f.canonicalNaN
          else xb k j % 2 ^ (w - 1) + g k j * 2 ^ (w - 1)) (fun _ _ => 0)
       signs (.vecFabs o) [a] (fun _ _ => 0) ∧ signs (.vecFneg o) [a] (fun k j => 1 - sgn (xb k j)) ∧
       signs (.vecFcps o) [a, b] (fun k j => sgn (yb k j))))

/-- R251 to R254: compares write a predicate in the executing lanes and leave it on a null operand; `SEL` picks whole lanes;
`CLASS` sets one bit. -/
def Obligations.VectorComparesAndSelection : Prop :=
  ∀ (s : State) (o : Op), s.cur.ctx < 8 → o.dst.toNat < 8 →
    let a := s.opnd o.a.toNat; let b := s.opnd o.b.toNat; let p := o.dst.toNat; let c := o.md.toNat
    let holds := fun (u v : Int) => (c = 0 ∧ u = v) ∨ (c = 1 ∧ u ≠ v) ∨ (c = 2 ∧ u < v) ∨ (c = 3 ∧ u ≤ v) ∨ (c = 4 ∧ u > v) ∨ (c = 5 ∧ u ≥ v)
    let x := fun k => decodeF .f32 (lane a.val k).toNat; let y := fun k => decodeF .f32 (lane b.val k).toNat
    let nan := fun k => (x k).isNaN = true ∨ (y k).isNaN = true
    let sets := fun (i : Instr) (bit : Nat → Prop) (raised : Nat → BitVec 32) =>
      (a.null = true ∨ b.null = true → ∃ t, exec i s = .next t ∧ firingFrame s t o ∧
        t.ctx = { s.ctx with outst := t.ctx.outst }) ∧
      (a.null = false → b.null = false → ∃ t, exec i s = .next t ∧ firingFrame s t o ∧
        t.ctx = { s.ctx with p := t.ctx.p, aflags := t.ctx.aflags, outst := t.ctx.outst } ∧
        (∀ n, n ≠ p → vg t.ctx.p n 0 = vg s.ctx.p n 0) ∧
        (∀ k, k < 8 → ((vg t.ctx.p p 0).getLsbD k = true ↔
          (s.runs k = true ∧ bit k) ∨ (s.runs k = false ∧ (vg s.ctx.p p 0).getLsbD k = true))) ∧
        flagsAfter s [a, b] 1 (fun k _ => raised k) t.ctx.aflags)
    (o.ty = 0 → c ≤ 5 → sets (.vecCmp o) (fun k => holds (lane a.val k).toInt (lane b.val k).toInt) (fun _ => 0)) ∧
    (o.ty = 1 → c ≤ 5 → sets (.vecCmp o) (fun k => holds (lane a.val k).toNat (lane b.val k).toNat) (fun _ => 0)) ∧
    (o.ty = 2 → c ≤ 7 → sets (.vecFcmp o)
      (fun k => (c = 6 ∧ nan k) ∨ (c = 7 ∧ ¬ nan k) ∨ (c = 1 ∧ nan k) ∨ (¬ nan k ∧ holds (Val.cmp (x k) (y k)) 0))
      (fun k => if (2 ≤ c ∧ c ≤ 5 ∧ nan k) ∨ (x k).isSNaN = true ∨ (y k).isSNaN = true then 1 else 0)) ∧
    (o.ty = 0 → subwise (.vecSel o) s o [a, b] 32 1
      (fun k _ => (if (vg s.ctx.p (c / 4) 0).getLsbD k = true then lane a.val k else lane b.val k).toNat) (fun _ _ => 0)) ∧
    (o.ty = 2 → subwise (.vecClass o) s o [a] 32 1
      (fun k _ => match x k with
        | .nan sg => if sg = true then 1 else 2
        | .inf ng => if ng = true then 4 else 512
        | .fin ng m _ => if m = 0 then (if ng = true then 32 else 64)
          else if (lane a.val k).toNat / 2 ^ 23 % 256 = 0 then (if ng = true then 16 else 128) else (if ng = true then 8 else 256))
      (fun _ _ => 0))

/-- R255 to R259, R269: conversions of every listed pair, packing and unpacking by subwords, `FREXP`.
Where the spec leaves a point of these open the choice is the model's: log 35. -/
def Obligations.VectorConversions : Prop :=
  ∀ (s : State) (o : Op),
    let a := s.opnd o.a.toNat; let b := s.opnd o.b.toNat; let mode := RMode.ofCode (o.md.toNat % 8); let sel := o.md.toNat / 16
    let ov : Ov := if o.md.toNat / 8 % 2 = 1 then .ovf else .sat; let src := convSrc o.ty.toNat
    (mode ≠ .sr → ∀ d, cvtDst o.ty.toNat sel = some d →
      let g := fun k j => convert src d mode ov (sub (lane a.val k) j d.width) (State.bare s)
      subwise (.vecCvt o) s o [a] d.width (32 / d.width) (fun k j => (g k j).1) (fun k j => (g k j).2.aflags)) ∧
    (o.ty = 2 →
      let f : Fmt := if sel = 0 then .bf16 else .f16
      let g := fun k => encodeF f (decodeF .f32 (lane a.val k).toNat) (.given ((lane b.val k).toNat / 256)) ov (State.bare s)
      subwise (.vecCvtsr o) s o [a, b] 16 2 (fun k j => if j = 0 then (g k).1 else 0) (fun k j => if j = 0 then (g k).2.aflags else 0)) ∧
    (mode ≠ .sr → ∀ d, packDst o.ty.toNat sel = some d →
      let n := 32 / src.width
      let g := fun k j => convert src d mode ov
        (if j < n then sub (lane a.val k) j src.width else sub (lane b.val k) (j - n) src.width) (State.bare s)
      subwise (.vecPack o) s o [a, b] d.width (2 * n) (fun k j => (g k j).1) (fun k j => (g k j).2.aflags)) ∧
    (∀ p q, unpackPair o.ty.toNat sel = some (p, q) →
      let n := 32 / q.width
      let g := fun k j => convert p q .rne .ieee (sub (lane a.val k) (n * (o.md.toNat % 2) + j) p.width) (State.bare s)
      subwise (.vecUnpack o) s o [a] q.width n (fun k j => (g k j).1) (fun k j => (g k j).2.aflags)) ∧
    (o.ty = 2 → fires (.vecFrexp o) s o [a] [] (fun k r =>
        match decodeF .f32 (lane a.val k).toNat with
        | .nan _ => r = if o.md.toNat % 2 = 1 then 0x7FFFFFFF else 0x7FC00000
        | .inf _ => r = if o.md.toNat % 2 = 1 then 0x7FFFFFFF else lane a.val k
        | .fin ng m e =>
          if m = 0 then r = if o.md.toNat % 2 = 1 then 0x80000000 else lane a.val k
          else if o.md.toNat % 2 = 1 then ∃ q : Int, r = BitVec.ofInt 32 q ∧
            2 ^ (q + 400).toNat ≤ m * 2 ^ (e + 400).toNat ∧ m * 2 ^ (e + 400).toNat < 2 ^ (q + 401).toNat
          else (decodeF .f32 r.toNat).neg = ng ∧ 127 = r.toNat / 2 ^ 23 % 256)
      (fun _ sr => sr = s.ctx.sr))

/-- R244, R260, R261: every special function completes for every operand, whatever it holds, and gives NaN the canonical one; what each
gives at its special inputs: infinities, zeros, exact powers, half-integers.
Where the spec leaves a point of these open the choice is the model's: log 7. -/
def Obligations.VectorSpecialFunctions : Prop :=
  ∀ (s : State) (o : Op),
    let a := s.opnd o.a.toNat; let x := fun k => (lane a.val k).toNat
    let nan := fun k => (decodeF .f32 (x k)).isNaN = true
    let negative := fun k => 0x80000000 < x k ∧ x k ≤ 0xFF800000
    let special := fun (i : Instr) (P : Nat → Word → Prop) =>
      fires i s o [a] [] (fun k r => (nan k → r = 0x7FC00000) ∧ P k r) (fun f sr => sr = s.ctx.sr ∧ ∀ b, s.ctx.aflags.getLsbD b = true → f.getLsbD b = true)
    let completes := fun (i : Instr) =>
      fires i s o [a] [] (fun k r => nan k → r = 0x7FC00000) (fun f _ => ∀ b, s.ctx.aflags.getLsbD b = true → f.getLsbD b = true)
    completes (.vecExp2 o) ∧ completes (.vecLog2 o) ∧ completes (.vecRcp o) ∧ completes (.vecRsq o) ∧ completes (.vecSqrt o) ∧
    completes (.vecSinpi o) ∧ completes (.vecCospi o) ∧
    (o.md = 0 →
      special (.vecExp2 o) (fun k r => (x k = 0xFF800000 → r = 0) ∧ (x k = 0x7F800000 → r = 0x7F800000) ∧
        (x k = 0 ∨ x k = 0x80000000 → r = 0x3F800000)) ∧
      special (.vecLog2 o) (fun k r => (x k = 0 ∨ x k = 0x80000000 → r = 0xFF800000) ∧ (negative k → r = 0x7FC00000) ∧
        (x k = 0x7F800000 → r = 0x7F800000) ∧ (x k = 0x3F800000 → r = 0)) ∧
      special (.vecRcp o) (fun k r => (x k = 0 → r = 0x7F800000) ∧ (x k = 0x80000000 → r = 0xFF800000) ∧
        (x k = 0x7F800000 → r = 0) ∧ (x k = 0xFF800000 → r = 0x80000000) ∧ (x k = 0x3F800000 → r = 0x3F800000)) ∧
      special (.vecRsq o) (fun k r => (x k = 0 → r = 0x7F800000) ∧ (x k = 0x80000000 → r = 0xFF800000) ∧ (negative k → r = 0x7FC00000) ∧
        (x k = 0x7F800000 → r = 0)) ∧
      special (.vecSinpi o) (fun k r => (x k = 0 → r = 0) ∧ (x k = 0x80000000 → r = 0x80000000) ∧
        (x k = 0x7F800000 ∨ x k = 0xFF800000 → r = 0x7FC00000)) ∧
      special (.vecCospi o) (fun k r => (x k = 0 ∨ x k = 0x80000000 → r = 0x3F800000) ∧
        (x k = 0x7F800000 ∨ x k = 0xFF800000 → r = 0x7FC00000))) ∧
    (o.md.toNat % 8 < 4 → special (.vecSqrt o) (fun k r => (x k = 0x80000000 → r = 0x80000000) ∧ (x k = 0 → r = 0) ∧
      (negative k → r = 0x7FC00000) ∧ (x k = 0x7F800000 → r = 0x7F800000)))

/-- R262 to R264, R45, R66: broadcasts and rotations read every lane, reductions form the fixed tree, scans run in lane order from lane 0,
whose NaN becomes the canonical one, `LIDX` gives the lane and the place in the node. -/
def Obligations.VectorAcrossLanes : Prop :=
  ∀ (s : State) (o : Op),
    let a := s.opnd o.a.toNat; let op := o.md.toNat / 8; let mode := RMode.ofCode (o.md.toNat % 8)
    let v := fun k => if s.runs k = true then (lane a.val k).toNat else reduceId o.ty.toNat op
    subwise (.vecLbcast o) s o [a] 32 1 (fun _ _ => (lane a.val (o.md.toNat % 8)).toNat) (fun _ _ => 0) ∧
    (o.md.toNat < 8 → subwise (.vecLrot o) s o [a] 32 1 (fun k _ => (lane a.val ((k + o.md.toNat) % 8)).toNat) (fun _ _ => 0)) ∧
    (o.ty.toNat < 2 → op < 3 →
      let f := fun x y => (reduceOp o.ty.toNat op .rne x y (State.bare s)).1
      fires (.vecLred o) s o [a] [] (fun _ r => r.toNat = f (f (f (v 0) (v 1)) (f (v 2) (v 3))) (f (f (v 4) (v 5)) (f (v 6) (v 7))))
        (fun fl sr => flagsAfter s [a] 0 (fun _ _ => 0) fl ∧ sr = s.ctx.sr) ∧
      fires (.vecLscan o) s o [a] [] (fun k r => r.toNat = ((List.range k).map (fun i => v (i + 1))).foldl f (v 0))
        (fun fl sr => flagsAfter s [a] 0 (fun _ _ => 0) fl ∧ sr = s.ctx.sr)) ∧
    (o.ty = 2 → op < 3 → mode ≠ .sr →
      let f := fun x y => (reduceOp 2 op mode x y (State.bare s)).1
      fires (.vecLred o) s o [a] [] (fun _ r => r.toNat = f (f (f (v 0) (v 1)) (f (v 2) (v 3))) (f (f (v 4) (v 5)) (f (v 6) (v 7))))
        (fun _ sr => sr = s.ctx.sr) ∧
      let first := if (decodeF .f32 (v 0)).isNaN = true then 0x7FC00000 else v 0
      fires (.vecLscan o) s o [a] [] (fun k r => r.toNat = ((List.range k).map (fun i => v (i + 1))).foldl f first)
        (fun _ sr => sr = s.ctx.sr)) ∧
    fires (.vecLidx o) s o [] [] (fun k r => r = BitVec.ofNat 32 (
        if o.md.toNat % 4 = 0 then k else if o.md.toNat % 4 = 1 then s.conf.oy * s.conf.width + s.conf.ox
        else if o.md.toNat % 4 = 2 then s.conf.ox else s.conf.oy)) (fun f sr => flagsAfter s [] 0 (fun _ _ => 0) f ∧ sr = s.ctx.sr)

/-- R265 to R267: moves, immediates and constants; the variants of `MOV` that read or write the flags and the generator.
Where the spec leaves a point of these open the choice is the model's: log 14. -/
def Obligations.VectorMovesAndConstants : Prop :=
  ∀ (s : State) (o : Op),
    let a := s.opnd o.a.toNat; let keeps := fun (f sr : BitVec 32) => f = s.ctx.aflags ∧ sr = s.ctx.sr
    subwise (.vecMov o) s o [a] 32 1 (fun k _ => (lane a.val k).toNat) (fun _ _ => 0) ∧
    fires (.vecMovRdflags o) s o [] [a] (fun _ r => r = s.ctx.aflags) keeps ∧
    fires (.vecMovRcflags o) s o [] [a] (fun _ r => r = s.ctx.aflags) (fun f sr => f = 0 ∧ sr = s.ctx.sr) ∧
    fires (.vecMovRdseed o) s o [] [a] (fun _ r => r = s.ctx.sr) keeps ∧
    fires (.vecMovi o) s o [] [] (fun _ r => r = BitVec.ofInt 32 o.simm) keeps ∧
    fires (.vecLdc o) s o [] [] (fun k r => r = vg s.conf.consts (o.a.toNat - 16 + k) 0) keeps ∧
    (s.cur.ctx < 8 →
      (a.null = true → (∃ t, exec (.vecMovWrflags o) s = .next t ∧ firingFrame s t o ∧ t.ctx = s.ctx) ∧
        ∃ t, exec (.vecMovWrseed o) s = .next t ∧ firingFrame s t o ∧ t.ctx = s.ctx) ∧
      (a.null = false →
        (∃ t, exec (.vecMovWrflags o) s = .next t ∧ firingFrame s t o ∧ t.ctx = { s.ctx with aflags := t.ctx.aflags } ∧
          ∀ b, t.ctx.aflags.getLsbD b = ((decide (b < 8) && (lane a.val 0).getLsbD b) || (decide (b = 7) && a.poison))) ∧
        ∃ t, exec (.vecMovWrseed o) s = .next t ∧ firingFrame s t o ∧
          t.ctx = { s.ctx with aflags := t.ctx.aflags, sr := if lane a.val 0 = 0 then 0x9E3779B9 else lane a.val 0 } ∧
          flagsAfter s [a] 0 (fun _ _ => 0) t.ctx.aflags))

/-! ### Elements: the brick array -/

/-- R298, R294, R286: the multiply-accumulate instructions of a span-1 entry apply one exact total to each lane, by the step of the
accumulator's mode, and hold the array for their cycles; `MULW` starts from an empty lane; `DOT` sums over the executing lanes into one lane.
Where the spec leaves a point of these open the choice is the model's: log 27, 34. -/
def Obligations.BrickMultiplyAccumulate : Prop :=
  ∀ (s : State) (o : Op), 12 ≤ o.dst.toNat → (s.shape o).span = 1 →
    let h := s.shape o; let a := s.opnd o.a.toNat; let b := s.opnd o.b.toNat; let d := o.dst.toNat - 12; let c := s.ctx.getAcc d
    let p := a.poison || b.poison
    let prods := fun (f : Nat → Word) (g : Nat → Word) (k : Nat) => (List.range h.na).map (fun j => mulVal (h.ea (f k) j) (h.eb (g k) j))
    let steps := fun (i : Instr) (products : Nat) (on : Nat → Bool) (fresh : Bool) (total : Nat → Val × Bool) =>
      accumulates i s (s.holdArray (max 1 ((products * h.bricks + 255) / 256))) o [a, b] d on (fun k l env =>
        let r := laneStep c.f32 c.frac.toNat (if fresh = true then LaneAcc.zero else l) (total k).1 (total k).2 env
        ({ r.1 with ap := r.1.ap || p }, r.2))
    let each := fun g k => treeSum (prods (lane a.val) g k)
    steps (.mac o) (8 * h.na) s.runs false (each (lane b.val)) ∧
    steps (.mulw o) (8 * h.na) s.runs true (each (lane b.val)) ∧
    steps (.dotx o) (8 * h.na) s.runs false (each (fun _ => lane b.val (o.bmd % 8))) ∧
    steps (.dot o) (8 * h.na) (fun k => k = o.bmd % 8) false
      (fun _ => treeSum (((List.range 8).filter s.runs).flatMap (prods (lane a.val) (lane b.val)))) ∧
    steps (.mula o) 8 s.runs false
      (fun k => treeSum [mulVal (h.ea (lane a.val 0) (o.bmd % 4)) (h.eb (lane b.val k) (o.bmd / 4))])

/-- R62, R298, R63: for integer formats and an accumulator in W64 mode a `MAC` adds the exact integer sum of products, in units of
`2^-F`, clamped to 64 bits with `ao` and `AOVF`; nothing is rounded. -/
def Obligations.BrickIntegerStepIsExact : Prop :=
  ∀ (s : State) (o : Op), 12 ≤ o.dst.toNat → o.dst.toNat < 16 → s.cur.ctx < 8 → (s.shape o).span = 1 → (s.shape o).af < 2 → (s.shape o).bf < 2 →
    let h := s.shape o; let a := s.opnd o.a.toNat; let b := s.opnd o.b.toNat; let d := o.dst.toNat - 12; let c := s.ctx.getAcc d
    let int := fun f w v => if f = 0 then signed (v % 2 ^ w) w else ((v % 2 ^ w : Nat) : Int)
    let cw := container h.af h.aw
    let total := fun k => ((List.range h.na).map (fun j => int h.af h.aw (sub (lane a.val k) j cw) *
      int h.bf h.bw (sub (lane b.val k) j (container h.bf h.bw)))).sum
    c.f32 = false → a.null = false → b.null = false → s.held = false →
      ∃ t, exec (.mac o) s = .next t ∧ ∀ k, k < 8 → s.runs k = true →
        let l := State.accLane s d k; let l' := State.accLane t d k; let exact := l.a.toInt + total k * 2 ^ c.frac.toNat
        l'.a.toInt = max (- 2 ^ 63) (min (2 ^ 63 - 1) exact) ∧ l'.ao = (l.ao || decide (exact < - 2 ^ 63 ∨ 2 ^ 63 - 1 < exact)) ∧
          l'.ai = l.ai ∧ l'.av = l.av ∧ l'.ap = (l.ap || (a.poison || b.poison))

/-- R288, R294: a firing of a spanned entry changes no accumulator; it deposits its totals, its executing lanes, its null and its
poison in the group adder of its leader, behind the deposits that wait there; a leader that a tide has saved in the slot of the block takes
it in its saved state. The poison of an operand sets `PSN` in the firing context.
Where the spec leaves a point of these open the choice is the model's: log 27. -/
def Obligations.BrickGroupDeposits : Prop :=
  ∀ (s : State) (o : Op), 12 ≤ o.dst.toNat → 1 < (s.shape o).span → s.cur.ctx < 8 →
    let h := s.shape o; let a := s.opnd o.a.toNat; let b := s.opnd o.b.toNat
    let lead := elemAt (colOf s.cur.elem - s.conf.ox % h.span) (rowOf s.cur.elem); let key := s.cur.slot * 8 + s.cur.ctx
    let prods := fun (f : Nat → Word) (g : Nat → Word) (k : Nat) => (List.range h.na).map (fun j => mulVal (h.ea (f k) j) (h.eb (g k) j))
    let adder := fun (u : State) => match (u.elem lead).snap with
      | some c => if c.active = s.cur.ctx / 4 then c.group else (u.elem lead).core.group
      | none => (u.elem lead).core.group
    let deposits := fun (i : Instr) (null poison : Bool) (bad : BitVec 8) (lanes : Nat → Bool) (total : Nat → Val × Bool) =>
      ∃ t x, exec i s = .next t ∧ (∀ n, t.ctx.getAcc n = s.ctx.getAcc n) ∧ (∀ k, t.byte k = s.byte k) ∧
        (∀ e, e ≠ s.cur.elem → e ≠ lead → t.elem e = s.elem e) ∧
        tget (adder t) key [] = tget (adder s) key [] ++ [x] ∧ x.member = s.conf.ox % h.span ∧ x.null = null ∧ x.poison = bad ∧
        (∀ f, t.ctx.aflags.getLsbD f = (s.ctx.aflags.getLsbD f || (decide (f = 7) && poison && !null))) ∧
        (∀ k, k < 8 → x.lanes.getLsbD k = lanes k) ∧ ∀ k, k < 8 → lget x.totals k (.fin false 0 0, false) = total k
    let n := a.null || b.null; let p := a.poison || b.poison; let bad : BitVec 8 := if p = true then 0xFF else 0; let tl := s.tile (o.bmd % 2)
    deposits (.mac o) n p bad s.runs (fun k => treeSum (prods (lane a.val) (lane b.val) k)) ∧
    deposits (.dotx o) n p bad s.runs (fun k => treeSum (prods (lane a.val) (fun _ => lane b.val (o.bmd % 8)) k)) ∧
    deposits (.dot o) n p bad (fun k => decide (k = o.bmd % 8))
      (fun _ => treeSum (((List.range 8).filter s.runs).flatMap (prods (lane a.val) (lane b.val)))) ∧
    deposits (.mula o) n p bad s.runs
      (fun k => treeSum [mulVal (h.ea (lane a.val 0) (o.bmd % 4)) (h.eb (lane b.val k) (o.bmd / 4))]) ∧
    deposits (.mma o) a.null a.poison (if a.poison = true ∨ s.ctx.gatePoison = true then 0xFF else tl.poison) s.runs (s.mmaTotal h a.val tl)

/-- R288, R295: when every member has a deposit, the oldest of each is taken and the lanes in which some member executed take one step
with the sum of the totals; a null deposit applies nothing. The step applies at once unless an earlier group step of the context has not
been taken: then it waits with the leader's outstanding result. Until every member has a deposit nothing changes.
Where the spec leaves a point of these open the choice is the model's: log 34. -/
def Obligations.BrickGroupStep : Prop :=
  ∀ (s : State) (o : Op) (i : Instr),
    let e := s.cur.x; let key := s.cur.y; let c := key % 8; let core := (s.elem e).core
    let cfg := vg core.cfg (c / 4) ElemCfg.empty; let span := (Shape.of (vg cfg.fuse o.shape 0)).span
    let old := vg core.ctx c (Ctx.activated 0); let d := o.dst.toNat - 12
    let behind := (old.outst.takeWhile (fun x => x.group != some key)).any (fun x => x.group.isSome)
    let q := tget core.group key []; let member := fun m => q.filter (fun x => decide (x.member = m))
    i = .mac o ∨ i = .dot o ∨ i = .dotx o ∨ i = .mula o ∨ (i = .mma o ∧ o.b.toNat / 16 % 2 = 0) → cfg.instr (key / 8) = some i → 12 ≤ o.dst.toNat → o.dst.toNat < 16 →
    ((∃ m, m < span ∧ member m = []) → exec .groupAdderStep s = .next s) ∧
    ((∀ m, m < span → member m ≠ []) → (∀ x, x ∈ q → x.member < span) → (∃ x ∈ old.outst, x.group = some key) →
      (∀ x ∈ old.outst, x.effs = []) →
      ∃ t, exec .groupAdderStep s = .next t ∧ (∀ k, t.byte k = s.byte k) ∧ (∀ g, g ≠ e → t.elem g = s.elem g) ∧
        (∀ m, m < span → (tget (t.elem e).core.group key []).filter (fun x => decide (x.member = m)) = (member m).tail) ∧
        let heads := (List.range span).filterMap (fun m => (member m).head?)
        let new := vg (t.elem e).core.ctx c (Ctx.activated 0)
        (∀ n, n ≠ d → new.getAcc n = old.getAcc n) ∧
        (heads.any (fun x => x.null) = true ∨ behind = true → new.getAcc d = old.getAcc d) ∧
        (behind = true → heads.any (fun x => x.null) = false → ∃ x ∈ new.outst, x.group = none ∧ x.effs.length = 1) ∧
        (heads.any (fun x => x.null) = false → behind = false → ∀ k, k < 8 →
          let on := heads.filter (fun x => x.lanes.getLsbD k); let l := vg (old.getAcc d).lanes k LaneAcc.zero
          let total := treeSum (on.map (fun x => lget x.totals k (.fin false 0 0, false)))
          vg (new.getAcc d).lanes k LaneAcc.zero =
            if on = [] then l
            else
              let r := (laneStep (old.getAcc d).f32 (old.getAcc d).frac.toNat l total.1 total.2 { aflags := 0, srstate := old.sr }).1
              { r with ap := r.ap || heads.any (fun x => x.poison.getLsbD k) }))

/-- R301, R302, R286: an `MMA` of a span-1 entry adds to each executing lane the ungated products of the activation with the tile's row,
forwards the activation unchanged, and with an emission sends the converted lanes and clears them; a null activation is forwarded and
emits a null token. Behind a group step that has not been applied the step waits, and the emission holds its place in the output.
Where the spec leaves a point of these open the choice is the model's: log 27, 34. -/
def Obligations.BrickWeightStationary : Prop :=
  ∀ (s : State) (o : Op), 12 ≤ o.dst.toNat → o.dst.toNat < 16 → s.cur.ctx < 8 → (s.shape o).span = 1 →
    let h := s.shape o; let a := s.opnd o.a.toNat; let d := o.dst.toNat - 12; let c := s.ctx.getAcc d; let tl := s.tile (o.bmd % 2)
    let n := 8 * h.na; let gate := s.ctx.gate; let open' := (List.range n).filter (fun j => gate.getLsbD j)
    let cyc := max 1 ((8 * open'.length * h.bricks + 255) / 256); let s' := s.holdArray cyc
    let total := fun k => treeSum (open'.map (fun j =>
      mulVal (h.ea (lane a.val (j / h.na)) (j % h.na)) (h.eb (lane (vg tl.rows k 0) (j / h.na)) (j % h.na))))
    let bad := fun k => a.poison || s.ctx.gatePoison || tl.poison.getLsbD k
    let stepped := fun k l env =>
      let r := laneStep c.f32 c.frac.toNat l (total k).1 (total k).2 env
      (({ r.1 with ap := r.1.ap || bad k } : LaneAcc), r.2)
    let em := o.b.toNat / 16 % 2; let out := o.b.toNat / 4 % 4; let fw := o.bmd / 8 % 2; let fo := o.bmd / 2 % 4
    (em = 0 → fw = 0 → accumulates (.mma o) s s' o [a] d s.runs stepped) ∧
    (em = 0 → fw = 1 → ∀ hd, s.head (o.a.toNat - 8) = some hd → 8 ≤ o.a.toNat → o.a.toNat < 12 →
      ∃ t q, exec (.mma o) s = .next t ∧ firingFrame s' t o ∧ vg t.core.out fo [] = vg s.core.out fo [] ++ [q] ∧
        q.tok = { hd with src := q.tok.src } ∧
        ∀ k, k < 8 → State.accLane t d k =
          if s.runs k = true ∧ a.null = false ∧ s.held = false then (stepped k (State.accLane s d k) (State.bare s)).1 else State.accLane s d k) ∧
    (em = 1 → fw = 0 → a.null = true →
      ∃ t q, exec (.mma o) s = .next t ∧ firingFrame s' t o ∧ vg t.core.out out [] = vg s.core.out out [] ++ [q] ∧
        q.tok.kind = 1 ∧ q.tok.tag = 0 ∧ q.tok.poison = false ∧ ∀ x, t.ctx.getAcc x = s.ctx.getAcc x) ∧
    (em = 1 → fw = 1 → out ≠ fo → ∀ hd, s.head (o.a.toNat - 8) = some hd → 8 ≤ o.a.toNat → o.a.toNat < 12 →
      ∃ t q p, exec (.mma o) s = .next t ∧ vg t.core.out fo [] = vg s.core.out fo [] ++ [q] ∧ q.tok = { hd with src := q.tok.src } ∧
        vg t.core.out out [] = vg s.core.out out [] ++ [p]) ∧
    (em = 1 → fw = 0 → a.null = false → s.held = true →
      ∃ t q, exec (.mma o) s = .next t ∧ vg t.core.out out [] = vg s.core.out out [] ++ [q] ∧ q.key = s.core.nextReq ∧ q.ready = false ∧
        (∀ x, t.ctx.getAcc x = s.ctx.getAcc x) ∧ ∀ k, t.byte k = s.byte k) ∧
    (em = 1 → fw = 0 → a.null = false → s.held = false →
      ∃ t q, exec (.mma o) s = .next t ∧ firingFrame s' t o ∧ vg t.core.out out [] = vg s.core.out out [] ++ [q] ∧
        q.tok.kind = 0 ∧ q.tok.tag = 0 ∧ q.tok.round = s.ctx.cround ∧
        (∀ x, x ≠ d → t.ctx.getAcc x = s.ctx.getAcc x) ∧
        (q.tok.poison = true ↔ ∃ k, k < 8 ∧ s.runs k = true ∧ (stepped k (State.accLane s d k) (State.bare s)).1.ap = true) ∧
        ∀ k, k < 8 →
          let l := (stepped k (State.accLane s d k) (State.bare s)).1
          lane q.tok.payload k = (if s.runs k = true then BitVec.ofNat 32 (accConv c (o.b.toNat % 4) l (State.bare s)).1 else 0) ∧
          State.accLane t d k = if s.runs k = true then LaneAcc.zero else State.accLane s d k)

/-- R299 to R302, R307: `DOTS` saturates once over the exact sum; `WLOAD` writes a row, its valid bit and the pointer, and row 0 starts a tile;
`BGATE` and `PERMLD` write lane 0 and the 32 entries; a null operand writes nothing.
Where the spec leaves a point of these open the choice is the model's: log 27, 34. -/
def Obligations.BrickLoadsAndDots : Prop :=
  ∀ (s : State) (o : Op), s.cur.ctx < 8 →
    let h := s.shape o; let a := s.opnd o.a.toNat; let b := s.opnd o.b.toNat; let dv := s.opnd o.dst.toNat
    let sg := decide (h.af = 0 ∨ h.bf = 0)
    let loads := fun (i : Instr) (P : State → Prop) =>
      (a.null = true → ∃ t, exec i s = .next t ∧ firingFrame s t o ∧ t.ctx = { s.ctx with outst := t.ctx.outst }) ∧
      (a.null = false → ∃ t, exec i s = .next t ∧ firingFrame s t o ∧ t.core.out = s.core.out ∧ P t ∧
        ∀ x, t.ctx.aflags.getLsbD x = (s.ctx.aflags.getLsbD x || (decide (x = 7) && a.poison)))
    (h.af < 2 → h.bf < 2 → o.dst.toNat < 8 →
      let x := fun k => (if sg = true then signed (lane dv.val k).toNat 32 else ((lane dv.val k).toNat : Int)) +
        (totalOf (fun j => (h.ea (lane a.val k) j, h.eb (lane b.val k) j)) h.na).1.at 0
      firesFrom (.dots o) s (s.holdArray (max 1 ((8 * h.na * h.bricks + 255) / 256))) o [a, b, dv] []
        (fun k r => r = BitVec.ofInt 32 (clamp (x k) 32 sg))
        (fun f sr => flagsAfter s [a, b, dv] 1 (fun k _ => if clamp (x k) 32 sg = x k then 0 else 0x40) f ∧ sr = s.ctx.sr)) ∧
    loads (.wload o) (fun t =>
      let n := o.dst.toNat % 2; let u := s.tile n; let r := if o.bmd / 8 % 2 = 1 then u.ptr.toNat else o.bmd % 8
      t.ctx = { s.ctx with tiles := t.ctx.tiles, aflags := t.ctx.aflags, outst := t.ctx.outst } ∧
        (∀ m, m ≠ n → t.tile m = s.tile m) ∧ (t.tile n).ptr.toNat = (r + 1) % 8 ∧ ∀ k, k < 8 →
          vg (t.tile n).rows k 0 = (if k = r then a.val else vg u.rows k 0) ∧
          (t.tile n).valid.getLsbD k = (decide (k = r) || (decide (r ≠ 0) && u.valid.getLsbD k)) ∧
          (t.tile n).poison.getLsbD k = (if k = r then a.poison else u.poison.getLsbD k)) ∧
    loads (.bgate o) (fun t => t.ctx = { s.ctx with gate := lane a.val 0, gatePoison := a.poison, aflags := t.ctx.aflags,
                                                     outst := t.ctx.outst }) ∧
    loads (.permld o) (fun t =>
      t.ctx = { s.ctx with perms := t.ctx.perms, aflags := t.ctx.aflags, outst := t.ctx.outst } ∧
        (∀ m, m ≠ o.bmd % 2 → vg t.ctx.perms m Perm.identity = vg s.ctx.perms m Perm.identity) ∧
        let p := vg t.ctx.perms (o.bmd % 2) Perm.identity
        p.poison = a.poison ∧ ∀ k, k < 32 → (vg p.ent k 0).toNat = a.val.toNat / 2 ^ (8 * k) % 256)

/-- R295, R303 to R305, R309: `ACCMODE` and `ACCCLR` empty every lane of the accumulators in the mask; `ACCSET` replaces a lane; `ACCADD`
and `RECSTEP` step each executing lane. Behind a group step that has not been applied each waits with its result.
Where the spec leaves a point of these open the choice is the model's: log 27, 34. -/
def Obligations.BrickAccumulatorWrites : Prop :=
  ∀ (s : State) (o : Op), s.cur.ctx < 8 →
    let h := s.shape o; let a := s.opnd o.a.toNat; let b := s.opnd o.b.toNat; let d := o.dst.toNat - 12; let c := s.ctx.getAcc d
    let kind := o.bmd / 4; let src := s.ctx.getAcc (o.a.toNat - 12)
    let empty : Vector LaneAcc 8 := Vector.replicate 8 LaneAcc.zero
    (∃ t, exec (.accmode o) s = .next t ∧ t = { s with elems := t.elems } ∧ t.ctx = { s.ctx with acc := t.ctx.acc, outst := t.ctx.outst } ∧
      (s.held = true → t.ctx.acc = s.ctx.acc ∧ ∃ x, t.ctx.outst.getLast? = some x ∧ x.effs = [.mode o.imm]) ∧
      (s.held = false → ∀ n, n < 4 → t.ctx.getAcc n =
        if o.imm / 2 ^ n % 2 = 1 then { f32 := decide (o.imm / 4096 % 2 = 1), frac := BitVec.ofNat 6 (o.imm / 64), lanes := empty }
        else s.ctx.getAcc n)) ∧
    (∃ t, exec (.accclr o) s = .next t ∧ t = { s with elems := t.elems } ∧ t.ctx = { s.ctx with acc := t.ctx.acc, outst := t.ctx.outst } ∧
      (s.held = true → t.ctx.acc = s.ctx.acc ∧ ∃ x, t.ctx.outst.getLast? = some x ∧ x.effs = [.clear o.bmd]) ∧
      (s.held = false →
        ∀ n, n < 4 → t.ctx.getAcc n = if o.bmd / 2 ^ n % 2 = 1 then { s.ctx.getAcc n with lanes := empty } else s.ctx.getAcc n)) ∧
    (12 ≤ o.dst.toNat → c.f32 = false → kind ≠ 1 → accumulates (.accset o) s s o [a] d s.runs (fun k l env =>
      let v := lane a.val k
      ({ a := if kind = 0 then v.signExtend 64 else if kind = 2 then v ++ l.a.setWidth 32 else (l.a >>> 32).setWidth 32 ++ v,
         ai := false, ao := false, av := false, ap := a.poison }, env))) ∧
    (12 ≤ o.dst.toNat → c.f32 = false → kind = 1 → accumulates (.accset o) s s o [a] d s.runs (fun k _ env =>
      let r := w64Add c.frac.toNat LaneAcc.zero (decodeF .f32 (lane a.val k).toNat) false env
      ({ r.1 with ap := r.1.ap || a.poison }, r.2))) ∧
    (12 ≤ o.dst.toNat → c.f32 = true → 2 ≤ kind → kind < 4 → accumulates (.accset o) s s o [a] d s.runs (fun k l env =>
      ({ a := if kind = 2 then l.a else (lane a.val k).setWidth 64, ai := false, ao := false, av := false, ap := a.poison }, env))) ∧
    (12 ≤ o.dst.toNat → c.f32 = true → kind = 0 → accumulates (.accset o) s s o [a] d s.runs (fun k l env =>
      let r := f32Put { LaneAcc.zero with a := l.a } (Val.ofInt (lane a.val k).toInt 0, false) env
      ({ r.1 with ap := r.1.ap || a.poison }, r.2))) ∧
    (12 ≤ o.dst.toNat → c.f32 = true → kind = 1 → accumulates (.accset o) s s o [a] d s.runs (fun k _ env =>
      let v := decodeF .f32 (lane a.val k).toNat
      ({ a := if v.isNaN = true then 0x7FC00000 else (lane a.val k).setWidth 64, ai := false, ao := false, av := false, ap := a.poison },
        env.raiseIf v.isSNaN flagINV))) ∧
    (12 ≤ o.dst.toNat → kind = 0 → c.f32 = true → accumulates (.accadd o) s s o [a] d s.runs (fun k l env =>
      let r := laneStep true 0 l (Val.ofInt (lane a.val k).toInt 0) false env
      ({ r.1 with ap := r.1.ap || a.poison }, r.2))) ∧
    (12 ≤ o.dst.toNat → kind = 0 → c.f32 = false → accumulates (.accadd o) s s o [a] d s.runs (fun k l env =>
      let x := l.a.toInt + (lane a.val k).toInt; let past := decide (x < - 2 ^ 63 ∨ 2 ^ 63 - 1 < x)
      ({ l with a := BitVec.ofInt 64 (max (- 2 ^ 63) (min (2 ^ 63 - 1) x)), ao := l.ao || past, ap := l.ap || a.poison },
        env.raiseIf past flagAOVF))) ∧
    (12 ≤ o.dst.toNat → kind = 1 → accumulates (.accadd o) s s o [a] d s.runs (fun k l env =>
      let v := decodeF .f32 (lane a.val k).toNat; let r := laneStep c.f32 c.frac.toNat l v v.isSNaN env
      ({ r.1 with ap := r.1.ap || a.poison }, r.2))) ∧
    (12 ≤ o.dst.toNat → kind = 2 ∨ kind = 3 → accumulates (.accadd o) s s o (if kind = 2 then [] else [b]) d s.runs (fun k l env =>
      let m := vg src.lanes k LaneAcc.zero; let v := accValue src m
      let q := if kind = 2 then 0 else max (-128) (min 127 (lane b.val k).toInt)
      let r := laneStep c.f32 c.frac.toNat l (v.scale q) v.isSNaN env
      ({ r.1 with ai := r.1.ai || m.ai, ao := r.1.ao || m.ao, av := r.1.av || m.av,
                  ap := r.1.ap || m.ap || (decide (kind = 3) && b.poison) }, r.2))) ∧
    (12 ≤ o.dst.toNat → accumulates (.recstep o) s (s.holdArray (max 1 ((8 * h.bricks + 255) / 256))) o [a, b] d s.runs (fun k l env =>
      let dk := h.ea (lane a.val k) 0; let xk := h.eb (lane b.val k) 0
      let special := dk.isNaN || xk.isNaN || dk.isInf || xk.isInf
      let y := if c.f32 = true then decodeF .f32 (l.a.toNat % 2 ^ 32) else Val.ofInt l.a.toInt (- (c.frac.toNat : Int))
      let r := if c.f32 = true then f32Put l (fmaVal dk y xk .rne) env
        else if special = true then ({ l with av := true }, env.raise flagINV)
        else w64Add c.frac.toNat { l with a := 0 } (fmaVal dk y xk .rne).1 false env
      ({ r.1 with ap := r.1.ap || (a.poison || b.poison) }, r.2)))

/-- R306, R308: `ACCRD` reads each executing lane in the conversion named, poisoned where a lane that executes is, and clears if asked;
the status form shows mode, `F` and sticky bits; a null trigger clears nothing. `PERM` moves units by the matrix.
Where the spec leaves a point of these open the choice is the model's: log 27. -/
def Obligations.BrickReadsAndPermutations : Prop :=
  ∀ (s : State) (o : Op), s.cur.ctx < 8 → o.dst.toNat < 12 →
    let a := s.opnd o.a.toNat; let b := s.opnd o.b.toNat; let n := o.a.toNat - 12; let c := s.ctx.getAcc n
    let st := o.bmd / 2 % 2 = 1; let clr := o.bmd % 2 = 1; let tag := BitVec.ofNat 2 o.shape
    let l := fun k => State.accLane s n k
    (12 ≤ o.a.toNat → o.a.toNat < 16 → b.null = true → ∃ t, exec (.accrd o) s = .next t ∧ firingFrame s t o ∧ resultOnly s t o.dst.toNat ∧
      deliveredTag s t o.dst.toNat (fun _ => 0) true false tag ∧ t.ctx.aflags = s.ctx.aflags) ∧
    (12 ≤ o.a.toNat → o.a.toNat < 16 → b.null = false → ∃ t val poison, exec (.accrd o) s = .next t ∧ firingFrame s t o ∧
      deliveredTag s t o.dst.toNat val false poison tag ∧
      (poison = true ↔ ¬ st ∧ ∃ k, k < 8 ∧ s.runs k = true ∧ (l k).ap = true) ∧
      (∀ k, k < 8 → State.accLane t n k = if clr ∧ s.runs k = true then LaneAcc.zero else l k) ∧
      (t.ctx.getAcc n).f32 = c.f32 ∧ (t.ctx.getAcc n).frac = c.frac ∧ (∀ m, m ≠ n → t.ctx.getAcc m = s.ctx.getAcc m) ∧
      ∀ k, k < 8 → s.runs k = true → (val k).toNat =
        if st then c.frac.toNat * 256 + b2n c.f32 * 16 + b2n (l k).ap * 8 + b2n (l k).av * 4 + b2n (l k).ao * 2 + b2n (l k).ai
        else if o.bmd / 4 = 0 ∨ (o.bmd / 4 = 2 ∧ c.f32 = true) then (l k).a.toNat % 2 ^ 32
        else if o.bmd / 4 = 1 then (if c.f32 = true then 0 else (l k).a.toNat / 2 ^ 32)
        else if o.bmd / 4 = 2 then (encodeF .f32 (Val.ofInt (l k).a.toInt (- (c.frac.toNat : Int))) .rne .ieee (State.bare s)).1
        else (toInteger (if c.f32 = true then decodeF .f32 ((l k).a.toNat % 2 ^ 32)
          else Val.ofInt (l k).a.toInt (- (c.frac.toNat : Int))) 32 true .rne (State.bare s)).1) ∧
    (o.bmd < 8 → o.bmd / 2 ≠ 3 →
      let s' := s.holdArray 1; let p := vg s.ctx.perms (o.bmd % 2) Perm.identity; let w := 8 * 2 ^ (o.bmd / 2)
      (a.null = true → ∃ t, exec (.perm o) s = .next t ∧ firingFrame s' t o ∧ resultOnly s' t o.dst.toNat ∧
        delivered s' t o.dst.toNat (fun _ => 0) true false ∧ t.ctx.aflags = s.ctx.aflags) ∧
      (a.null = false → ∃ t, ∃ val : Payload, exec (.perm o) s = .next t ∧ firingFrame s' t o ∧ resultOnly s' t o.dst.toNat ∧
        delivered s' t o.dst.toNat (lane val) false (a.poison || p.poison) ∧
        (∀ x, t.ctx.aflags.getLsbD x = (s.ctx.aflags.getLsbD x || (decide (x = 7) && a.poison))) ∧
        ∀ i, i < 256 / w → val.toNat / 2 ^ (w * i) % 2 ^ w =
          if (vg p.ent i 0).toNat / 128 = 1 then 0
          else a.val.toNat / 2 ^ (w * ((vg p.ent i 0).toNat % 32 % (256 / w))) % 2 ^ w))

/-! ### Elements: the trigger class -/

/-- R213, R220 to R222, R225, R226, R233: `NOP` does nothing, `YIELD` sets the flag, predicates are written in the executing lanes only, the loop
counters stop at zero, `REP` keeps its executing lanes; `MOVC` puts a control token on a control output, or takes the head control token to a predicate
in every executing lane. -/
def Obligations.TriggerPredicatesAndLoops : Prop :=
  ∀ (s : State) (o : Op), s.cur.ctx < 8 →
    let a := s.opnd o.a.toNat; let d := o.dst.toNat
    let bit := fun (p : Nat) (k : Nat) => (vg s.ctx.p p 0).getLsbD k
    let sets := fun (i : Instr) (p : Nat) (v : Nat → Bool) (P : State → Prop) =>
      ∃ t, exec i s = .next t ∧ t = { s with elems := t.elems } ∧ firingFrame s t { o with dqa := false, dqb := false } ∧
        t.core.out = s.core.out ∧ (∀ n, n ≠ p → vg t.ctx.p n 0 = vg s.ctx.p n 0) ∧ P t ∧
        ∀ k, k < 8 → (vg t.ctx.p p 0).getLsbD k = if s.runs k = true then v k else bit p k
    let same := fun (t : State) => t.ctx = { s.ctx with p := t.ctx.p, outst := t.ctx.outst }
    exec (.nop o) s = .next s ∧
    (∃ t, exec (.yield o) s = .next t ∧ firingFrame s t { o with dqa := false, dqb := false } ∧ t.core.out = s.core.out ∧
      t.ctx = { s.ctx with yielded := true }) ∧
    (d < 8 → o.imm / 2048 < 3 → sets (.pset o) d (fun k =>
      if o.imm / 2048 = 0 then decide (o.imm % 256 / 2 ^ k % 2 = 1)
      else if o.imm / 2048 = 1 then decide (s.conf.ox = o.imm % 256) else decide (s.conf.oy = o.imm % 256)) same) ∧
    (d < 8 → o.md.toNat < 8 → sets (.plog o) d (fun k =>
      let x := bit (o.a.toNat % 8) k; let y := bit (o.b.toNat % 8) k; let op := o.md.toNat
      if op = 0 then x && y else if op = 1 then x || y else if op = 2 then x ^^ y else if op = 3 then x && !y
      else if op = 4 then x || !y else if op = 5 then !x else if op = 6 then x
      else (List.range 8).any (fun j => s.runs j && bit (o.a.toNat % 8) j)) same) ∧
    (d < 8 → let n := o.a.toNat % 2; let l := (vg s.ctx.l n 0).toNat
      sets (.ldec o) d (fun _ => decide (1 < l)) (fun t => t.ctx = { s.ctx with p := t.ctx.p, l := t.ctx.l, outst := t.ctx.outst } ∧
        (vg t.ctx.l n 0).toNat = l - 1 ∧ vg t.ctx.l (1 - n) 0 = vg s.ctx.l (1 - n) 0)) ∧
    (let n := d % 2; let from' := o.imm / 4096 % 2 = 1
     ∃ t, exec (.loop o) s = .next t ∧ firingFrame s t { o with dqa := o.dqa && decide from', dqb := o.dqb && decide from' } ∧
      t.core.out = s.core.out ∧ t.ctx = { s.ctx with l := t.ctx.l, aflags := t.ctx.aflags } ∧
      vg t.ctx.l (1 - n) 0 = vg s.ctx.l (1 - n) 0 ∧
      (vg t.ctx.l n 0).toNat = if from' then (if a.null = true then (vg s.ctx.l n 0).toNat else (lane a.val 0).toNat % 65536)
        else o.imm % 4096) ∧
    (∃ t, exec (.rep o) s = .next t ∧ firingFrame s t { o with dqa := false, dqb := false } ∧ t.core.out = s.core.out ∧
      t.ctx = { s.ctx with rep := t.ctx.rep } ∧ t.ctx.rep.slot.toNat = o.imm % 32 ∧ t.ctx.rep.count.toNat = o.imm / 32 % 256 ∧
      t.ctx.rep.lanes = s.cur.lanes) ∧
    let port := o.dst.toNat % 2; let p := o.imm / 256 % 8; let k := o.imm / 32 % 8
    let frame := fun (t : State) => t = { s with elems := t.elems } ∧ (∀ e, e ≠ s.cur.elem → t.elem e = s.elem e) ∧
      t.elem s.cur.elem = { s.elem s.cur.elem with core := t.core } ∧
      t.core = { s.core with ctx := t.core.ctx, qin := t.core.qin, qout := t.core.qout } ∧
      ∀ c, c ≠ s.cur.ctx → vg t.core.ctx c (Ctx.activated 0) = vg s.core.ctx c (Ctx.activated 0)
    (o.imm / 4096 % 2 = 0 → ∃ t, exec (.movc o) s = .next t ∧ frame t ∧ t.ctx = s.ctx ∧ t.core.qin = s.core.qin ∧
      vg t.core.qout port [] = vg s.core.qout port [] ++
        [if o.imm / 2048 % 2 = 1 then (vg s.ctx.p p 0).getLsbD k else decide (o.imm % 2 = 1)] ∧
      vg t.core.qout (1 - port) [] = vg s.core.qout (1 - port) []) ∧
    (o.imm / 4096 % 2 = 1 → ∀ v q, vg s.core.qin port [] = v :: q → ∃ t, exec (.movc o) s = .next t ∧ frame t ∧
      t.ctx = { s.ctx with p := t.ctx.p, outst := t.ctx.outst } ∧ t.core.qout = s.core.qout ∧ vg t.core.qin port [] = q ∧
      vg t.core.qin (1 - port) [] = vg s.core.qin (1 - port) [] ∧ (∀ m, m ≠ p → vg t.ctx.p m 0 = vg s.ctx.p m 0) ∧
      ∀ k, k < 8 → (vg t.ctx.p p 0).getLsbD k = if s.runs k = true then v else (vg s.ctx.p p 0).getLsbD k)

/-- R223, R207, R213: `SEND` and `TAG` send a head with its kind, round, tag and poison, and a register or constant with the sideband of
the context, zero in the lanes that do not execute; `NULLT` sends a null token; `DEQ` removes the named heads and may report the sink.
Where the spec leaves a point of these open the choice is the model's: log 2, 27, 28. -/
def Obligations.TriggerChannels : Prop :=
  ∀ (s : State) (o : Op), s.cur.ctx < 8 →
    let a := s.opnd o.a.toNat; let n := o.dst.toNat - 8
    let kept := fun (t : State) => t.ctx = { s.ctx with aflags := t.ctx.aflags, outst := t.ctx.outst } ∧
      ∀ b, t.ctx.aflags.getLsbD b = (s.ctx.aflags.getLsbD b || (decide (b = 7) && a.poison))
    let sends := fun (i : Instr) (tag : BitVec 2 → BitVec 2) =>
      ∃ t q, exec i s = .next t ∧ firingFrame s t o ∧ kept t ∧ vg t.core.out n [] = vg s.core.out n [] ++ [q] ∧
        (∀ m, m ≠ n → vg t.core.out m [] = vg s.core.out m []) ∧
        (∀ k, k < 8 → lane q.tok.payload k = if s.runs k = true then lane a.val k else 0) ∧ q.tok.poison = (a.poison && !a.null) ∧
        (∀ hd, 8 ≤ o.a.toNat → o.a.toNat < 12 → s.head (o.a.toNat - 8) = some hd →
          q.tok.kind = hd.kind ∧ q.tok.round = hd.round ∧ q.tok.tag = tag hd.tag) ∧
        (o.a.toNat < 8 ∨ 16 ≤ o.a.toNat → q.tok.kind = (if a.null = true then 1 else 0) ∧ q.tok.round = s.ctx.cround ∧ q.tok.tag = tag 0)
    (8 ≤ o.dst.toNat → o.dst.toNat < 12 →
      (∀ hd, 8 ≤ o.a.toNat → o.a.toNat < 12 → s.head (o.a.toNat - 8) = some hd → hd.kind = 1 → hd.poison = false) →
      sends (.send o) id ∧ sends (.tag o) (fun _ => BitVec.ofNat 2 o.imm) ∧
      ∃ t q, exec (.nullt o) s = .next t ∧ firingFrame s t { o with dqa := false, dqb := false } ∧
        t.ctx = { s.ctx with outst := t.ctx.outst } ∧ vg t.core.out n [] = vg s.core.out n [] ++ [q] ∧
        (∀ m, m ≠ n → vg t.core.out m [] = vg s.core.out m []) ∧ q.tok.kind = 1 ∧ q.tok.round = s.ctx.cround ∧ q.tok.tag = 0 ∧
        q.tok.poison = false) ∧
    (let mark := fun (dq : Bool) (code : BitVec 5) => dq = true ∧ ∃ hd, s.head (code.toNat - 8) = some hd ∧ hd.kind = 2 ∧ hd.payload.toNat % 4 = 1
     let reports := o.md.toNat / 16 % 2 = 1 ∧ (mark o.dqa o.a ∨ mark o.dqb o.b)
     (reports → ∃ t u, exec (.deq o) s = .next t ∧ firingFrame s u o ∧ u.core.out = s.core.out ∧
       u.ctx = { s.ctx with aflags := u.ctx.aflags } ∧ t = { u with regions := s.reportSink.regions }) ∧
     (¬ reports → ∃ t, exec (.deq o) s = .next t ∧ firingFrame s t o ∧ t.core.out = s.core.out ∧
       t.ctx = { s.ctx with aflags := t.ctx.aflags }))

/-- R215 to R217, R224: `MFWD` sends an identical mark on every output of its mask and `MGEN` a new one carrying `CROUND`; a round mark
advances `CROUND` by one, an end mark does not; a counted end mark waits for the earlier requests of its context on that output.
Where the spec leaves a point of these open the choice is the model's: log 37. -/
def Obligations.TriggerMarks : Prop :=
  ∀ (s : State) (o : Op), s.cur.ctx < 8 →
    let sent := fun (t : State) (mask : Nat → Prop) (mark : Token) (count : Bool) (lsid : Nat) =>
      ∀ n, n < 4 →
        (¬ mask n → vg t.core.out n [] = vg s.core.out n []) ∧
        (mask n → ∃ q, vg t.core.out n [] = vg s.core.out n [] ++ [q] ∧ q.tok = { mark with src := q.tok.src } ∧
          q.counts = if count = true then some (lsid, s.earlier (some n)) else none)
    let round := fun (t : State) (ends : Bool) => t.ctx = { s.ctx with cround := t.ctx.cround, outst := t.ctx.outst } ∧
      t.ctx.cround = if ends = true then s.ctx.cround else s.ctx.cround + 1
    (∀ hd, 8 ≤ o.a.toNat → o.a.toNat < 12 → s.head (o.a.toNat - 8) = some hd → hd.kind = 2 → hd.payload.toNat % 4 < 2 →
      o.md.toNat % 16 ≠ 0 → o.dqb = false → o.dqa = true →
      let ends := decide (hd.payload.toNat % 4 = 1)
      ∃ t u, exec (.mfwd o) s = .next t ∧ firingFrame s u o ∧ round u ends ∧
        sent u (fun n => o.md.toNat / 2 ^ n % 2 = 1) hd (decide (o.ty.toNat % 2 = 1) && ends) o.b.toNat ∧
        t = if o.md.toNat / 16 % 2 = 1 ∧ ends = true then { u with regions := s.reportSink.regions } else u) ∧
    (8 ≤ o.dst.toNat → o.dst.toNat < 12 → o.md.toNat < 2 →
      let ends := decide (o.md.toNat = 1)
      ∃ t, exec (.mgen o) s = .next t ∧ firingFrame s t { o with dqa := false, dqb := false } ∧ round t ends ∧
        sent t (fun n => n = o.dst.toNat - 8)
          { payload := BitVec.ofNat 256 o.md.toNat, kind := 2, round := s.ctx.cround, tag := 0, poison := false, src := 0 }
          (decide (o.ty.toNat % 2 = 1) && ends) o.b.toNat)

/-- R207, R227, R179, R181, R239: `LDP` reads and `STP` writes the granule of the element's own pond at the offset, in the executing lanes;
a poisoned operand, the base among them, poisons what is stored; a null
operand accesses nothing; an offset that is no multiple of 32 is element fault 0x0017, and the firing has no effect.
Where the spec leaves a point of these open the choice is the model's: log 27. -/
def Obligations.TriggerPondMemory : Prop :=
  ∀ (s : State) (o : Op), s.cur.ctx < 8 →
    let a := s.opnd o.a.toNat; let indexed := o.dst.toNat / 8 = 1
    let b : Src := if indexed then s.opnd (o.dst.toNat % 8) else { val := 0, null := false, poison := false }
    let off := fun (base : Payload) => ((lane base 0).toNat % 4096 + 32 * (o.imm % 128)) % 4096
    let counted := (s.countAccess (o.imm / 256)).regions
    let frame := fun (t : State) => 
      firingFrame s { t with regions := s.regions, stores := s.stores, poison := s.poison, upsets := s.upsets } o ∧ t.regions = counted
    let untouched := fun (t : State) => t.stores = s.stores ∧ t.poison = s.poison ∧ t.upsets = s.upsets
    let psn := fun (t : State) => ∀ f, t.ctx.aflags.getLsbD f = (s.ctx.aflags.getLsbD f || (decide (f = 7) && (a.poison || b.poison)))
    let fault := fun (i : Instr) (f : Nat) => ∀ r, s.regionOfElem s.cur.elem = some r →
      ∃ t x, exec i s = .next t ∧ t = s.modRegion r.lead (fun r => { r with faults := r.faults ++ [x], stopped := true, faultAt := s.cycle + 1 }) ∧ x.cause = 0x17 ∧
        x.elem = some s.cur.elem ∧ x.ctx = s.cur.ctx % 4 ∧ x.slot = s.cur.slot ∧ x.bank = s.cur.ctx / 4 ∧ x.detail = BitVec.ofNat 64 f
    let cell := fun f => pondCell s.cur.elem f
    (o.dst.toNat < 12 →
      (a.null = true → ∃ t, exec (.ldp o) s = .next t ∧ frame t ∧ untouched t ∧
        delivered s t o.dst.toNat (fun _ => 0) true false) ∧
      (a.null = false → off a.val % 32 ≠ 0 → fault (.ldp o) (off a.val)) ∧
      (a.null = false → off a.val % 32 = 0 → ∃ t, exec (.ldp o) s = .next t ∧ frame t ∧ untouched t ∧
        resultOnly s t o.dst.toNat ∧
        delivered s t o.dst.toNat (fun k => BitVec.ofNat 32 (number s (cell (off a.val) + 4 * k) 4)) false
          (a.poison || s.badAt (cell (off a.val))))) ∧
    (a.null = true ∨ b.null = true → ∃ t, exec (.stp o) s = .next t ∧ frame t ∧ untouched t ∧
      t.ctx = { s.ctx with aflags := t.ctx.aflags } ∧ psn t ∧ t.core.out = s.core.out) ∧
    (a.null = false → b.null = false → off b.val % 32 ≠ 0 → fault (.stp o) (off b.val)) ∧
    (a.null = false → b.null = false → off b.val % 32 = 0 → ∃ t, exec (.stp o) s = .next t ∧ frame t ∧
      t.ctx = { s.ctx with aflags := t.ctx.aflags } ∧ psn t ∧ t.core.out = s.core.out ∧
      let c := cell (off b.val)
      (∀ u, t.poison.contains u = if u = c then a.poison || b.poison else s.poison.contains u) ∧
      ∀ k, t.byte k =
        if c ≤ k ∧ k < c + 32 then
          (if a.poison = true ∨ b.poison = true then 0
           else if s.runs ((k - c) / 4) = true then BitVec.ofNat 8 ((lane a.val ((k - c) / 4)).toNat / 256 ^ ((k - c) % 4))
           else if s.lost c = true then 0 else s.byte k)
        else s.byte k)

/-- R85, R217, R228, R230: the packets of `LDE`, `STE`, `CMDE` and the class-11 instructions: the operand lanes in their places, the command
word in lane 7, null where an operand is, entered on the output, counted under their LSID and numbered as a request of the context.
Where the spec leaves a point of these open the choice is the model's: log 2, 27. -/
def Obligations.TriggerRequests : Prop :=
  ∀ (s : State) (o : Op) (opc : BitVec 6), s.cur.ctx < 8 → s.cur.elem < 49152 → 8 ≤ o.dst.toNat → o.dst.toNat < 12 →
    let a := s.opnd o.a.toNat; let b := s.opnd o.b.toNat; let n := o.dst.toNat - 8
    let word := fun (cls code : Nat) => cls * 2 ^ 30 + code * 2 ^ 24 + o.a.toNat * 2 ^ 15 + o.b.toNat * 2 ^ 10 + o.ty.toNat * 2 ^ 7 + o.md.toNat * 4
    let frame := fun (t : State) (lsid : Nat) =>
      firingFrame s { t.setElem s.cur.elem { t.elem s.cur.elem with core := { t.core with reqs := s.core.reqs, nextReq := s.core.nextReq } }
        with regions := s.regions } o ∧
      t.regions = (s.countAccess lsid).regions ∧
      t.ctx = { s.ctx with aflags := t.ctx.aflags, outst := t.ctx.outst } ∧
      (∀ m, m ≠ n → vg t.core.out m [] = vg s.core.out m []) ∧ t.core.nextReq = s.core.nextReq + 1 ∧
      ∃ r, t.core.reqs = s.core.reqs ++ [r] ∧ srcElem r = s.cur.elem ∧ srcCtx r = s.cur.ctx
    let packet := fun (q : OutTok) (null poison : Bool) (val : Nat → Word) =>
      q.tok.kind = (if null = true then 1 else 0) ∧ q.tok.round = s.ctx.cround ∧ q.tok.tag = 0 ∧ q.tok.poison = (poison && !null) ∧
        ∀ k, k < 8 → lane q.tok.payload k = val k
    let address := fun w k => if k < 2 then lane a.val k else if k = 7 then BitVec.ofNat 32 w else 0
    (∃ t q, exec (.lde o) s = .next t ∧ frame t o.md.toNat ∧ vg t.core.out n [] = vg s.core.out n [] ++ [q] ∧
      packet q a.null a.poison (address (word 2 0x0C))) ∧
    (∃ t q r, exec (.ste o) s = .next t ∧ frame t o.md.toNat ∧ vg t.core.out n [] = vg s.core.out n [] ++ [q, r] ∧
      packet q (a.null || b.null) a.poison (address (word 2 0x0D)) ∧ packet r (a.null || b.null) b.poison (lane b.val)) ∧
    (∃ t q, exec (.engineCommandSend opc o) s = .next t ∧ frame t o.md.toNat ∧ vg t.core.out n [] = vg s.core.out n [] ++ [q] ∧
      packet q (a.null || b.null) (a.poison || b.poison) (fun k =>
        if k < 4 then lane a.val k else if k < 7 then lane b.val (k - 4) else BitVec.ofNat 32 (word 3 opc.toNat))) ∧
    (∃ t q, exec (.cmde o) s = .next t ∧ frame t ((lane a.val 7).toNat / 4 % 32) ∧ vg t.core.out n [] = vg s.core.out n [] ++ [q] ∧ q.tok.payload = a.val ∧
      ∀ hd, 8 ≤ o.a.toNat → o.a.toNat < 12 → s.head (o.a.toNat - 8) = some hd → q.tok = { hd with src := q.tok.src })

/-- R35, R218, R231, R232, R234, R239, R240: a branch token reaches the block of its firing, a second one is a block fault; a write-back
leaves for the lead pilot, where those of a cycle arrive in element order: a duplicate or undeclared register and a poisoned value
are block faults; `FAULTE` is element fault 0x0018 and has no other effect. -/
def Obligations.TriggerBlockReports : Prop :=
  ∀ (s : State) (o : Op) (r : Region) (b : Block), s.cur.ctx < 8 → s.regionOfElem s.cur.elem = some r → s.blockOf s.cur.elem s.cur.ctx = some b →
    let a := s.opnd o.a.toNat; let n := o.dst.toNat
    let report := fun (cause detail : Nat) =>
      ({ cause := cause, elem := none, ctx := 0, slot := 0, bank := 0, detail := BitVec.ofNat 64 detail } : FaultEv)
    let charged := fun (t : State) (x : FaultEv) =>
      t = s.modRegion r.lead (fun r => { r with faults := r.faults ++ [x], stopped := true, faultAt := s.cycle + 1 })
    (b.branch = none → ∃ t, exec (.brtok o) s = .next t ∧ t = { s with regions := t.regions } ∧
      t.blockOf s.cur.elem s.cur.ctx = some { b with branch := some (o.imm % 4) }) ∧
    (b.branch ≠ none → ∃ t, exec (.brtok o) s = .next t ∧ charged t (report 1 (o.imm % 4))) ∧
    (a.null = true → ∃ t, exec (.wbk o) s = .next t ∧ firingFrame s t o ∧ t.ctx = s.ctx ∧ t.core.out = s.core.out) ∧
    (a.null = false → ∃ t, exec (.wbk o) s = .next t ∧ firingFrame s { t with regions := s.regions } o ∧ t.core.out = s.core.out ∧
      t.ctx = { s.ctx with aflags := t.ctx.aflags } ∧
      (∀ f, t.ctx.aflags.getLsbD f = (s.ctx.aflags.getLsbD f || (decide (f = 7) && a.poison))) ∧
      t.blockOf s.cur.elem s.cur.ctx = some { b with
        wbIn := b.wbIn ++ [{ elem := s.cur.elem, reg := n, val := lane a.val 1 ++ lane a.val 0, poison := a.poison }] }) ∧
    (∀ w : WbArrival,
      (b.img.wbMask / 2 ^ w.reg % 2 = 0 ∨ tfind b.wbs w.reg ≠ none → b.arrive w = (b, [report 3 w.reg])) ∧
      (b.img.wbMask / 2 ^ w.reg % 2 = 1 → tfind b.wbs w.reg = none →
        (b.arrive w).1 = { b with wbs := (b.arrive w).1.wbs } ∧ tfind (b.arrive w).1.wbs w.reg = some w.val ∧
        (∀ m, m ≠ w.reg → tfind (b.arrive w).1.wbs m = tfind b.wbs m) ∧
        (b.arrive w).2 = if w.poison = true then [report 6 w.reg] else [])) ∧
    (∀ w x, b.wbIn = [w, x] →
      let first := if x.elem < w.elem then x else w; let second := if x.elem < w.elem then w else x
      let p := ({ b with wbIn := [] } : Block).arrive first; let q := p.1.arrive second
      b.arriveAll = (q.1, p.2 ++ q.2)) ∧
    ∃ t x, exec (.faulte o) s = .next t ∧ charged t x ∧ x.cause = 0x18 ∧ x.elem = some s.cur.elem ∧ x.ctx = s.cur.ctx % 4 ∧
      x.slot = s.cur.slot ∧ x.bank = s.cur.ctx / 4 ∧ x.detail = BitVec.ofNat 64 (o.imm % 4096)

/-! ### The switch network and regions -/

/-- R31, R187, R188, R190, R194, R195, R197, R205, R217, R220, R245: results complete, yield flags time out, a token moves from its source to an
input and leaves when the last destination has taken it, delay lines and channel nodes deliver in order, and link faults stop regions.
Where the spec leaves a point of these open the choice is the model's: log 22, 37. -/
def Obligations.FabricFlow : Prop :=
  ∀ s : State, let e := s.cur.x; let m := s.elem e; let y := s.cur.y
    (∀ x r, y < 8 → (vg m.core.ctx y (Ctx.activated 0)).outst = x :: r → x.left = 0 → x.group = none →
      (∀ z, r.head? = some z → z.left ≠ 0 ∨ z.group ≠ none) →
      ∃ t, exec .brickResultCompletes s = .next t ∧ t = { s with elems := t.elems } ∧ elemsKept s t (fun f => f = e) ∧
        t.elem e = { m with core := { m.core with
          ctx := vs m.core.ctx y { vg m.core.ctx y (Ctx.activated 0) with
            outst := r, aflags := (vg m.core.ctx y (Ctx.activated 0)).aflags ||| x.flags }, out := (t.elem e).core.out } } ∧
        (∀ n, Dest.out n ∉ x.dests → vg (t.elem e).core.out n [] = vg m.core.out n []) ∧
        ∀ n pre q post, n < 4 → x.dests = [.out n] → vg m.core.out n [] = pre ++ q :: post → q.ready = false →
          q.tok.src % 2 ^ 24 = 1 + (e * 8 + y) * 4 + n → (∀ z ∈ pre, z.ready = true ∨ z.tok.src % 2 ^ 24 ≠ 1 + (e * 8 + y) * 4 + n) →
          vg (t.elem e).core.out n [] = pre ++ { q with ready := true } :: post) ∧
    (4 ≤ m.core.idle → ∃ t, exec .yieldClearTimeout s = .next t ∧ t = { s with elems := t.elems } ∧ elemsKept s t (fun f => f = e) ∧
      t.elem e = { m with core := { m.core with idle := 0, ctx := (t.elem e).core.ctx } } ∧
      ∀ c, c < 8 → vg (t.elem e).core.ctx c (Ctx.activated 0) = { vg m.core.ctx c (Ctx.activated 0) with yielded := false }) ∧
    (∀ tok d, d = s.cur.z → y < 8 → 4 ≤ d → d < 8 → s.routes e = true → s.feeder e d = some (.src y) →
      (vg m.router.offers y []).contains d = true → d ∉ vg m.router.taken y [] → s.srcHead e y = some tok → tok.kind < 2 → inputOpen s e (d - 4) →
      ∃ t, exec .tokenTaken s = .next t ∧ t = { s with elems := t.elems, regions := t.regions } ∧ elemsKept s t (fun f => f = e) ∧
        (∀ i, i < 4 → vg (t.elem e).core.inp i [] = vg m.core.inp i [] ++ (if i = d - 4 then [tok] else [])) ∧
        let gone := ∀ x ∈ s.targets e y, s.fed e x = d ∨ s.fed e x ∈ vg m.router.taken y []
        (gone → if y < 4 then vg (t.elem e).router.rin y [] = (vg m.router.rin y []).tail
          else vg (t.elem e).core.out (y - 4) [] = (vg m.core.out (y - 4) []).tail) ∧
        (¬ gone → vg (t.elem e).router.taken y [] = d :: vg m.router.taken y [] ∧ (t.elem e).router.rin = m.router.rin ∧
          (t.elem e).core.out = m.core.out)) ∧
    (∀ tok, y < 8 → s.routes e = true → s.srcHead e y = some tok →
      (∃ d ∈ s.targets e y, s.fed e d ∉ vg m.router.taken y []) →
      ∃ t, exec .routeForward s = .next t ∧ t = { s with elems := t.elems } ∧ elemsKept s t (fun f => f = e) ∧
        (t.elem e).core = m.core ∧ (t.elem e).router = { m.router with offers := (t.elem e).router.offers } ∧
        ∀ d, d < 64 → ((vg (t.elem e).router.offers y []).contains d = true ↔
          d ∈ s.targets e y ∧ s.fed e d ∉ vg m.router.taken y [])) ∧
    (∀ v d, d = s.cur.z → 8 ≤ y → y < 16 → 4 ≤ d → d < 6 → s.routes e = true → (vg m.router.offers (y - 8) []).contains (64 + d) = true →
      s.ctlHead e (y - 8) = some v → (vg m.core.qin (d - 4) []).length < 4 → m.core.blocked = false → vg m.router.chold d 0 ≤ s.cycle →
      ∃ t, exec .tokenTaken s = .next t ∧ t = { s with elems := t.elems, regions := t.regions } ∧ elemsKept s t (fun f => f = e) ∧
        vg (t.elem e).core.qin (d - 4) [] = vg m.core.qin (d - 4) [] ++ [v] ∧ vg (t.elem e).router.chold d 0 = s.cycle + 1) ∧
    (∀ tok due rest d, d = swDst (s.swWord e y) → 4 ≤ d → d < 8 → s.routes e = true → s.feeder e d = some (.delay y) →
      tget m.router.delay y [] = (tok, due) :: rest → due ≤ s.cycle → tok.kind < 2 → inputOpen s e (d - 4) →
      ∃ t, exec .delayNodeOffer s = .next t ∧ t = { s with elems := t.elems, regions := t.regions } ∧ elemsKept s t (fun f => f = e) ∧
        vg (t.elem e).core.inp (d - 4) [] = vg m.core.inp (d - 4) [] ++ [tok] ∧ tget (t.elem e).router.delay y [] = rest ∧
        ∀ k, k ≠ y → tget (t.elem e).router.delay k [] = tget m.router.delay k []) ∧
    (let w := s.swWord e y; let d := swSide w; let f := chanFifo e w
     ∀ x key, s.routes e = true → s.feeder e d = some (.chan y) → s.chanHead e w = some x → s.chanKey e w = some key →
      (key ≠ x.key → ∀ r, s.regionOfElem e = some r → ∃ t, exec .channelNodeDeliver s = .next t ∧
        faultOf s t r { cause := 0x15, elem := some e, ctx := 0, slot := 0, bank := m.core.active,
                        detail := BitVec.ofNat 64 (swPort w) }) ∧
      (key = x.key → s.tiding e = false → x.tok.malformed = false → d < 4 → ∀ n, neighbourOf e d = some n →
        s.linkReady n (facing d) = true →
        ∃ t, exec .channelNodeDeliver s = .next t ∧
          t = { s with elems := t.elems, regions := t.regions, fifos := t.fifos, agenda := t.agenda } ∧ elemsKept s t (fun k => k = n) ∧
          (t.fifo f).toks = (s.fifo f).toks.tail ∧
          vg (t.elem n).router.rin (facing d) [] = vg (s.elem n).router.rin (facing d) [] ++ [x.tok])) ∧
    (s.isHot e = true → y < 4 → s.cycle < vg m.router.hold y 0 → ∃ t, exec .readyDelayCount s = .next t ∧
      t = { s with elems := t.elems } ∧ elemsKept s t (fun f => f = e) ∧
      t.elem e = { m with router := { m.router with
        lowUntil := vs m.router.lowUntil y (vg m.router.hold y 0 + s.readyCount e y) } }) ∧
    (∀ r, s.regionOfElem e = some r → let slot := decide (y = 0)
      (m.core.blocked = true ∨ s.badParity e (!slot) s.cur.z = false → exec .configurationParity s = .next s) ∧
      ((if slot = true then s.fires r else s.alive r) = true → m.core.blocked = false → s.badParity e (!slot) s.cur.z = true →
        s.vox.events.length < 1024 → ∃ t, exec .configurationParity s = .next t ∧
        t = { s with elems := t.elems, regions := t.regions, vox := t.vox } ∧
        eventLast t (0x40 + e / 1024) 0x0022 r.vd [BitVec.ofNat 64 e] ∧ elemsKept s t (fun f => f = e) ∧
        t.elem e = { m with core := { m.core with blocked := true } } ∧
        t.regions = s.regions.map (fun q => if q.lead = r.lead then { q with stopped := true, faultAt := s.cycle + 1, faults := q.faults ++
          [{ cause := 0x11, elem := some e, ctx := if slot = true then s.cur.ctx % 4 else 0, slot := if slot = true then s.cur.z else 0,
             bank := m.core.active, detail := BitVec.ofNat 64 s.cur.z }] } else q))) ∧
    (∀ q, s.regionOfElem e = some q → ∃ t, exec .elementBlocked s = .next t ∧ t = { s with elems := t.elems, regions := t.regions } ∧
      elemsKept s t (fun f => f = e) ∧ t.elem e = { m with core := { m.core with blocked := true } } ∧
      t.regions = s.regions.map (fun k => if k.lead = q.lead then { k with stopped := true, faultAt := s.cycle + 1, faults := k.faults ++
        [{ cause := 0x10, elem := some e, ctx := 0, slot := 0, bank := m.core.active,
           detail := BitVec.ofNat 64 s.cur.y }] } else k)) ∧
    (5 ≤ e ∨ 64 ≤ y → exec .dieLinkFailure s = .next s) ∧
    (e < 5 → y < 64 → s.vox.events.length < 1024 → ∃ t, exec .dieLinkFailure s = .next t ∧ t = { s with regions := t.regions, vox := t.vox } ∧
      eventLast t (0x80 + e) 0x0020 255 [BitVec.ofNat 64 y] ∧
      ∀ p r, p = 8 * e + 7 ∨ p = 8 * e + 8 → s.regionAt p = some r → ∃ q, t.regionAt p = some q ∧ q.stopped = true ∧
        ∃ f ∈ q.faults, f.cause = 0x16 ∧ f.elem = none ∧ f.detail = BitVec.ofNat 64 y)

/-- R25, R36, R121, R200 to R203, R241, R330, R333, R335: in its cycle an element whose ports are empty passes to its other slot with that
slot's activation values and a swap mark, which names it, on each bound output, and keeps which elements' marks switched it; its router and
the column ends follow; a rewrite applies to every router named, or blocks an element.
Where the spec leaves a point of these open the choice is the model's: log 21, 32, 37. -/
def Obligations.FabricSwaps : Prop :=
  ∀ s : State, let e := s.cur.x; let m := s.elem e
    (∀ r, s.regionOfElem e = some r → s.swapsNow r e = false → exec .elementSwap s = .next s) ∧
    (∀ r, let old := vg m.core.cfg m.core.active ElemCfg.empty
      s.regionOfElem e = some r → s.elemCycle r e = true → s.slackHolds r e = false → m.core.blocked = false → m.snap = none →
      m.swapReady = true → m.core.active < 2 → old.bound ≠ 0 ∨ r.armedAt < s.cycle →
      (r.shadow = .swapping ∧ r.newInc ≠ some old.inc) ∨ (r.shadow = .armed ∧ r.shImg ≠ none) →
      let b := 1 - m.core.active; let c := vg m.core.cfg b ElemCfg.empty
      ∃ t, exec .elementSwap s = .next t ∧ memoryKept s t ∧ (t.elem e).core.active = b ∧ (t.elem e).swapIn = 0 ∧
        (t.elem e).last = s.cycle + 1 ∧ (t.elem e).core.ptr = 3 ∧ (t.elem e).core.inp = m.core.inp ∧
        (∀ n, n < 4 → vg (t.elem e).core.out n [] =
          if c.bound / 2 ^ (4 + n) % 2 = 1 then
            [{ tok := { swapMark with src := 1 + (e * 8 + b * 4) * 4 + n }, ready := true, counts := none }] else []) ∧
        (t.elem e).marksFrom = [] ∧ (∀ f, f ∈ (t.elem e).upFrom ↔ f ∈ m.marksFrom) ∧
        (∀ k, k < 4 → vg (t.elem e).core.ctx (b * 4 + k) (Ctx.activated 0) =
          Ctx.activated (srSeed c.seed (c.oy * c.width + c.ox) k)) ∧
        (∀ x ∈ (t.elem e).core.group, x.1 % 8 / 4 ≠ b) ∧
        (r.shadow = .armed → t.incs = s.incs + 1 ∧ ∃ q, t.region r.lead = some q ∧ q.shadow = .swapping ∧
          (∃ k, q.succ = some k ∧ k.inc = s.incs) ∧ ∃ l x, q.compQ = l ++ [x] ∧ x.inc = s.incs ∧ x.status = none)) ∧
    (m.core.active ≠ m.router.rset → s.routes e = true → m.mayChange (s.swWords e) = true →
      ∃ t, exec .routerSetChange s = .next t ∧ t = { s with elems := t.elems } ∧ elemsKept s t (fun f => f = e) ∧
        t.elem e = { m with router := { m.router with rset := m.core.active, swapPassed := 0, tidePassed := 0,
                                                       offers := Vector.replicate 8 [] } }) ∧
    (∀ r inc, s.region e = some r → r.newInc = some inc ∨ (r.newInc = none ∧ ∃ b, r.cur = some b ∧ b.inc = inc) →
      r.hasEnd s.cur.y = true → (s.edge s.cur.y).endInc ≠ inc →
      (∃ o, r.blockOf (s.edge s.cur.y).endInc = some o ∧ o.bindsAt r.lead s.cur.y ≠ [] ∧ ∀ x ∈ o.bindsAt r.lead s.cur.y, x.swapped = true) ∨
        ((∀ o, r.blockOf (s.edge s.cur.y).endInc = some o → o.bindsAt r.lead s.cur.y = []) ∧
          ((s.edge s.cur.y).swapCrossed = true ∨ s.allSwapped r inc = true)) →
      ∃ t, exec .columnEndPasses s = .next t ∧ t = { s with edges := t.edges, regions := t.regions } ∧ (∀ g, g ≠ s.cur.y → t.edge g = s.edge g) ∧
        (∃ q, t.region e = some q ∧ q = { r with prev := q.prev } ∧ (q.prev = r.prev ∨ q.prev = none)) ∧
        t.edge s.cur.y = { s.edge s.cur.y with endInc := inc, swapCrossed := false }) ∧
    (∀ r w l, s.region e = some r → r.rewrites = w :: l → w.issued + 16 ≤ s.cycle → r.lastRewrite < s.cycle → s.gated r = false →
      s.linesEmpty r w = true →
      ∃ t, exec .switchRewriteApply s = .next t ∧ memoryKept s t ∧ (t.pilot w.pilot).pc = (s.pilot w.pilot).pc + 4 ∧
        (∃ q, t.region e = some q ∧ q = { r with rewrites := l, lastRewrite := s.cycle }) ∧
        (s.rewriteBad r w = none → ∀ f b, w.banks.filter (fun x => x.1 = f) = [(f, b)] →
          vg (t.elem f).core.cfg b ElemCfg.empty = { vg (s.elem f).core.cfg b ElemCfg.empty with
            sw := writeRecs w.recs (colOf f - 8 * r.lead) (rowOf f) (vg (s.elem f).core.cfg b ElemCfg.empty).sw } ∨ 2 ≤ b) ∧
        (∀ f v, s.rewriteBad r w = some (f, v) → t.elems = s.elems ∧ t.agenda = .event .elementBlocked f v 0 :: s.agenda))

/-- R34, R35, R71, R111, R237 to R240, R330, R331, R334, R335: the end of a load; the four conditions judged at the end of a cycle, and the
commit once the engines have drained; block faults, element faults that freeze or end the block, when what has been performed is
ordered before them; every element that loads an illegal word of an image blocked.
Where the spec leaves a point of these open the choice is the model's: log 37. -/
def Obligations.RegionBlocks : Prop :=
  ∀ (s : State) (r : Region), s.region s.cur.x = some r → s.gated r = false →
    let after := fun (i : Instr) (P : Region → State → Prop) => ∃ t q, exec i s = .next t ∧ memoryKept s t ∧ t.region s.cur.x = some q ∧ P q t
    let entry := fun (q : Region) (inc : Nat) (status : Nat) (wbs : Tbl DWord) =>
      q.compQ = r.compQ.map (fun c => if c.inc = inc ∧ c.status = none then { c with status := some (BitVec.ofNat 34 status), wbs := wbs } else c)
    let holds := fun (b : Block) =>
      (∀ l, l < 32 → b.img.storeMask / 2 ^ l % 2 = 1 → ∀ x ∈ b.emitters, x.2 = l → x ∈ b.counted) ∧
      (∀ n, n < 16 → b.img.wbMask / 2 ^ n % 2 = 1 → tfind b.wbs n ≠ none) ∧ (∀ k ∈ b.sinks, k ∈ b.sunk) ∧ b.branch ≠ none
    let drained := fun (b : Block) => (∀ g ∈ r.ends, ∀ c ∈ (s.edge g).cmds, c.inc ≠ b.inc) ∧
      (b.img.flags / 4 % 2 = 1 → s.sysReady r.vd = true)
    let load := s.loadImage r.vd r.lead r.bands r.loadAddr
    (r.shadow = .loading →
      (∀ m, load = .image m → after .blockLoadEnds (fun q t => q = { r with shadow := .loaded, shImg := some m } ∧
        ∀ e, e ∈ r.elems → (s.elem e).core.active < 2 → let k := (s.elem e).core
          (t.elem e).core = { k with cfg := vs k.cfg (1 - k.active) (m.cfg r.lead e), parity := k.parity.filter (fun z => z / 64 != 1 - k.active) })) ∧
      (∀ f, load = .fail f → after .blockLoadEnds (fun q t =>
        q = { r with shadow := .failed, failSub := 0, failInfo := BitVec.ofNat 64 (f.code + (8 * r.lead + f.col) * 2 ^ 8 + f.row * 2 ^ 17) } ∧
        (f.code ∉ [0x0A, 0x11, 0x12] ∨ r.running ≠ .none → t.elems = s.elems) ∧
        ∀ e, t.elem e = if r.running = .none ∧ e ∈ s.loadBlocks r.vd r.lead r.bands r.loadAddr f
          then { s.elem e with core := { (s.elem e).core with blocked := true } } else s.elem e)) ∧
      (∀ c bad, load = .fetch c bad → after .blockLoadEnds (fun q t => t.elems = s.elems ∧
        q = { r with shadow := .failed, failSub := c, failInfo := BitVec.ofNat 64 r.loadAddr }))) ∧
    (∀ b, r.running = .running → r.cur = some b →
      (r.faults = [] → r.ending = false → b.sinks ≠ [] → (∀ k ∈ b.sinks, k ∈ b.sunk) → b.branch = none →
        s.judge r = (s.fault r.lead sterileFault).soon .blockFault r.lead 0 0) ∧
      (r.faults = [] → r.ending = false → holds b → r.shadow ≠ .swapping ∨ (∃ n, r.succ = some n ∧ n.branch ≠ none) →
        s.judge r = (s.modRegion r.lead (fun q => { q with ending := true, stopped := decide (q.shadow ≠ .swapping) })).soon .commit r.lead 0 0) ∧
      (∀ n, r.faults = [] → r.shadow = .swapping → r.succ = some n → n.sinks ≠ [] → (∀ k ∈ n.sinks, k ∈ n.sunk) → n.branch = none →
        s.judge r = (s.fault r.lead sterileFault).soon .blockFault r.lead 0 0) ∧
      (r.ending = false ∨ ¬ drained b → exec .commit s = .next s) ∧
      (r.ending = true → holds b → drained b → ∀ k, b.branch = some k →
        (r.shadow ≠ .swapping → after .commit (fun q _ => q.cur = none ∧ q.running = .none ∧ q.stopped = false ∧ q.ending = false ∧
          q.shadow = r.shadow ∧ entry q b.inc (k % 4 * 2 ^ 32 + 1) b.wbs)) ∧
        (∀ n, r.shadow = .swapping → r.succ = some n →
          after .commit (fun q t => q.cur = some n ∧ q.succ = none ∧ q.running = .running ∧
            ((∀ o ∈ s.snaps, o.region ≠ r.lead) → t.elems = s.elems) ∧
            (s.allSwapped r n.inc = false → q.prev = some b ∧ q.shadow = .swapping) ∧
            (s.allSwapped r n.inc = true → q.shadow = .loaded ∧ q.shImg = r.actImg ∧ q.actImg = some n.img) ∧
            entry q b.inc (k % 4 * 2 ^ 32 + 1) b.wbs)))) ∧
    (∀ b c, r.running = .running → r.cur = some b → r.blockFault = some c →
      (s.cycle < r.faultAt ∨ s.mayEnd r = false → exec .blockFault s = .next s) ∧
      (r.faultAt ≤ s.cycle → s.mayEnd r = true → after .blockFault (fun q _ => q.cur = none ∧ q.succ = none ∧ q.running = .none ∧ q.faults = [] ∧
        q.shadow = (if r.shadow = .swapping then .empty else r.shadow) ∧ (r.shadow ≠ .swapping → entry q b.inc (2 ^ 31 + c) b.wbs)))) ∧
    (∀ f, r.running = .running → r.faults = [f] → 0x10 ≤ f.cause →
      (s.cycle < r.faultAt → exec .elementFault s = .next s) ∧
      (r.faultAt ≤ s.cycle → (s.pilot r.lead).efe = true → after .elementFault (fun q t => t.elems = s.elems ∧
        q = { r with running := .frozen, faults := [], stopped := false, efrep := q.efrep } ∧
        ∃ x, q.efrep = some x ∧ x.w1 = f.detail ∧ x.w0 = BitVec.ofNat 64 (f.cause * 2 ^ 48 + f.elem.getD 0 / 128 * 2 ^ 39 +
          f.elem.getD 0 % 128 * 2 ^ 32 + f.ctx % 4 * 2 ^ 30 + f.slot * 2 ^ 25 + f.bank * 2 ^ 24))) ∧
      (∀ b, r.faultAt ≤ s.cycle → (s.pilot r.lead).efe = false → (∀ o ∈ s.snaps, o.region ≠ r.lead) → r.cur = some b →
        (s.mayEnd r = false → exec .elementFault s = .next s) ∧
        (s.mayEnd r = true → r.shadow ≠ .swapping →
          after .elementFault (fun q _ => q.cur = none ∧ q.running = .none ∧ entry q b.inc (2 ^ 31 + f.cause) b.wbs))))

/-! ### The Helm -/

/-- R113, R139, R140, R146 to R148: control nodes read their word and choose the next node, loops count their passes, a signal stores or adds
its value, a note tells the host, and `END` ends the graph; each writes its status.
Where the spec leaves a point of these open the choice is the model's: log 39, 40. -/
def Obligations.HelmControlNodes : Prop :=
  ∀ (s : State) (x : Graph), let vd := s.cur.x
    let f := fun (l : List Byte) (o : Nat) => rd l o 8
    let word := fun (b : State) (l : List Byte) (o : Nat) (w : DWord) => (b.helmWord vd (f l o)).1 = some w
    let unread := fun (i : Instr) (k o : Nat) => ∀ l, nodeBegins s k x l → let b := begun s x l
      (b.helmWord vd (f l o)).1 = none → ∃ t, exec i s = .next t ∧ failsNode (b.helmWord vd (f l o)).2 t vd x 0x1A 1
    let next := fun (l : List Byte) => f l 8
    let queued := fun (b t : State) (c v : Nat) => (t.vd vd).cxlq = (b.vd vd).cxlq ++
      [{ addr := c, data := (toLe 8 v).map some, poison := false, sent := false, stamp := b.cmdNo }]
    let stays := fun (t : State) (l : List Byte) => graphNow t vd x.id (fun y => y = { inHand s x l with state := .waiting })
    (unread .nodeCond 4 0x10 ∧ unread .nodeSwitch 6 0x10 ∧ unread .nodeWaitw 7 0x10) ∧
    (∀ l w, nodeBegins s 4 x l → let b := begun s x l; word b l 0x10 w → ∃ t, exec .nodeCond s = .next t ∧
      completes b t vd x 0 (if nodeCond l w = true then f l 0x30 else next l)) ∧
    (∀ l w, nodeBegins s 6 x l → let b := begun s x l; word b l 0x10 w → ∃ t, exec .nodeSwitch s = .next t ∧
      let k := w.toNat % 2 ^ 32
      completes b t vd x (w.toNat % 65536) (if k < 4 ∧ f l (0x20 + 8 * k) ≠ 0 then f l (0x20 + 8 * k) else next l)) ∧
    (∀ l w, nodeBegins s 7 x l → let b := begun s x l; word b l 0x10 w →
      (nodeCond l w = true → ∃ t, exec .nodeWaitw s = .next t ∧ completes b t vd x 0 (next l)) ∧
      (nodeCond l w = false → ∃ t, exec .nodeWaitw s = .next t ∧ stays t l)) ∧
    (∀ w, nodeRuns s 7 x .waiting → word s x.line 0x10 w → nodeCond x.line w = true →
      ∃ t, exec .nodeWaitwRecheck s = .next t ∧ completes s t vd x 0 (next x.line)) ∧
    (∀ w, nodeRuns s 7 x .waiting → word s x.line 0x10 w → nodeCond x.line w = false → f x.line 0x30 ≠ 0 →
      f x.line 0x30 ≤ s.chron.toNat - x.since → ∃ t, exec .nodeWaitwTimeout s = .next t ∧ failsNode s t vd x 0x17 0) ∧
    (∀ l count, nodeBegins s 5 x l → let b := begun s x l
      (if rd l 1 1 = 1 then ∃ w, word b l 0x18 w ∧ count = w.toNat % 2 ^ 32 else count = rd l 0x18 4) →
      let first : LoopSt := { addr := x.node, pass := 0, count := count, body := f l 0x10, next := next l, iter := f l 0x20 }
      let goes := fun (t : State) => graphNow t vd x.id (fun y => y.node = f l 0x10 ∧ y.state = .begin ∧ y.stack = first :: x.stack)
      (count = 0 → ∃ t, exec .nodeLoop s = .next t ∧ completes b t vd x 0 (next l)) ∧
      (count ≠ 0 → 8 ≤ x.stack.length → ∃ t, exec .nodeLoop s = .next t ∧ failsNode b t vd x 0x19 0) ∧
      (count ≠ 0 → x.stack.length < 8 → f l 0x20 = 0 → ∃ t, exec .nodeLoop s = .next t ∧ goes t) ∧
      (∀ c, count ≠ 0 → x.stack.length < 8 → f l 0x20 ≠ 0 → b.helmCell vd (f l 0x20) true = .ok c →
        (isHost c = false → ∃ t, exec .nodeLoop s = .next t ∧ goes t ∧ (healthy b c → wroteBytes b t c 8 0)) ∧
        (isHost c = true → b.sysReady vd = true → ∃ t, exec .nodeLoop s = .next t ∧ goes t ∧ queued b t c 0) ∧
        (isHost c = true → b.sysReady vd = false → ∃ t, exec .nodeLoop s = .next t ∧
          graphNow t vd x.id (fun y => y.node = x.node ∧ y.state = .waiting ∧ y.stack = first :: x.stack)))) ∧
    (∀ p rest, nodeRuns s (rd x.line 0 1) x .begin → (s.vd vd).quarantined = false →
      x.stack.dropWhile (fun f => f.addr != x.node) = p :: rest →
      let goes := fun (t : State) => graphNow t vd x.id (fun y => y.node = p.body ∧ y.state = .begin ∧
        y.stack = { p with pass := p.pass + 1 } :: rest)
      (p.pass + 1 = p.count → ∃ t, exec .nodeLoop s = .next t ∧ graphNow t vd x.id (fun y => y.node = p.next ∧ y.stack = rest) ∧
        statusWritten s t vd x.node (2 + p.count % 65536 * 65536)) ∧
      (p.pass + 1 ≠ p.count → p.iter = 0 → ∃ t, exec .nodeLoop s = .next t ∧ goes t) ∧
      (∀ c, p.pass + 1 ≠ p.count → p.iter ≠ 0 → s.helmCell vd p.iter true = .ok c →
        (isHost c = false → ∃ t, exec .nodeLoop s = .next t ∧ goes t ∧ (healthy s c → wroteBytes s t c 8 (p.pass + 1))) ∧
        (isHost c = true → s.sysReady vd = false → exec .nodeLoop s = .next s) ∧
        (isHost c = true → s.sysReady vd = true → ∃ t, exec .nodeLoop s = .next t ∧ goes t ∧ queued s t c (p.pass + 1)))) ∧
    (∀ l c, nodeBegins s 8 x l → let b := begun s x l; b.helmCell vd (f l 0x10) true = .ok c →
      (rd l 1 1 = 0 → isHost c = false → let u := b.storeUnit c (toLe 8 (f l 0x18)) false
        ∃ t, exec .nodeSignal s = .next t ∧ completes u t vd x 0 (next l) ∧ (healthy b c → wroteBytes b u c 8 (f l 0x18))) ∧
      (rd l 1 1 = 0 → isHost c = true → b.sysReady vd = false → ∃ t, exec .nodeSignal s = .next t ∧ stays t l) ∧
      (rd l 1 1 = 0 → isHost c = true → b.sysReady vd = true → ∃ t, exec .nodeSignal s = .next t ∧
        completes (b.write vd c (toLe 8 (f l 0x18)) false) t vd x 0 (next l) ∧
        ∃ q ∈ (t.vd vd).cxlq, q.addr = c ∧ q.data = (toLe 8 (f l 0x18)).map some ∧ q.poison = false) ∧
      (rd l 1 1 = 1 → isHost c = true → ∃ t, exec .nodeSignal s = .next t ∧ failsNode b t vd x 0x18 0) ∧
      (rd l 1 1 = 1 → isHbm c = true ∨ isRes c = true → let tag := mkTag vd x.serial 0x180 0 x.seq
        let room := ((b.liveTags vd).filter (fun t => tagSource t = 0x180)).length < 32 ∧ b.tagRoom vd = true ∧ b.unitFree c = true
        (¬ room → ∃ t, exec .nodeSignal s = .next t ∧ stays t l) ∧
        (room → b.lookup tag (locOf c) 0 = .fresh → b.badAt c = false →
        let m := number b c 8; let u := b.storeUnit c (toLe 8 (BitVec.ofNat 64 (m + f l 0x18)).toNat) false
        ∃ t, exec .nodeSignal s = .next t ∧ completes u t vd x 0 (next l) ∧
          (healthy b c → wroteBytes b u c 8 ((m + f l 0x18) % 2 ^ 64))))) ∧
    (∀ l, nodeBegins s 8 x l → rd l 1 1 = 1 → tarnWindow ≤ f l 0x10 → ∃ t, exec .nodeSignal s = .next t ∧
      failsNode (begun s x l) t vd x 0x18 0) ∧
    (∀ l c, nodeBegins s 9 x l → let b := begun s x l; b.helmCell vd (f l 0x10) true = .ok c →
      (b.sysReady vd = false → ∃ t, exec .nodeHostnote s = .next t ∧ stays t l) ∧
      (b.sysReady vd = true → isHost c = false → let u := b.storeUnit c (toLe 8 (f l 0x18)) false; u.sysReady vd = true →
        ∃ t, exec .nodeHostnote s = .next t ∧ completes u t vd x 0 (next l) ∧
          (rd l 0x20 2 ≠ 0xFFFF → t.vox.msix.getLast? = some (vd + 1, rd l 0x20 2))) ∧
      (b.sysReady vd = true → isHost c = true → ∃ t, exec .nodeHostnote s = .next t ∧ queued b t c (f l 0x18) ∧
        graphNow t vd x.id (fun y => y.state = .ending 0 0 (next l) false))) ∧
    (nodeRuns s 9 x (.ending 0 0 (next x.line) false) → s.sysReady vd = true → ∃ t, exec .nodeHostnote s = .next t ∧
      completes s t vd x 0 (next x.line) ∧ (rd x.line 0x20 2 ≠ 0xFFFF → t.vox.msix.getLast? = some (vd + 1, rd x.line 0x20 2))) ∧
    (∀ l, nodeBegins s 12 x l → let b := begun s x l
      let ends := fun (u : State) => ∃ t, exec .nodeEnd s = .next t ∧ t.graph vd x.id = none ∧ statusWritten u t vd x.node 2
      (f l 0x10 = 0 → ends b) ∧
      (∀ c, f l 0x10 ≠ 0 → b.helmCell vd (f l 0x10) true = .ok c → isHost c = false →
        let u := b.storeUnit c (toLe 8 (f l 0x18)) false; ends u ∧ (healthy b c → wroteBytes b u c 8 (f l 0x18))))

/-- R142 to R145, R148 to R150, R409: launching nodes ask for bands and go on with the branch that their block chose, the Helm places a
launch and starts its block or its pilots, a copy moves granules, and `PREEMPT` nodes gather what they act on.
Where the spec leaves a point of these open the choice is the model's: log 25, 39, 40. -/
def Obligations.HelmLaunchNodes : Prop :=
  ∀ (s : State) (x : Graph), let vd := s.cur.x
    let f := fun (l : List Byte) (o : Nat) => rd l o 8
    let asks := fun (t : State) => graphNow t vd x.id (fun y => y.state = .placing ∧ y.tried = false ∧ y.node = x.node) ∧
      t.agenda.head? = some (.event .placeLaunch (s.vd vd).part 0 0)
    let released := fun (t : State) (r : Region) => ∀ q ∈ t.regions, q.lead ≠ r.lead
    (∀ l, nodeBegins s 1 x l → ∃ t, exec .nodeBlock s = .next t ∧ asks t) ∧
    (∀ l, nodeBegins s 2 x l → ∃ t, exec .nodePilot s = .next t ∧ asks t) ∧
    (∀ r c v, nodeRuns s 1 x .placed → s.graphRegion vd x.id = some r → r.running = .none → r.compQ.getLast? = some c → c.status = some v →
      let st := v.toNat % 2 ^ 32; let k := v.toNat / 2 ^ 32; let mask := match r.actImg with | some m => m.wbMask | none => 0
      let va := f x.line 0x18; let l := if st = 1 then recordStores mask k c.wbs else []
      let t0 := (s.writeRecord vd va l).2; let sys := ∃ m, r.actImg = some m ∧ m.flags / 4 % 2 = 1
      let target := if k = 0 then f x.line 8 else f x.line (0x20 + 8 * k)
      (∀ w ∈ l ++ [(0, [])], ∃ a, s.helmCell vd (va + w.1) true = .ok a) →
      (sys → t0.sysReady vd = false → ∃ t, exec .nodeBlock s = .next t ∧ graphNow t vd x.id (fun y => y = { x with state := .recording })) ∧
      (¬ sys → (t0.writeRecord vd va [(0, toLe 4 st)]).1 = true →
        (st = 1 → target ≠ 0 → ∃ t, exec .nodeBlock s = .next t ∧ released t r ∧
          graphNow t vd x.id (fun y => y.node = target ∧ y.state = .begin)) ∧
        (st ≠ 1 ∨ target = 0 → ∃ t, exec .nodeBlock s = .next t ∧ released t r ∧ t.graph vd x.id = none))) ∧
    (∀ r, nodeRuns s 2 x .placed → s.graphRegion vd x.id = some r → r.running ≠ .running → s.snapOf r = none →
      s.stoppedPilot r = none → (s.pilot r.lead).run = .parked → (∀ i, i < r.bands → (s.pilot (r.lead + i)).pend = []) →
      ∃ t, exec .nodePilot s = .next t ∧ released t r ∧ graphNow t vd x.id (fun y => y.node = f x.line 8 ∧ y.state = .begin)) ∧
    (∀ l, nodeBegins s 3 x l → let d := f l 0x10; let a := f l 0x18; let n := f l 0x20; let b := begun s x l
      (d < a + n ∧ a < d + n → ∃ t, exec .nodeCopy s = .next t ∧ failsNode b t vd x 0x16 0) ∧
      (¬ (d < a + n ∧ a < d + n) → ∃ t, exec .nodeCopy s = .next t ∧ graphNow t vd x.id (fun y => y.state = .copying 0 false false))) ∧
    (∀ pos bad host, nodeRuns s 3 x (.copying pos bad host) → (s.vd vd).resident = true →
      (pos = f x.line 0x20 → (host = false ∨ s.sysReady vd = true → ∃ t, exec .nodeCopy s = .next t ∧
          completes s t vd x (if bad = true then 1 else 0) (f x.line 8)) ∧
        (host = true → s.sysReady vd = false → ∃ t, exec .nodeCopy s = .next t ∧ graphNow t vd x.id (fun y =>
          y.state = .ending 0 (if bad = true then 1 else 0) (f x.line 8) false))) ∧
      (∀ c e, pos ≠ f x.line 0x20 → s.copyCell vd (f x.line 0x18 + pos) false = .ok c → s.copyCell vd (f x.line 0x10 + pos) true = .ok e →
        ∃ t, exec .nodeCopy s = .next t ∧
          graphNow t vd x.id (fun y => y.state = .copying (pos + 32) (bad || s.viewBad c) (host || isHost c || isHost e)) ∧
          (isHost e = false → s.viewBad c = false → healthy s e →
            ∀ k, t.byte k = if e ≤ k ∧ k < e + 32 then (s.view c 32)[k - e]?.getD 0 else s.byte k))) ∧
    (s.vox.devstate = 2 → let part := s.cur.x
      (∀ v g, (s.launches part).find? (fun x => !x.2.tried && s.neverFits x.1 x.2.bands x.2.mask) = some (v, g) →
        ∃ t, exec .placeLaunch s = .next t ∧ failsNode s t v g (if s.noDie v g.mask = true then 0x14 else 0x15) 0) ∧
      ((s.launches part).find? (fun x => !x.2.tried && s.neverFits x.1 x.2.bands x.2.mask) = none → ∀ v lead y, let u := s.markTried part
        u.nextLaunch part = some (v, y) → u.fitMask v y.bands y.mask = some lead → u.graph v y.id = some y →
        let places := fun (P : Region → State → Prop) => ∃ t, exec .placeLaunch s = .next t ∧
          graphNow t v y.id (fun z => z.state = .placed) ∧
          ∃ q ∈ t.regions, q.lead = lead ∧ q.bands = y.bands ∧ q.vd = v ∧ q.graph = y.id ∧ P q t
        (∀ m, rd y.line 0 1 = 1 → u.warmImage v lead y.bands (f y.line 0x10) = none →
          u.loadImage v lead y.bands (f y.line 0x10) = .image m → places (fun q t => q.kind = .block ∧ q.running = .running ∧
            t.incs = s.incs + 1 ∧ ∃ b, q.cur = some b ∧ b.inc = s.incs ∧ b.img = m)) ∧
        (∀ m, rd y.line 0 1 = 1 → u.warmImage v lead y.bands (f y.line 0x10) = some m → places (fun q t => q.kind = .block ∧
          q.running = .running ∧ ∃ b, q.cur = some b ∧ b.inc = s.incs ∧ b.img = m)) ∧
        (∀ k, rd y.line 0 1 = 1 → u.warmImage v lead y.bands (f y.line 0x10) = none →
          u.loadImage v lead y.bands (f y.line 0x10) = .fail k → ∃ t, exec .placeLaunch s = .next t ∧ t.graph v y.id = none ∧
            t.regions = s.regions ∧ (t.vd v).failReport = some (k.code, (8 * lead + k.col) * 128 + k.row)) ∧
        (∀ b, rd y.line 0 1 = 2 → (u.chartImage v (f y.line 0x10) (rd y.line 0x18 4)).1 = some b → places (fun q t => q.kind = .pilot ∧
          q.running = .none ∧ ∀ i, i < y.bands →
            (t.pilot (lead + i)).pc = chartBase + BitVec.ofNat 64 (rd y.line 0x1C 4) ∧ (t.pilot (lead + i)).run = .running ∧
              (t.pilot (lead + i)).get 1 = BitVec.ofNat 64 (f y.line 0x28) ∧ (t.pilot (lead + i)).get 2 = BitVec.ofNat 64 i)))) ∧
    (let out := fun (i : Instr) (op : Nat) =>
      (∀ l, nodeBegins s 10 x l → rd l 0x10 1 = op → let b := begun s x l; ∀ c, b.helmCell vd (f l 0x18) true = .ok c →
        ∃ t, exec i s = .next t ∧ graphNow t vd x.id (fun y => y.state = .waiting ∧ ∀ n, (n, 0) ∈ y.todo ↔
          ∃ r ∈ s.regions, r.vd = vd ∧ r.graph ≠ x.id ∧ r.inc = n ∧ ∃ g, s.graph vd r.graph = some g ∧ rd l 0x11 1 / 2 ^ g.queue % 2 = 1))
     let ends := fun (i : Instr) (op : Nat) =>
      nodeRuns s 10 x .waiting → rd x.line 0x10 1 = op →
        (x.answer = none → x.todo = [] → (∀ o ∈ s.snaps, o.who ≠ .node vd x.id) →
          ∃ t, exec i s = .next t ∧ completes s t vd x x.acted.length (f x.line 8)) ∧
        (∀ code off, x.answer = some (code, off) → x.todo ≠ [] → code ≠ 0 →
          ∃ t, exec i s = .next t ∧ failsNode s t vd x 0x1B code)
     let given := fun (i : Instr) (op : Nat) =>
      ∀ l h, nodeBegins s 10 x l → rd l 0x10 1 = op → ((begun s x l).handles vd (f l 0x18)).1 = some (some h) →
        ∃ t, exec i s = .next t ∧ graphNow t vd x.id (fun y => y.state = .waiting ∧
          y.todo = (begun s x l).inLaunchOrder vd (h.filter ((begun s x l).preempts vd (inHand s x l))))
     out .nodePreemptTide 0 ∧ out .nodePreemptFreeze 1 ∧ given .nodePreemptRestore 2 ∧ given .nodePreemptDiscard 3 ∧
       ends .nodePreemptTide 0 ∧ ends .nodePreemptFreeze 1 ∧ ends .nodePreemptRestore 2 ∧ ends .nodePreemptDiscard 3)

/-- R123, R133 to R138, R152 to R154, R323: launch words are accepted once, invalidations drop the entries of their range and store their
number, and the deficits, quotas and rotations of a partition share its fabric.
Where the spec leaves a point of these open the choice is the model's: log 3, 39, 40. -/
def Obligations.HelmPagesAndSharing : Prop :=
  ∀ s : State, let vd := s.cur.x; let d := s.vd vd; let h := d.helm
    (s.vox.devstate = 2 → h.enabled = true →
      (∀ w, tfind h.owed s.cur.y = some w → s.sysReady vd = true → exec .launchWord s = .next (s.payAccept vd s.cur.y w)) ∧
      (∀ c, tfind h.owed s.cur.y = none → vg h.taken s.cur.y false = true → s.cur.y < 4 →
        (d.graphs.filter (fun g => g.queue = s.cur.y)).length < 64 → s.watchCell vd s.cur.y = some c → isHost (c + 8) = true →
        let w := fromLe (s.view c 8); let l := w / 2 ^ 52
        (BitVec.ofNat 12 l = vg h.accepts s.cur.y 0 → ∃ t, exec .launchWord s = .next t ∧ (t.vd vd).graphs = d.graphs ∧
          vg (t.vd vd).helm.taken s.cur.y false = false) ∧
        (BitVec.ofNat 12 l ≠ vg h.accepts s.cur.y 0 →
          let verdict := if h.hwatch.getLsbD (1 + s.cur.y) = true then 2 else if w % 64 ≠ 0 then 1 else 0
          ∃ t, exec .launchWord s = .next t ∧ vg (t.vd vd).helm.accepts s.cur.y 0 = BitVec.ofNat 12 l ∧
            (s.sysReady vd = true → (t.vd vd).cxlq = d.cxlq ++
              [{ addr := c + 8, data := (toLe 8 (l * 2 ^ 52 + verdict)).map some, poison := false, sent := false, stamp := s.cmdNo }]) ∧
            (s.sysReady vd = false → (t.vd vd).cxlq = d.cxlq ∧ (t.vd vd).helm.owed = tset h.owed s.cur.y (l * 2 ^ 52 + verdict)) ∧
            (verdict ≠ 0 → (t.vd vd).graphs = d.graphs) ∧
            (verdict = 0 → ∃ g ∈ (t.vd vd).graphs, g.id = d.nextGraph ∧ g.queue = s.cur.y ∧ g.node = w % 2 ^ 52 ∧ g.serial = d.serial)))) ∧
    (∀ v, (h.invq.length < 8 → exec (.hinvctl v) s = .next (s.modVd vd (fun d => { d with helm := { h with invq := h.invq ++
        [(h.hinva.toNat, v.toNat / 2 ^ 44 + 1, v.toNat % 2 ^ 32, h.hinvdst.toNat)] } }))) ∧
      (8 ≤ h.invq.length → exec (.hinvctl v) s = .next (s.modVd vd (fun d => { d with helm := { h with overflow := true } })))) ∧
    (∀ a n seq dst rest, h.invq = (a, n, seq, dst) :: rest →
      (h.draining = false → ∃ t, exec .invalidationComplete s = .next t ∧
        (t.vd vd).helm = { h with draining := true, drainFrom := s.cmdNo } ∧ memoryKept s t ∧
        ∀ r ∈ s.regions, r.vd = vd → (∀ p, r.holds p = true → (t.pilot p).tlb = []) ∧
          ∀ g ∈ r.ends, ∀ e ∈ (t.edge g).entries, e ∈ (s.edge g).entries ∧ (e.2.va + 2 ^ e.2.size ≤ a ∨ a + 4096 * n ≤ e.2.va)) ∧
      (h.draining = true → s.drainedOld vd h.drainFrom = false → exec .invalidationComplete s = .next s) ∧
      (∀ c, h.draining = true → s.drainedOld vd h.drainFrom = true → s.helmCell vd dst true = .ok c →
        (isHost c = false → healthy s c → ∃ t, exec .invalidationComplete s = .next t ∧
          (t.vd vd).helm = { h with invq := rest, draining := false } ∧ wroteBytes s t c 8 seq) ∧
        (isHost c = true → s.sysReady vd = false → exec .invalidationComplete s = .next s))) ∧
    (∀ v : DWord, let w := v &&& 0x000FFFFFFFFFFF1F; let u := s.modVd vd (fun d => { d with helm := { d.helm with hwatch := w } })
      (v.getLsbD 0 = false → exec (.hwatchWrite v) s = .next u) ∧
      (v.getLsbD 0 = true → u.watchCell vd 0 = none → ∃ t, exec (.hwatchWrite v) s = .next t ∧ (t.vd vd).helm = { h with hwatch := w &&& ~~~ 1#64 }) ∧
      (v.getLsbD 0 = true → u.watchCell vd 0 ≠ none → ∃ t, exec (.hwatchWrite v) s = .next t ∧ (t.vd vd).helm.hwatch = w)) ∧
    (∃ t, exec .sharingPeriod s = .next t ∧ t = { s with vds := t.vds } ∧ ∀ v, let e := s.vd v; let q := s.periodQ e.part
      t.vd v = if e.present = true ∧ e.resident = true then
          { e with periodCharge := 0, deficit := max (min (2 * q) (e.deficit + q * (e.q.weight : Int) /
            ((((s.residents e.part).map (fun k => (s.vd k).q.weight)).sum : Nat) : Int)) - (e.periodCharge : Int)) (-(2 * q)) }
        else { e with periodCharge := 0 }) ∧
    (d.present = true → d.exhausted = false → d.q.bricks ≠ 0 → d.q.bricks ≤ d.charge → ∃ t, exec .quotaExhausted s = .next t ∧
      t.vd vd = { d with exhausted := true, switching := d.resident } ∧ (∀ v, v ≠ vd → t.vd v = s.vd v) ∧
      t.agenda.head? = some (.event .residencyRotation d.part 0 0)) ∧
    (s.vox.devstate = 2 →
      (∀ w, s.cur.y = 1 → (s.waiting vd).head? = some w → (∀ k ∈ s.residents vd, (s.vd k).switching = false) →
        ((s.allocation w).isSome = true → ∃ t, exec .residencyRotation s = .next t ∧ t.vds = s.vds ∧
          t.agenda.head? = some (.event .residencyRotation vd 0 0)) ∧
        (∀ v, s.allocation w = none → s.victim vd = some v → ∃ t, exec .residencyRotation s = .next t ∧
          t.vd v = { s.vd v with switching := true } ∧ t.agenda.head? = some (.event .residencyRotation vd 0 0))) ∧
      (∀ v a, s.cur.y ≠ 1 → (∀ r ∈ s.regions, (s.vd r.vd).part = vd → s.leaving r = false) →
        (∀ k ∈ s.vds, k.2.part = vd → k.2.switching = false) →
        (s.waiting vd).findSome? (fun v => (s.allocation v).map (fun a => (v, a))) = some (v, a) →
        ∃ t, exec .residencyRotation s = .next t ∧ (t.vd v).resident = true ∧ (t.vd v).layers = a.1 ∧ (t.vd v).quarters = a.2 ∧
          (t.vd v).deficit = 0))

/-! ### The edge units -/

/-- R229, R277, R278, R281 to R283: requests read and write whole granules, the inbound transforms send their tokens, `XSCALE` scales with
one rounding, and the watch commands arm, read and clear.
Where the spec leaves a point of these open the choice is the model's: log 24, 27, 35. -/
def Obligations.EdgeCommands : Prop :=
  ∀ (s : State) (r : Region) (c : Cmd), let g := s.cur.x; let x := s.edge g; let w := c.tok.w; let t7 := w 7
    let sends := fun (i : Instr) (tag : Nat) (bad : Bool) (P : Payload → Prop) => ∃ t q k, exec i s = .next t ∧ memoryKept s t ∧
      (t.edge g).xouts = x.xouts ++ [(q, k)] ∧ q.kind = 0 ∧ q.round = c.tok.round ∧ q.tag = BitVec.ofNat 2 tag ∧ q.poison = bad ∧ P q.payload
    (s.readyOp 0x03 = some (r, c) → ∃ t, exec .nwatch s = .next t ∧ memoryKept s t ∧ performed s t g c.id none ∧
      (∀ k, k < 4 → vg (t.edge g).watches k Watch.zero =
        if k = t7 / 2 ^ 7 % 4 then { Watch.zero with armed := true, tag := w 1 / 2 ^ 8 % 4, outward := decide (w 1 / 2 ^ 10 % 2 = 1), k := w 1 % 8,
                                                     ratio := lane c.tok.payload 0 }
        else vg x.watches k Watch.zero)) ∧
    (s.readyOp 0x04 = some (r, c) → ∃ t q, exec .nread s = .next t ∧ memoryKept s t ∧ performed s t g c.id (some q) ∧
      let v := vg x.watches (t7 / 2 ^ 7 % 4) Watch.zero
      (t.edge g).watches = x.watches ∧ answers q c (fun k => if k = 0 then v.last.toNat else if k = 1 then v.a.toNat else if k = 2 then v.rounds.toNat
        else if k = 3 then v.trips.toNat else if k = 4 then v.lasttrip.toNat
        else if k = 5 then b2n v.armed + 2 * v.seen.toNat else if k = 6 then x.eflags.toNat else 0) false) ∧
    (s.readyOp 0x05 = some (r, c) → ∃ t, exec .nclr s = .next t ∧ memoryKept s t ∧ performed s t g c.id none ∧
      (t.edge g).eflags = (if t7 / 2 ^ 9 % 2 = 1 then 0 else x.eflags) ∧
      ∀ k, k < 4 → vg (t.edge g).watches k Watch.zero = if k = t7 / 2 ^ 7 % 4 then Watch.zero else vg x.watches k Watch.zero) ∧
    (s.readyOp 0x02 = some (r, c) → ∃ t q, exec .xscale s = .next t ∧ memoryKept s t ∧ performed s t g c.id (some q) ∧
      let two := t7 / 2 ^ 7 % 2 = 1; let a : Nat → Nat := fun k => w 4 / 2 ^ (8 * k) % 256; let b : Nat → Nat := fun k => w 5 / 2 ^ (8 * k) % 256
      let v : Nat → Val := fun k => if t7 / 2 ^ 8 % 2 = 1 then Val.ofInt (signed (w k) 32) 0 else decodeF .f32 (w k)
      let e : Nat → Int := fun k => (a k : Int) - 127 + signed (w 6) 32 + (if two then (b k : Int) - 127 else 0)
      answers q c (fun k => if 4 ≤ k then 0 else if a k = 255 ∨ (two ∧ b k = 255) then 0x7FC00000
        else (encodeF .f32 ((v k).scale (e k)) .rne .ieee { aflags := 0, srstate := 0 }).1) false ∧
      ((∃ k, k < 4 ∧ (a k = 255 ∨ (two ∧ b k = 255))) → (t.edge g).eflags.getLsbD 0 = true)) ∧
    (s.readyIn 0x00 = some (r, c) → ∀ data bad, let k := c.tok.sub3; let n := w 4; let grp := c.pos / 9; let cnt := min 8 (n - 8 * grp)
      (c.pos % 9 = 0 → readsRange s r c true (w 6 / 2 ^ 4 % 16) (c.tok.w2 2 + 8 * grp * scaleBytes k) (cnt * scaleBytes k) data bad →
        sends .xsplit (w 6 / 2 ^ 10 % 4) bad (fun p => ∀ j, j < 8 → lane p j =
          if j < cnt then BitVec.ofNat 32 (numberOf ((data.drop (j * scaleBytes k)).take (scaleBytes k))) else 0)) ∧
      (c.pos % 9 ≠ 0 → readsRange s r c false (w 6 % 16) (c.tok.w2 0 + (8 * grp + c.pos % 9 - 1) * blockBytes k) (blockBytes k) data bad →
        sends .xsplit (w 6 / 2 ^ 8 % 4) bad (fun p => ∀ j, j < 32 → p.toNat / 2 ^ (8 * j) % 256 =
          let q : Nat := numberOf data / 2 ^ (blockWidth k * j) % 2 ^ blockWidth k
          if isAffine k = true then (signed q (blockWidth k) % 256).toNat else q % 256))) ∧
    (s.readyIn 0x06 = some (r, c) → ∀ sc bad1 data bad2, let m := w 4; let code := c.tok.sub3; let mode := w 6 / 2 ^ 16 % 4
      let cnt := min 8 (m - 8 * c.pos); let width := cvtinWidth mode code; let kind := w 6 / 2 ^ 4 % 16
      (mode = 0 ∧ sc = [] ∧ bad1 = false) ∨
        (mode ≠ 0 ∧ readsRange s r c true kind (c.tok.w2 0 + c.pos / 4 * (if mode = 2 then 2 else 1)) (if mode = 2 then 2 else 1) sc bad1) →
      readsRange s r c false kind (c.tok.w2 2 + c.pos * width) ((cnt * width + 7) / 8) data bad2 →
      sends .cvtin (w 6 / 2 ^ 8 % 4) (bad1 || bad2) (fun p => ∀ j, j < 8 → (lane p j).toNat =
        let q := numberOf data / 2 ^ (width * j) % 2 ^ width; let sx := (sc.headD 0).toNat
        let v := if mode = 0 then decodeF (cvtFmt code) q else if sx = 255 then .nan false
          else if mode = 1 then (decodeF (cvtFmt code) q).scale ((sx : Int) - 127)
          else Val.ofInt (signed q (if code = 0 then 4 else 2) - signed ((sc.drop 1).headD 0).toNat 8) ((sx : Int) - 127)
        if j < cnt then (encodeF .f32 v .rne .ieee { aflags := 0, srstate := 0 }).1 % 2 ^ 32 else 0)) ∧
    (s.cmdReady g s.cur.y = some (r, c) → c.begun = false → let a := c.tok.w2 0; let kind := t7 / 2 ^ 7 % 4
      kind = 1 ∨ a < peerRange →
      (∀ p, c.op = 64 → s.spot r.vd g kind a false false (s.entryOf g c false) = .cell p → isHost p = false →
        ∃ t q, exec .edgeRequest s = .next t ∧ memoryKept s t ∧ performed s t g c.id (some q) ∧
          answers q c (fun k => number s (p + 4 * k) 4) (s.badAt p)) ∧
      (∀ p d, c.op = 65 → c.data = some d → s.spot r.vd g kind a true true (s.entryOf g c false) = .cell p →
        ∃ t, exec .edgeRequest s = .next t ∧ (c.tok.returns = false → performed s t g c.id none) ∧
          (c.tok.returns = true → ∃ q, performed s t g c.id (some q) ∧ answers q c (fun _ => 0) false) ∧
          (isHost p = false → healthy s p → d.poison = false → wroteBytes s t p 32 d.payload.toNat) ∧
          (isHost p = false → healthy s p → d.poison = true → t.poisonedAt p = true) ∧
          (isHost p = true → (t.vd r.vd).cxlq = (s.vd r.vd).cxlq ++
            [{ addr := p, data := (toLe 32 d.payload.toNat).map some, poison := d.poison, sent := false, stamp := s.cmdNo }])))

/-- R271 to R273, R279, R280, R282: the outbound link gives each token to its first claimant, the inbound link serves its sources in turn, the
outbound transforms open, gather and write their blocks, and a round mark ends the rounds of the watches of its direction.
Where the spec leaves a point of these open the choice is the model's: log 2, 24, 35, 36. -/
def Obligations.EdgeLinks : Prop :=
  ∀ s : State, let g := s.cur.x; let x := s.edge g; let e := endRouter g; let l := endLink g
    (∀ c i, i = s.cur.y → x.find i = some c → c.begun = false →
      let opened := fun (t : State) => (t.edge g).opens = x.opens ++ [{ id := i, tag := c.tok.w 6 / 2 ^ 8 % 4, taken := 0, group := [] }] ∧
        (t.edge g).find i = some { c with begun := true } ∧ t = { s with edges := t.edges }
      (c.op = 1 → ∃ t, exec .xjoin s = .next t ∧ opened t) ∧ (c.op = 7 → ∃ t, exec .cvtout s = .next t ∧ opened t)) ∧
    (let full := fun o => match x.find o.id with
        | some c => if c.op = 1 then decide (o.group.length = 4) else decide ((cvtoutSpan (cvtoutWidth c.tok.sub3) c.pos).2 < o.taken)
        | none => false
     s.endStill g = false →
     (∀ tok rest o, x.opens.find? full = none → x.xhand = tok :: rest → x.openOn tok.tag.toNat = some o →
        ∃ t, exec .transformTokenTaken s = .next t ∧ memoryKept s t ∧ (t.edge g).xhand = rest ∧ ∃ o' ∈ (t.edge g).opens,
          o' = { o with taken := o.taken + 1, group := o.group ++ [tok] }) ∧
     (∀ o r c, x.opens.find? full = some o → s.cmdReady g o.id = some (r, c) → c.op = 1 →
        (∃ tok ∈ o.group, tok.kind = 1) → c.pos + 1 ≠ c.tok.w 4 → ∃ t, exec .transformTokenTaken s = .next t ∧ memoryKept s t ∧
          (t.edge g).find o.id = some { c with pos := c.pos + 1, part := 0 } ∧
          ((∃ tok ∈ o.group, tok.poison = true) → (t.edge g).eflags.getLsbD 7 = true)) ∧
     (∀ o r c a b, x.opens.find? full = some o → s.cmdReady g o.id = some (r, c) → c.op = 1 →
        (∀ tok ∈ o.group, tok.kind = 0 ∧ tok.poison = false) → isAffine c.tok.sub3 = false → c.part = 0 →
        c.tok.w 6 / 2 ^ 4 % 16 = 1 → c.tok.w 6 % 16 = 1 → c.pos + 1 ≠ c.tok.w 4 →
        let k := c.tok.sub3; let ea := c.tok.w2 0 + c.pos * blockBytes k; let sa := c.tok.w2 2 + c.pos * scaleBytes k
        s.spot r.vd g 1 sa true false (s.entryOf g c true) = .cell a → s.spot r.vd g 1 ea true false (s.entryOf g c false) = .cell b →
        ea % 2 ^ 18 + blockBytes k ≤ 2 ^ 18 → s.lost a = false → (∀ n, b ≤ n → n < b + blockBytes k → s.lost n = false) →
        let q := joinMx (blockFmt k) (RMode.ofCode (c.tok.w 5 % 8)) (laneVals o.group) x.env
        ∃ t, exec .transformTokenTaken s = .next t ∧ (t.edge g).eflags = q.2.2.aflags ∧
          ∀ n, t.byte n = if n = a then BitVec.ofNat 8 q.2.1
            else if b ≤ n ∧ n < b + blockBytes k then (packCodes (blockWidth k) q.1)[n - b]?.getD 0 else s.byte n)) ∧
    (∀ f tok, s.incoming e l = some (f, tok) → x.hold ≤ s.cycle → x.outClosed = false → x.halfSte = none → s.recordFull g = false →
      (tok.kind = 2 → tok.payload.toNat % 4 < 2 → ∃ t, exec .outboundTokenClaim s = .next t ∧ memoryKept s t ∧
        ∃ p, (t.edge g).rsps = x.rsps ++ [p] ∧ p.tok = some { tok with src := 0 }) ∧
      (∀ r, tok.kind < 2 → tok.tag ≠ 0 → s.endRegion g = some r → (∀ r b, s.endBlock g = some (r, b) → b.storeAt r.lead g tok.tag.toNat = none) →
        x.openOn tok.tag.toNat = none → ∃ t, exec .outboundTokenClaim s = .next t ∧ memoryKept s t ∧
          ∃ q, t.regionAt (g / 16) = some q ∧ q.stopped = true ∧ ∃ y ∈ q.faults, y.cause = 0x14 ∧ y.elem = some e ∧
            y.detail = BitVec.ofNat 64 (tok.w 7)) ∧
      (∀ r b, tok.kind = 0 → tok.poison = false → tok.tag = 0 → s.endBlock g = some (r, b) → b.storeAt r.lead g 0 = none → tok.cls = 3 →
        tok.opc ≤ 0x1D → tok.classI1 = false → s.engineOk r.vd r.lead g b.img tok = true → s.roomFor g tok = true → s.hostTarget r.vd g tok = false →
        (tok.listAtPort = true → s.listWaits g tok = false ∧ listOk tok.listBase.1 tok.listBase.2 (s.listNow r.vd g tok) = true ∧
          ∀ d ∈ x.cmds, d.id ≠ s.cmdNo) →
        ∃ t, exec .outboundTokenClaim s = .next t ∧ memoryKept s t ∧ t.cmdNo = s.cmdNo + 1 ∧
          (∃ c, (t.edge g).cmds = x.cmds ++ [c] ∧ c.id = s.cmdNo ∧ c.op = tok.opc ∧ c.tok = tok ∧ c.begun = false ∧ c.inc = x.endInc) ∧
          (tok.returns = true → ∃ p, (t.edge g).rsps = x.rsps ++ [p] ∧ p.id = s.cmdNo ∧ p.tok = none))) ∧
    (∀ k tok, s.routes e = true → s.linkReady e l = true → (s.swWords e).any (swTakes l) = true → x.marks = [] → x.inClosed = false →
      ((List.range 8).map (fun i => (x.rr + 1 + i) % 8)).find? (fun k => (s.inboundHead g k).isSome) = some k →
      s.inboundHead g k = some tok → tok.malformed = false → ∃ t, exec .inboundTokenSend s = .next t ∧ memoryKept s t ∧ (t.edge g).rr = k ∧
        vg (t.elem e).router.rin l [] = vg (s.elem e).router.rin l [] ++ [tok] ∧
        (k = 4 → (t.edge g).rsps = x.rsps.tail) ∧ (k = 5 → (t.edge g).xouts = x.xouts.tail) ∧ (k = 6 → (t.edge g).springs = x.springs.tail)) ∧
    (∀ dir round rest, x.crossings = (dir, round) :: rest → ∃ t, exec .normWatchRound s = .next t ∧ memoryKept s t ∧
      (t.edge g).crossings = rest ∧ ∀ k, k < 4 → let w := vg x.watches k Watch.zero; let v := vg (t.edge g).watches k Watch.zero
        (w.armed = false ∨ b2n w.outward ≠ dir → v = w) ∧
        (w.armed = true → b2n w.outward = dir → v.last = w.s ∧ v.s = 0 ∧ v.rounds = w.rounds + 1 ∧ v.seen = w.flags ∧
          (w.rounds = 0 → v.a = w.s ∧ v.trips = w.trips) ∧
          (w.rounds ≠ 0 → notFinite w.s.toNat = true → v.a = w.a ∧ v.trips = w.trips + 1 ∧ v.lasttrip = round)))

/-! ### Tarns and stream engines -/

/-- R29, R30, R158, R159, R162, R163, R165 to R170, R179 to R181, R217, R343, R364: an iteration of a load binding stages the granule at its address, one
of a store binding stores the token that it took, buffers are handed over, a store binding's end counts, walks end with an entry or a
stream fault, window stores apply once, scrubbing corrects or poisons, and storage that passes to another VD reads zero.
Where the spec leaves a point of these open the choice is the model's: log 16, 20, 23, 36. -/
def Obligations.StreamBindings : Prop :=
  ∀ s : State,
    (∀ (r : Region) (b : Block) (x : BindSt), s.curBinding = some (r, b, x) → let m := b.img
    (s.alive r = true → x.park = none → (∀ w ∈ s.walks, w.who ≠ s.curRequester) → ∀ n p,
      let ix := fun k => m.indexOf n k; let st := fun k => vg x.br.strides k 0; let y := x.br; let g := x.endOf r.lead
      let q : Int := st 0 * ix 0 + st 1 * ix 1 + st 2 * ix 2; let ring : Nat := 0x40000 - y.base
      let a : Nat := if y.target ≠ 1 then ((y.base + x.advance (ix 3) + q + st 3 * ix 3) % 2 ^ 64 : Int).toNat
        else y.depth * 2 ^ 18 + (if y.mode = 0 then (y.base + (ix 3 % y.bufs : Nat) * st 3 + q : Int) else if y.mode = 1 then (y.base + 32 * n % ring : Nat)
          else (y.base + (x.rho + q) % (ring : Nat) : Int)).toNat
      let held := y.target ≠ 1 ∨ (y.mode = 0 ∧ ix 3 % y.bufs ∈ x.gens) ∨ (y.mode = 1 ∧ y.dir = 0 ∧ x.removed < x.filled) ∨
        (y.mode = 1 ∧ y.dir ≠ 0 ∧ 32 * (x.filled - x.removed) < ring) ∨ (1 < y.mode ∧ x.rho + q + 32 ≤ (32 * x.filled : Nat))
      let onward := fun (z : BindSt) => z = { x with it := x.it + 1, takeq := z.takeq, sendq := z.sendq, gens := z.gens, softs := z.softs, removed := z.removed,
                                                     filled := z.filled, rho := z.rho } ∧
        (y.target = 1 → y.mode = 0 → m.endsLevel3 n = true →
          z.gens = x.gens.filter (fun k => k != ix 3 % y.bufs) ∧ z.softs = x.softs ++ [ix 3 % y.bufs]) ∧
        (y.target = 1 → y.mode = 1 → (y.dir = 0 → z.removed = x.removed + 1 ∧ z.filled = x.filled) ∧
          (y.dir ≠ 0 → z.filled = x.filled + 1 ∧ z.removed = x.removed)) ∧
        (y.target = 1 → 1 < y.mode → m.endsLevel3 n = true → z.rho = x.rho + st 3)
      s.spot r.vd g y.target a (decide (y.dir ≠ 0)) (decide (y.dir ≠ 0)) x.te = .cell p → held →
      (y.dir = 0 → m.item x.it = .token n → x.stageRoom = true → (s.edge g).inClosed = false → (s.edge g).marks = [] →
        ∃ t, exec .bindingIteration s = .next t ∧ (y.target = 1 → memoryKept s t) ∧
          (y.target ≠ 1 → match s.layerCell r.vd (g / 2) (g % 2) y.depth (0x38000 + 0x2000 * y.gen + 32 * (n % 256)) with
            | none => memoryKept s t
            | some c => (∀ k, k < c ∨ c + 32 ≤ k → t.byte k = s.byte k) ∧
                (s.viewBad p = false → ∀ k, k < 32 → t.byte (c + k) = (s.view p 32)[k]?.getD 0) ∧ (s.viewBad p = true → t.poisonedAt c = true)) ∧
          bindingNow t (fun _ z => onward z ∧ z.takeq = x.takeq ∧
            ∃ tok, z.sendq = x.sendq ++ [tok] ∧ tok.kind = 0 ∧ tok.tag = BitVec.ofNat 2 y.gen ∧ tok.round = BitVec.ofNat 8 (m.roundOf n) ∧
              tok.poison = s.viewBad p ∧ tok.payload = BitVec.ofNat 256 (numberOf (s.view p 32)))) ∧
      (∀ tok l, y.dir = 1 → x.takeq = tok :: l → x.unperformed = 0 → x.it = n →
        (tok.kind ≠ 1 → ∃ t, exec .bindingIteration s = .next t ∧ bindingNow t (fun _ z => onward z ∧ z.takeq = [] ∧ z.sendq = x.sendq) ∧
          (isHost p = false → healthy s p → tok.poison = false → wroteBytes s t p 32 tok.payload.toNat) ∧
          (isHost p = false → healthy s p → tok.poison = true → t.poisonedAt p = true) ∧
          (isHost p = true → (t.vd r.vd).cxlq = (s.vd r.vd).cxlq ++
            [{ addr := p, data := (toLe 32 tok.payload.toNat).map some, poison := tok.poison, sent := false, stamp := s.cmdNo }])) ∧
        (tok.kind = 1 → ∃ t, exec .bindingIteration s = .next t ∧ memoryKept s t ∧
          bindingNow t (fun _ z => onward z ∧ z.takeq = [] ∧ z.sendq = x.sendq)))) ∧
    (∀ k l, x.softs = k :: l → ∃ t, exec .bufferHandOver s = .next t ∧ memoryKept s t ∧
      bindingNow t (fun _ z => z = { x with softs := l, gens := x.gens ++ [k] })) ∧
    (x.br.dir = 1 → x.endTaken = true → x.takeq = [] → x.unperformed = 0 → x.counted = false →
      ∃ t, exec .storeBindingEnd s = .next t ∧ memoryKept s t ∧
        bindingNow t (fun k z => z = { x with counted := true } ∧ (s.cur.z, x.br.lsid) ∈ k.counted)) ∧
    (let lead := r.lead; let i := s.cur.z; let who := Requester.binding lead s.cur.y i
     s.cur.y < 3 →
     (∀ w, s.walks.find? (fun w => w.who = who) = some w →
       (∀ e, s.walk r.vd w.va w.write = .ok e → ∃ t, exec (.walkCompletes who) s = .next t ∧ memoryKept s t ∧
         t.walks = s.walks.filter (fun w => w.who != who) ∧ bindingNow t (fun _ z => z = { x with te := some e })) ∧
       (∀ c bad, s.walk r.vd w.va w.write = .error (c, bad) →
         (∃ t, exec (.walkCompletes who) s = .next t ∧ t = { s with agenda := .event (.streamFault who) 0 0 0 :: s.agenda }) ∧
         ∃ t, exec (.streamFault who) s = .next t ∧ memoryKept s t ∧ t.walks = s.walks.filter (fun w => w.who != who) ∧
           bindingNow t (fun _ z => ∃ k, z = { x with park := some k } ∧ k.cause = c ∧ k.va = w.va ∧ (k.reported = true ↔ r.sfq.length < 16)) ∧
           ∃ q, t.region lead = some q ∧ (16 ≤ r.sfq.length → q.sfq = r.sfq) ∧
             (r.sfq.length < 16 → ∃ rep, q.sfq = r.sfq ++ [rep] ∧ rep.w0 = BitVec.ofNat 64 (c * 2 ^ 56 + i * 2 ^ 50) ∧
               rep.w1 = BitVec.ofNat 64 w.va ∧ let n := if x.br.dir = 0 then m.produced x.it else x.it
               rep.w2 = BitVec.ofNat 64 (m.indexOf n 1 * 2 ^ 32 + m.indexOf n 0) ∧ rep.w3 = BitVec.ofNat 64 (m.indexOf n 3 * 2 ^ 32 + m.indexOf n 2)))) ∧
     (∀ tok l w a, x.takeq = tok :: l → x.unperformed ≠ 0 → s.windowPlace r.vd (x.address m x.it).2 = .window w a →
       (s.unitFree a = false → exec (.windowStoreApply who) s = .next s) ∧
       (s.unitFree a = true → s.lookup x.unperformed (locOf a) 0x40 = .fresh → tok.poison = false → healthy s a →
         ∃ t, exec (.windowStoreApply who) s = .next t ∧ wroteBytes s t a 32 tok.payload.toNat ∧
           bindingNow t (fun _ z => z.unperformed = 0 ∧ z.takeq = [] ∧ z.it = x.it + 1)) ∧
       (∀ e, s.unitFree a = true → s.lookup x.unperformed (locOf a) 0x40 = .again e → ∃ t, exec (.windowStoreApply who) s = .next t ∧ memoryKept s t ∧
           bindingNow t (fun _ z => z.unperformed = 0 ∧ z.takeq = [] ∧ z.it = x.it + 1))))) ∧
    (let a := s.cur.x
      let src := if isTarn a = true then 0x10 + stackOf ((a - 2 ^ 46) / 2 ^ 22) ((a - 2 ^ 46) / 2 ^ 21 % 2)
        else if isRes a = true then 0x10 + (a - resBase) / 0x4000000 else 0x40 + (a - 2 ^ 47) / 4096 / 1024
      (isSram a = false ∨ s.poisonedAt a = true → exec .scrubPass s = .next s) ∧
      (isSram a = true → s.poisonedAt a = false →
        (s.lost a = true → ∃ t, exec .scrubPass s = .next t ∧ t.poison = insertSorted s.poison (unitOf a) ∧ tfind t.upsets (unitOf a) = none ∧
          (s.vox.events.length < 1024 → eventLast t src 3 255 [BitVec.ofNat 64 a]) ∧
          ∀ k, t.byte k = if unitOf a ≤ k ∧ k < unitOf a + 32 then 0 else s.byte k) ∧
        (s.lost a = false → s.bankErrors a = [] → exec .scrubPass s = .next s) ∧
        (∀ i l, s.lost a = false → s.bankErrors a = i :: l → let key := storageOf a * 16 + i
          let times := (tget s.banks key []).filter (fun u => s.chron.toNat < u + 1000000000) ++ [s.chron.toNat]
          ∃ t, exec .scrubPass s = .next t ∧ memoryKept s t ∧ tget t.banks key [] = times ∧ t.upsets = tdel s.upsets (unitOf a) ∧
            (times.length < 8 → t.failed = s.failed ∧
              (s.vox.events.length < 1024 → eventLast t src 1 255 [BitVec.ofNat 64 (storageOf a), BitVec.ofNat 64 a])) ∧
            (8 ≤ times.length → key ∈ t.failed)))) ∧
    (let key := storageKey s.cur.x s.cur.y; let c := storageCells s.cur.x s.cur.y
     (tfind s.dirty key).isSome = true →
     (∀ v, tfind s.lastVd key = some v → v < 96 → (s.vd v).spilled = [] ∧ (s.vd v).spilledBad = [] ∧ (s.vd v).spilledEdges = [] ∧
       ∀ b a, s.spillBase v s.cur.x s.cur.y = some b → s.spillLine v b = some a → s.badLines a c.2 = []) →
     ∃ t, exec .storageClear s = .next t ∧ tfind t.dirty key = none ∧ t.poison = s.poison.filter (fun k => decide (k < c.1) || decide (c.1 + c.2 ≤ k)) ∧
       ∀ k, t.byte k = if c.1 ≤ k ∧ k < c.1 + c.2 then 0 else s.byte k)

/-- R172 to R178, R181, R452: the stream-engine commands move, clear, gather and scatter one granule at a time, in order fill and drain the
rings of bindings, hand buffers over and advance bases, and answer with status and counts.
Where the spec leaves a point of these open the choice is the model's: log 8, 9, 36. -/
def Obligations.StreamCommands : Prop :=
  ∀ (s : State) (r : Region) (c : Cmd), let g := s.cur.x; let w := c.tok.w; let sk := w 6 / 2 ^ 4 % 16; let dk := w 6 % 16
    let dst := c.tok.w2 0; let src := c.tok.w2 2; let k := c.pos
    let moved := fun (i : Instr) (a p : Nat) (P : State → Prop) => ∃ t, exec i s = .next t ∧
      (s.badAt a = false → healthy s p → wroteBytes s t p 32 (number s a 32)) ∧ (s.badAt a = true → healthy s p → unitOf p ∈ t.poison) ∧
      commandNow t g c.id (fun d => d.begun = true ∧ d.pos = k + 1 ∧ d.written = c.written + 1 ∧ d.poisoned = c.poisoned + b2n (s.badAt a) ∧
        d.ended = none) ∧ P t
    let apart := fun (a n : Nat) => sk ≠ dk ∨ a < dst ∨ dst + 32 * n ≤ a
    let from0 := fun (kind a p : Nat) => s.spot r.vd g kind a false false c.te = .cell p ∧ isHost p = false
    let into := fun (kind a p : Nat) => s.spot r.vd g kind a true false c.te2 = .cell p ∧ isHost p = false
    let ends := fun (i : Instr) => (c.hand = false → ∃ t, exec i s = .next t ∧ accessesDone s t g c 0) ∧
      (c.hand = true → c.softReady r = true → (s.edge g).heldUp c = false → ∃ t, exec i s = .next t ∧ memoryKept s t ∧
        commandNow t g c.id (fun d => d.ended = some 0) ∧
        t.agenda = .event .bufferHandOver r.lead (r.placeOf c.inc) c.bindIx :: .event .streamCommandResponse g c.id 0 :: s.agenda)
    let turnedAway := fun (i : Instr) => ∃ t, exec i s = .next t ∧ memoryKept s t ∧ performed s t g c.id none
    let sent := fun (i : Instr) (n : Nat) => ∃ t, exec i s = .next t ∧ memoryKept s t ∧
      commandNow t g c.id (fun d => d.begun = true ∧ d.pos = n ∧ d.written = n)
    (s.readyStream 0x0A = some (r, c) → let n := w 4 / 32
      (k = n → (c.peerDst = true → s.sendDone c.tag = true) → ends .scopy) ∧
      (∀ a p, k ≠ n → c.peerDst = false → from0 sk (src + 32 * k) a → into dk (dst + 32 * k) p → tfind c.seen a = none → apart (src + 32 * k) n →
        moved .scopy a p (fun _ => True)) ∧
      (∀ q o data bad, k ≠ n → c.peerDst = true → src % 32 = 0 → readsRange s r c false sk src (32 * n) data bad →
        s.peerPlace r.vd dst true = .peer q o → s.peerRoom r.vd q = true → s.sendInOrder r.vd (r.endSource g) q o (32 * n) = true → sent .scopy n)) ∧
    (s.readyStream 0x0D = some (r, c) → let n := w 4 / 32
      (k = n → (c.peerDst = true → s.sendDone c.tag = true) → ends .szero) ∧
      (∀ p, k ≠ n → c.peerDst = false → into dk (dst + 32 * k) p → healthy s p → ∃ t, exec .szero s = .next t ∧ wroteBytes s t p 32 0 ∧
        commandNow t g c.id (fun d => d.pos = k + 1 ∧ d.written = c.written + 1 ∧ d.poisoned = c.poisoned)) ∧
      (∀ q o, k ≠ n → c.peerDst = true → s.peerPlace r.vd dst true = .peer q o → s.peerRoom r.vd q = true →
        s.sendInOrder r.vd (r.endSource g) q o (32 * n) = true → sent .szero n)) ∧
    (let entry := fun (q : Nat) (j : Int) => s.spot r.vd g 1 (w 4 + 4 * k) false false none = .cell q ∧ s.badAt q = false ∧ isHost q = false ∧
       j = signed (number s q 4) 32 ∧ ∀ l e, c.list = some l → l[k]? = some e → e = (j, false)
     let at0 := fun (kind base : Nat) (j : Int) (a : Nat) => indexed kind base j = some a ∧ (kind ≠ 0 → (a : Int) = base + 32 * j) ∧
       (kind = 0 → (a : Int) = (base + 32 * j) % 2 ^ 64)
     let n := w 5
     let judged := c.tok.listed = false ∨ c.list ≠ none
     (s.readyStream 0x0E = some (r, c) → (judged → k = n → ends .sgath) ∧
       (¬ judged → let l := s.listNow r.vd g c.tok
         (listOk sk src l = false → turnedAway .sgath) ∧
         (listOk sk src l = true → ∃ t, exec .sgath s = .next t ∧ memoryKept s t ∧
           commandNow t g c.id (fun d => d.begun = true ∧ d.list = some l ∧ d.pos = k ∧ d.written = c.written))) ∧
       ∀ q j sa a p, k ≠ n → judged → entry q j → at0 sk src j sa → from0 sk sa a →
         into dk (dst + 32 * k) p → tfind c.seen a = none → apart sa n → moved .sgath a p (fun _ => True)) ∧
     (s.readyStream 0x0F = some (r, c) → (k = n → ends .sscat) ∧
       (∀ q j, k ≠ n → entry q j → indexed dk dst j = none → turnedAway .sscat) ∧
       ∀ q j da a p, k ≠ n → entry q j → at0 dk dst j da → from0 sk (src + 32 * k) a →
         into dk da p → tfind c.seen a = none → tfind c.seen p = none → moved .sscat a p (fun _ => True))) ∧
    (∀ x : BindSt, c.binding r = some x → s.region r.lead = some r →
      let named := fun (t : State) (f : BindSt) => ∃ q, t.region r.lead = some q ∧ c.binding q = some f
      let n := w 4 / 32; let ring := 0x40000 - x.br.base
      (s.readyStream 0x0B = some (r, c) → (k = n → ends .spref) ∧
        (∀ a p, k ≠ n → from0 sk (src + 32 * k) a → into 1 (x.br.depth * 2 ^ 18 + x.br.base + 32 * x.filled % ring) p →
          moved .spref a p (fun t => named t { x with filled := x.filled + 1 }))) ∧
      (s.readyStream 0x0C = some (r, c) → x.br.target ≠ 1 ∨ x.br.mode ≠ 0 →
        (k = n ∨ x.filled ≤ x.removed → ends .sflush) ∧
        (∀ a p, k ≠ n → x.removed < x.filled →
          s.spot r.vd g 1 (x.br.depth * 2 ^ 18 + x.br.base + 32 * x.removed % ring) false false none = .cell a → isHost a = false →
          into dk (dst + 32 * k) p → moved .sflush a p (fun t => named t { x with removed := x.removed + 1 }))) ∧
      (∀ b l, s.readyStream 0x0C = some (r, c) → x.br.target = 1 → x.br.mode = 0 → x.softs = b :: l → let s3 := (vg x.br.strides 3 0).toNat
        (∀ a p, 32 * k < s3 → s.spot r.vd g 1 (x.br.depth * 2 ^ 18 + x.br.base + b * s3 + 32 * k) false false none = .cell a → isHost a = false →
          into dk (dst + 32 * k) p → moved .sflush a p (fun _ => True)) ∧
        (s3 ≤ 32 * k → c.hand = false → ∃ t, exec .sflush s = .next t ∧ accessesDone s t g c 0 ∧
          named t { x with softs := l, gens := x.gens ++ [b] })) ∧
      (s.readyStream 0x09 = some (r, c) → c.hand = false → ∃ t, exec .sswap s = .next t ∧ memoryKept s t ∧
        t.agenda = .event .bufferHandOver r.lead (r.placeOf c.inc) c.bindIx :: .event .streamCommandResponse g c.id 0 :: s.agenda ∧
        commandNow t g c.id (fun d => d.ended = some 0)) ∧
      (∀ b, s.readyStream 0x08 = some (r, c) → r.blockOf c.inc = some b → c.hand = false →
        (s.hasBegun r c x b (w 2) = false → (∃ t, exec .sadv s = .next t ∧ accessesDone s t g c 0 ∧
          named t { x with adv := x.adv ++ [(w 2, signed dst 64)] })) ∧
        (s.hasBegun r c x b (w 2) = true → ∃ t, exec .sadv s = .next t ∧ accessesDone s t g c 3 ∧ t.regions = s.regions))) ∧
    (∀ st, (s.edge g).find s.cur.y = some c → c.ended = some st → ∃ t, exec .streamCommandResponse s = .next t ∧ memoryKept s t ∧
      (c.tok.returns = false → performed s t g c.id none) ∧
      (c.tok.returns = true → ∃ q, performed s t g c.id (some q) ∧ let f := c.firstPoison.getD 0
        answers q c (fun j => if j = 0 then (if st = 0 ∧ 0 < c.poisoned then 1 else st) else if j = 1 then c.written else if j = 2 then c.poisoned
          else if j = 3 then f % 2 ^ 32 else if j = 4 then f / 2 ^ 32 else 0) false))

/-! ### Eddy units and spring decoders -/

/-- R117 to R119, R350 to R362: a fabric atomic arrives at the unit of its location, and in its turn there reads and writes it in one action and
answers the original value; a known tag is answered from the table; poisoned targets do not change; `EFLUSH` answers.
Where the spec leaves a point of these open the choice is the model's: log 31, 36. -/
def Obligations.FabricAtomics : Prop :=
  ∀ (s : State) (r : Region) (c : Cmd), let g := s.cur.x; let w := c.tok.w; let ty := w 7 / 2 ^ 8 % 4
    let answered := fun (t : State) (orig status flags n : Nat) => (c.tok.returns = false → performed s t g c.id none) ∧
      (c.tok.returns = true → ∃ q, performed s t g c.id (some q) ∧ answers q c (fun k => if k = 0 then orig else if k = 1 then (if n = 4 then 0 else orig / 2 ^ 32)
        else if k = 2 then status else if k = 3 then flags % 256 else 0) (decide (status ≠ 0)))
    -- the location `x` of `n` bytes holds `m`; it takes `new`, and `orig` with `flags` is returned
    let atomic := fun (i : Instr) (op n : Nat) (new orig flags : Nat → Nat) => s.readyOp op = some (r, c) →
      let code := op * 4 + ty + 0x100
      (∀ x, c.unit = none → (s.spot r.vd g 0 (c.tok.w2 4) true false (s.entryOf g c false)).cellOf = some x →
        (isHbm x = true ∨ isRes x = true → (s.atUnit x).length < 64 → ∃ t, exec i s = .next t ∧ memoryKept s t ∧
          commandNow t g c.id (fun d => d = { c with begun := true, unit := some (s.cmdNo, x) })) ∧
        (isHbm x = true ∨ isRes x = true → 64 ≤ (s.atUnit x).length → exec i s = .next s) ∧
        (isHbm x = false → isRes x = false → ∃ t, exec i s = .next t ∧ memoryKept s t ∧ performed s t g c.id none)) ∧
      (∀ k x, c.unit = some (k, x) → s.firstAt k x = false → exec i s = .next s) ∧
      (∀ k x, c.unit = some (k, x) → s.firstAt k x = true → let m := number s x n; let v := s.vd (tagVd c.tag)
        (s.lookup c.tag x code = .fresh → s.check x = .clean → ∃ t, exec i s = .next t ∧ answered t (orig m) 0 (flags m) n ∧
          (healthy s x → isHbm x = true ∨ isRes x = true → wroteBytes s t x n (new m) ∧ t.poison = s.poison.filter (fun u => u != unitOf x) ∧
            (t.vd (tagVd c.tag)).supp = v.supp ++
              [{ tag := c.tag, loc := x, op := code, result := BitVec.ofNat 64 (orig m), status := 0, flags := flags m }])) ∧
        (∀ e, s.lookup c.tag x code = .again e → ∃ t, exec i s = .next t ∧ memoryKept s t ∧ t.vds = s.vds ∧ answered t e.result.toNat 0 e.flags n) ∧
        (s.lookup c.tag x code = .mismatch → ∃ t, exec i s = .next t ∧ memoryKept s t ∧ answered t 0 3 0 n ∧
          .event .quarantine (tagVd c.tag) 2 0 ∈ t.agenda) ∧
        (s.lookup c.tag x code = .fresh → s.check x ≠ .clean → ∃ t, exec i s = .next t ∧ memoryKept s t ∧ answered t 0 2 0 n))
    let n := if ty < 2 then 4 else 8; let v := if ty < 2 then w 0 else c.tok.w2 0; let k := if ty < 2 then w 2 else c.tok.w2 2
    let plain := fun (i : Instr) (op : Nat) (f : Nat → Nat) => atomic i op n f id (fun _ => 0)
    let less := fun a b => if ty % 2 = 0 then decide (signed a (8 * n) < signed b (8 * n)) else decide (a < b)
    plain .aadd 0x10 (fun m => m + v) ∧ plain .amin 0x12 (fun m => if less v m = true then v else m) ∧ plain .amax 0x13 (fun m => if less m v = true then v else m) ∧
    plain .aand 0x14 (fun m => m &&& v) ∧ plain .aor 0x15 (fun m => m ||| v) ∧ plain .axor 0x16 (fun m => m ^^^ v) ∧ plain .aswap 0x17 (fun _ => v) ∧
    plain .acas 0x18 (fun m => if m = k then v else m) ∧ plain .ainc 0x19 (fun m => if v ≤ m then 0 else m + 1) ∧
    (ty = 0 → atomic .supd 0x1A 16 (fun m => ((List.range 16).map (fun b =>
      (if w 6 / 2 ^ (16 + b) % 2 = 1 then c.tok.payload.toNat / 256 ^ b % 256 else m / 256 ^ b % 256) * 256 ^ b)).sum) (fun _ => 0) (fun _ => 0)) ∧
    (ty < 3 → let f : Fmt := if ty = 0 then .f32 else if ty = 1 then .bf16 else .f16; let wd := f.width
      let add := fun m j => arith f (addVal (decodeF f (m / 2 ^ (wd * j) % 2 ^ wd)) (decodeF f (w 0 / 2 ^ (wd * j) % 2 ^ wd)) .rne) .rne { aflags := 0, srstate := 0 }
      atomic .afadd 0x11 4 (fun m => ((List.range (32 / wd)).map (fun j => (add m j).1 * 2 ^ (wd * j))).sum) id
        (fun m => ((List.range (32 / wd)).foldl (fun (a : BitVec 32) j => a ||| (add m j).2.aflags) 0).toNat)) ∧
    (s.readyOp 0x1B = some (r, c) → ∃ t q, exec .eflush s = .next t ∧ memoryKept s t ∧ performed s t g c.id (some q) ∧
      answers q c (fun _ => 0) false)

/-- R37, R38, R362, R366, R369 to R380: entries retire; a convoy's phase completes; and a spring command decodes its blocks in order, lets
none out whose check fails, and answers with its counts.
Where the spec leaves a point of these open the choice is the model's: log 17, 31, 36. -/
def Obligations.EddyAndSpringUnits : Prop :=
  ∀ (s : State) (r : Region) (c : Cmd), let g := s.cur.x; let w := c.tok.w
    (let vd := s.cur.x; let tag := s.cur.y
     let gone := fun (t : State) => (t.vd vd).supp = (s.vd vd).supp.filter (fun e => e.tag != tag) ∧
       (t.vd vd).spilledSupp = (s.vd vd).spilledSupp.filter (fun e => e.tag != tag) ∧ (∀ v, v ≠ vd → t.vd v = s.vd v) ∧ memoryKept s t
     let sent := s.hb.unretired.find? (fun e => decide (e.tag = tag) && e.status != 255)
     (sent = none → ∃ t, exec .suppressionRetire s = .next t ∧ gone t ∧ t.hb = s.hb) ∧
     (∀ e, sent = some e → ∃ t, exec .suppressionRetire s = .next t ∧ gone t ∧ t.hb.unretired = s.hb.unretired.filter (fun u => u.tag != tag) ∧
       ∀ p, s.portTo vd e.vc e.module = some p → ∃ f, tget (t.port p).queues 25 [] = tget (s.port p).queues 25 [] ++ [f] ∧
         f.typ = 4 ∧ f.vc = 25 ∧ f.dst = 0 ∧ f.src = vd ∧ f.recs = [{ tag := tag, op := 0, step := 0, phase := 0 }])) ∧
    (∀ v, s.convoy s.cur.x s.cur.y = some v → (∀ m ∈ v.members, m ∈ v.arrived) → ∃ t k, exec .convoyPhaseComplete s = .next t ∧ memoryKept s t ∧
      t.convoy s.cur.x s.cur.y = some k ∧ k.phase = v.phase + 1 ∧ k.members = v.later ∧ k.later = v.later ∧ k.arrived = [] ∧ k.held = [] ∧
      (v.waits = [] → k.done = v.done)) ∧
    (let start := fun (i : Instr) (op : Nat) => s.readySpring (some op) = some (r, c) → c.begun = false → ∃ t, exec i s = .next t ∧ memoryKept s t ∧
        t.agenda = .event .springBlockDecoded g c.id 0 :: s.agenda ∧ commandNow t g c.id (fun d => d = { c with begun := true })
     start .sprg 0x1C ∧ start .sprgq 0x1D) ∧
    (s.readySpring none = some (r, c) → c.op = 0x1C ∨ c.op = 0x1D → c.pos < w 4 → c.part = 0 → let n := w 6 / 2 ^ 16 % 256; (s.edge g).springs.length ≤ n →
      -- the places of a block's granules: none for tokens
      ∀ P : Nat → Nat, (c.op = 0x1C → c.tok.w2 0 % 32 = 0 ∧ ∀ j, j < n →
        (s.spot r.vd g (w 6 % 16) (c.tok.w2 0 + 32 * n * c.pos + 32 * j) true false c.te2).cellOf = some (P j)) →
      let plainPlaces := (∀ j, j < n → isHost (P j) = false ∧ healthy s (P j) ∧ (tget s.cipher.counters (P j / 4096) Counter.zero).major < 2 ^ 64 - 256) ∧
        ∀ i j, i < j → j < n → P i + 32 ≤ P j ∨ P j + 32 ≤ P i
      -- the output of a block: 32 · n bytes written, or n tokens
      let out := fun (t : State) (b : List Byte) (bad : Bool) =>
        (c.op = 0x1D → memoryKept s t ∧ ∃ l, (t.edge g).springs = (s.edge g).springs ++ l ∧ l.length = n ∧ ∀ j q, l[j]? = some q →
          q.kind = 0 ∧ q.round = c.tok.round ∧ q.tag = BitVec.ofNat 2 (w 6 / 2 ^ 8 % 4) ∧ q.poison = bad ∧
          q.payload = if bad = true then 0 else BitVec.ofNat 256 (numberOf ((b.drop (32 * j)).take 32))) ∧
        (c.op = 0x1C → plainPlaces →
          (bad = true → (∀ j, j < n → t.poisonedAt (P j) = true) ∧ ∀ k, (∀ j, j < n → unitOf k ≠ unitOf (P j)) → t.byte k = s.byte k) ∧
          (bad = false → b.length = 32 * n → (∀ j k, j < n → k < 32 → t.byte (P j + k) = b[32 * j + k]?.getD 0) ∧
            ∀ k, (∀ j, j < n → k < P j ∨ P j + 32 ≤ k) → t.byte k = s.byte k))
      let sk := w 6 / 2 ^ 4 % 16; let src := c.tok.w2 2 + c.off
      let stops := fun (f : Nat) => ∃ t, exec .springBlockDecoded s = .next t ∧ out t [] true ∧
        commandNow t g c.id (fun d => d.pos = c.pos + 1 ∧ d.poisoned = c.poisoned + 1 ∧ d.written = c.written ∧ d.off = c.off ∧ d.failed = some (c.pos, f, c.off)) ∧
        (s.vox.events.length < 1023 → ∃ x ∈ t.vox.events, x.src = 0x10 + stackOf (g / 2) (g % 2) ∧ x.code = 0x12 ∧ x.vd = r.vd ∧
          x.detail = [BitVec.ofNat 64 (decoderOf g), BitVec.ofNat 64 g, BitVec.ofNat 64 c.pos, BitVec.ofNat 64 f])
      (∀ f, c.failed = some f → ∃ t, exec .springBlockDecoded s = .next t ∧ out t [] true ∧
        commandNow t g c.id (fun d => d.pos = c.pos + 1 ∧ d.poisoned = c.poisoned + 1 ∧ d.written = c.written ∧ d.failed = some f)) ∧
      -- a block decoded before a walk or a park: it is written as it was decoded
      (∀ l bad off, c.failed = none → c.block = some (l, bad, off) → ∃ t, exec .springBlockDecoded s = .next t ∧ out t l bad ∧
        commandNow t g c.id (fun d => d.pos = c.pos + 1 ∧ d.poisoned = c.poisoned + (if bad = true then 1 else 0) ∧
          d.written = c.written + (if bad = true then 0 else 1) ∧ d.off = off ∧ d.failed = none ∧ d.block = none)) ∧
      (∀ a, c.failed = none → c.block = none → (s.spot r.vd g sk src false false c.te).cellOf = some a → let hd := s.view a 32
        (s.viewBad a = true → stops 7) ∧
        (∀ f, s.viewBad a = false → spHead hd (w 5 + c.pos) n = .error f → stops f) ∧
        (∀ h cs, s.viewBad a = false → spHead hd (w 5 + c.pos) n = .ok h →
          s.cellsOf r.vd g sk false c.te (pieces (src + 32) (32 * (h.granules - 1))) = .ok cs →
          let data := cs.flatMap (fun x => s.view x.1 x.2); let bad := cs.any (fun x => s.viewBad x.1)
          (bad = true → ∃ t, exec .springBlockDecoded s = .next t ∧ out t [] true ∧
            commandNow t g c.id (fun d => d.pos = c.pos + 1 ∧ d.poisoned = c.poisoned + 1 ∧ d.off = c.off + 32 * h.granules ∧ d.failed = none)) ∧
          (∀ f, bad = false → spDecode h data = .error f → stops f) ∧
          (∀ b, bad = false → spDecode h data = .ok b →
            (h.coded = false → b = data.take (32 * n)) ∧ (crc32c b).toNat = rd hd 8 4 ∧ (b.length = 32 * n →
            ∃ t, exec .springBlockDecoded s = .next t ∧ out t b false ∧
              commandNow t g c.id (fun d => d.pos = c.pos + 1 ∧ d.written = c.written + 1 ∧ d.poisoned = c.poisoned ∧ d.off = c.off + 32 * h.granules ∧
                d.failed = none)))))) ∧
    ((s.edge g).find s.cur.y = some c → c.op = 0x1C ∨ c.op = 0x1D → c.begun = true → w 4 ≤ c.pos → (c.op = 0x1D → (s.edge g).springs = []) →
      ∃ t, exec .springResponse s = .next t ∧ memoryKept s t ∧ (c.tok.returns = false → performed s t g c.id none) ∧
        (c.tok.returns = true → ∃ q, performed s t g c.id (some q) ∧ answers q c (fun k => if k = 0 then (if c.failed.isSome = true then 2 else if 0 < c.poisoned then 1 else 0)
          else if k = 1 then c.written else if k = 2 then c.poisoned else if k = 3 then (c.failed.getD (0xFFFFFFFF, 0, 0)).1 else if k = 4 then (c.failed.getD (0, 0, 0)).2.1
          else if k = 5 then (c.failed.getD (0, 0, 0)).2.2 else 0) false))

/-! ### The anchor engine and the windows -/

/-- R391 to R393, R398 to R401, R403, R406 to R408, R412 to R414, R488: the mailbox's anchor commands begin and end with their codes; a tide
injects marks and each element that takes one snapshots; a freeze gates its clocks; a complete snapshot becomes a record and its bands
are free.
Where the spec leaves a point of these open the choice is the model's: log 23, 38. -/
def Obligations.AnchorCommands : Prop :=
  ∀ s : State,
    let f := fun o n => s.vox.field (8 + o) n
    -- the offset or size is written by TIDE, a FREEZE that saves and CTXSIZE, where they succeed
    let replies := fun (t : State) (code detail off : Nat) => mailDone t (if code = 0 then 0 else 9) code ∧ mailResult t 3 = BitVec.ofNat 64 (detail * 2 ^ 32 + code) ∧
      (code = 0 → f 0 1 = 1 ∨ f 0 1 = 2 ∨ (f 0 1 = 3 ∧ f 1 1 = 1) → mailResult t 2 = BitVec.ofNat 64 off) ∧
      (¬ (code = 0 ∧ (f 0 1 = 1 ∨ f 0 1 = 2 ∨ (f 0 1 = 3 ∧ f 1 1 = 1))) → mailResult t 2 = tget s.vox.record 3 0)
    let given := fun op => s.vox.busy = true ∧ s.vox.devstate = 2 ∧ s.vox.latched = some 0x21 ∧ f 0 1 = op ∧ ∀ o ∈ s.snaps, o.who ≠ .mailbox
    let vd := f 2 1; let off := f 0x10 8; let flag := f 1 1
    let op := fun (r : Region) (fr save : Bool) (a n : Nat) =>
      ({ who := .mailbox, region := r.lead, vd := r.vd, freeze := fr, save := save, restore := false, gated := false, faulted := false, off := a, snapNo := n,
         at0 := s.cycle } : SnapOp)
    (∀ i k, (i, k) ∈ [(Instr.ctxsize, 1), (.tide, 2), (.freeze, 3), (.save, 4), (.restore, 5), (.discard, 6)] → given k → s.cur.x = 0 →
      (s.vox.anchorOk = false → ∃ t, exec i s = .next t ∧ memoryKept s t ∧ replies t 1 0 off) ∧
      (s.vox.anchorOk = true → (s.vd vd).present = false → ¬ (k = 1 ∧ flag = 0) → ∃ t, exec i s = .next t ∧ memoryKept s t ∧ replies t 2 0 off)) ∧
    (given 1 → s.vox.anchorOk = true → flag = 0 ∨ (s.vd vd).present = true → ∃ t, exec .ctxsize s = .next t ∧ memoryKept s t ∧
      replies t 0 0 (if flag = 0 then 0x20000 + f 3 1 * 0x2400000 else f 3 1 * 0x2420000 + if (s.vd vd).spill = true then
        (s.vd vd).q.tarns * 0x40000 + (s.vd vd).q.quarters * 0x1000000 + f 3 1 * 0x400000 + 0x200000 else 0)) ∧
    (s.vox.anchorOk = true → (s.vd vd).present = true → s.cur.x = 0 →
      (s.regionNamed vd (f 8 4) = none → ∀ i k, (i, k) ∈ [(Instr.tide, 2), (.freeze, 3), (.save, 4)] → given k →
        ∃ t, exec i s = .next t ∧ memoryKept s t ∧ replies t 2 0 0) ∧
      (∀ r, s.regionNamed vd (f 8 4) = some r → s.isFrozen r = false → s.snapOf r = none →
        (given 2 → r.shadow ≠ .loading →
          (∀ a, s.allocRecord r.vd r.bands = some a → ∃ t, exec .tide s = .next t ∧ memoryKept s t ∧ t.snapNo = s.snapNo + 1 ∧ t.vox = s.vox ∧
            t.snaps = s.snaps ++ [op r (decide (r.running = .running) && !s.tideable r) true a (s.snapNo % 65536)] ∧
            (r.running = .running → s.tideable r = true → ∀ g ∈ r.ends, (t.edge g).marks = (s.edge g).marks ++ [tideMark (s.snapNo % 65536)])) ∧
          (s.allocRecord r.vd r.bands = none → ∃ t, exec .tide s = .next t ∧ memoryKept s t ∧ replies t 4 0 0 ∧
            ∃ o ∈ t.snaps, o.region = r.lead ∧ o.freeze = true ∧ o.save = false)) ∧
        (given 3 →
          (flag = 0 → ∃ t, exec .freeze s = .next t ∧ t = { s with snaps := s.snaps ++ [op r true false 0 0] }) ∧
          (∀ a, flag = 1 → s.allocRecord r.vd r.bands = some a → ∃ t, exec .freeze s = .next t ∧ t = { s with snaps := s.snaps ++ [op r true true a 0] })) ∧
        (given 4 → ∃ t, exec .save s = .next t ∧ memoryKept s t ∧ t.snaps = s.snaps ∧ replies t 3 0 0)) ∧
      (given 6 → (∀ k, (s.vd vd).saves.find? (fun k => k.off = off) = some k → ∃ t, exec .discard s = .next t ∧ replies t 0 0 off ∧
          (t.vd vd).saves = (s.vd vd).saves.filter (fun x => x.off != off)) ∧
        ((∀ k ∈ (s.vd vd).saves, k.off ≠ off) → ∃ t, exec .discard s = .next t ∧ memoryKept s t ∧ replies t 2 0 off)) ∧
      (given 5 → ((∀ k ∈ (s.vd vd).saves, k.off ≠ off) → ∃ t, exec .restore s = .next t ∧ memoryKept s t ∧ replies t 2 0 off) ∧
        (∀ k, (s.vd vd).saves.find? (fun k => k.off = off) = some k → (∀ o ∈ s.snaps, ¬ (o.restore = true ∧ o.vd = vd ∧ o.off = off)) →
          let fails := fun code => ∃ t, exec .restore s = .next t ∧ memoryKept s t ∧ replies t code 0 off ∧ t.regions = s.regions
          (s.recordBad vd k ≠ [] ∨ k.damaged = true → fails 9) ∧ (s.recordBad vd k = [] → k.damaged = false → k.unrestartable = true → fails 5) ∧
          (s.recordBad vd k = [] → k.damaged = false → k.unrestartable = false →
            (s.restorePlace vd k.bands (f 3 1) (f 4 1) = none → fails 6) ∧
            (∀ b, s.restorePlace vd k.bands (f 3 1) (f 4 1) = some b →
              (b ≠ k.lead → k.hasChannel = true → fails 7) ∧
              (b ≠ k.lead → k.hasChannel = false → s.moved vd k.lead b k.region = none → fails 8) ∧
              (b = k.lead ∨ (k.hasChannel = false ∧ s.moved vd k.lead b k.region ≠ none) → ∃ t, exec .restore s = .next t ∧
                t.regions = s.regions ++ [k.region.move b] ∧ (b = k.lead → k.bad = [] → (s.vd vd).spilledFifos = [] → (∀ x ∈ s.fifos, ∀ y ∈ x.2.toks, y.vd = vd) → (∀ i, i < k.region.bands →
                  tfind s.lastVd (storageKey 2 (b + i)) = some vd ∧ tfind s.dirty (storageKey 2 (b + i)) = none) → t.vox = s.vox) ∧
                t.elems = k.elems.map (fun x => (x.1 + 1024 * b, x.2.move k.lead b)) ++ s.elems.filter (fun x => !(k.region.move b).hasElem x.1) ∧
                (t.vd vd).restoring = (s.vd vd).restoring + 1 ∧
                t.snaps = s.snaps ++ [{ (op (k.region.move b) false false off 0) with
                  restore := true, gated := true, faulted := k.faultFrozen, todo := k.order.map (fun e => (e.source, e.stamp)) }])))))) ∧
    (∀ r o i, i ∈ [Instr.tide, .freeze, .save, .restore] → s.cur.x = 1 → s.region s.cur.y = some r → s.snapOf r = some o →
      let ended := fun (t : State) (code n : Nat) => (o.who = .mailbox → replies t code n o.off) ∧ t.snaps = s.snaps.filter (fun x => x.region != r.lead)
      (s.vox.devstate = 3 → exec i s = .next s) ∧ (i ≠ .restore → s.snapDone r o = false → exec i s = .next s) ∧
      (i ≠ .restore → s.vox.devstate ≠ 3 → s.snapDone r o = true → let a := (s.vd r.vd).saveBase + o.off; let k := s.record r o
        -- the record in its lines, which are then verified
        let w := (s.vacate r).writeLines a (recordSize r.bands / 64) (fun n => partLine (k.parts r.vd) (64 * n)) (k.badAt.map (fun x => a + x))
        ∃ t, exec i s = .next t ∧ ended t (if w.recordBad r.vd k = [] then 0 else 9) 0 ∧ t.regions = s.regions.filter (fun q => q.lead != r.lead) ∧
        (a % 4096 = 0 → ∀ n, n < a ∨ a + (0x20000 + r.bands * 0x2400000) ≤ n → t.byte n = s.byte n) ∧
        t.elems = s.elems.filter (fun x => !r.hasElem x.1) ∧ t.pilots = s.pilots.filter (fun x => !r.holds x.1) ∧
        (t.vd r.vd).saves = (s.vd r.vd).saves ++ [k] ∧ k.off = o.off ∧ k.inc = r.inc ∧ k.bands = r.bands ∧ k.lead = r.lead ∧
        k.region = s.regionToSave r ∧ k.entries = s.reckoning r ∧
        k.kind = (if o.freeze = true then 2 else 1) ∧ k.snapNo = o.snapNo ∧ k.graph = r.graph ∧ k.time = (s.vd r.vd).guest ∧ k.damaged = false ∧
        k.pilots = (s.pilots.filter (fun x => r.holds x.1)).map (fun x => (x.1 - r.lead, x.2))) ∧
      (∀ q l, i = .restore → s.vox.devstate ≠ 3 → o.restore = true → o.todo = q :: l → ∃ t, exec i s = .next t ∧ memoryKept s t ∧ t.regions = s.regions ∧
        t.agenda = .event .restore 1 s.cur.y 0 :: s.agenda ∧
        t.snaps = s.snaps.map (fun x => if x.region = r.lead then { x with todo := x.todo.filter (· != q) } else x)) ∧
      (i = .restore → s.vox.devstate ≠ 3 → o.restore = true → o.todo = [] → ∃ t n, exec i s = .next t ∧ memoryKept s t ∧ ended t 0 n ∧
        (t.vd r.vd).saves = (s.vd r.vd).saves.filter (fun k => k.off != o.off) ∧ (t.vd r.vd).restoring = (s.vd r.vd).restoring - 1 ∧
        ∀ k, (s.vd r.vd).saves.find? (fun k => k.off = o.off) = some k → n = k.replays)) ∧
    (let e := s.cur.x; let i := s.cur.y; let m := s.elem e
     (∀ fd tok, i < 4 → s.tideAt e i = some (fd, tok) → m.tideClosed.getLsbD i = false → m.core.blocked = false →
       (let k := m.snap.getD m.core; (vg k.cfg k.active ElemCfg.empty).bound / 2 ^ i % 2 = 1) →
       (m.snap = none → m.last = s.cycle + 1 → exec .tideMarkSnapshot s = .next s) ∧ (m.snap ≠ none ∨ m.last ≠ s.cycle + 1 → ∃ t, exec .tideMarkSnapshot s = .next t ∧ memoryKept s t ∧ (t.elem e).tideClosed.getLsbD i = true ∧
         (∀ j, j < 4 → j ≠ i → (t.elem e).tideClosed.getLsbD j = m.tideClosed.getLsbD j) ∧ (t.elem e).snap = some (m.snap.getD m.core) ∧
         (m.snap = none → (t.elem e).core.active = 1 - m.core.active ∧ (t.elem e).snapRouter = some m.router ∧ (t.elem e).last = s.cycle + 1))) ∧
     (∀ fd tok r, i < 4 → s.incoming e (4 + i) = some (fd, tok) → s.regionOfElem e = some r → m.snap ≠ none → m.tideClosed.getLsbD i = false →
       (tok.isMark && decide (tok.mark = 2)) = false →
       (m.caught.length < 16 → ∃ t, exec .caughtToken s = .next t ∧ memoryKept s t ∧ (t.elem e).caught = m.caught ++ [(i, tok)] ∧ (t.elem e).snap = m.snap) ∧
       (16 ≤ m.caught.length → ∃ t, exec .caughtToken s = .next t ∧ t = { s with snaps := s.snaps.map (fun o =>
         if o.region = r.lead ∧ o.freeze = false then { o with freeze := true, at0 := s.cycle } else o) }))) ∧
    (∀ r o, s.region s.cur.x = some r → s.snapOf r = some o →
      (o.freeze = true → o.gated = false → o.at0 + 16 ≤ s.cycle → ∃ t, exec .freezeGateCloses s = .next t ∧ memoryKept s t ∧
        t.snaps = s.snaps.map (fun x => if x.region = r.lead then { x with gated := true, gateAt := s.cycle } else x) ∧
        (o.save = true → t.vox = s.vox) ∧ (o.save = false → o.who = .mailbox → replies t 0 0 0)) ∧
      (s.marksMissing r = false → exec .tideTimeout s = .next s) ∧
      (o.freeze = false → o.restore = false → o.at0 + 20000 ≤ s.cycle → s.marksMissing r = true → ∃ t, exec .tideTimeout s = .next t ∧
        t = { s with snaps := s.snaps.map (fun x => if x.region = r.lead ∧ x.freeze = false then { x with freeze := true, at0 := s.cycle } else x) }))

/-! ### The cipher units and the Harbour -/

/-- R417, R418, R425 to R429, R432 to R438: a line that fails its check raises an integrity event when it is read, and what was verified for a read
stays in the unit's cache; a masked write merges, advances the line's counter and makes it clean; nodes written back advance their parents; and
window operations, as the mailbox issues them, begin in their order, answer the code of a failed check, or pass every frame to its new owner at once.
Where the spec leaves a point of these open the choice is the model's: log 10, 41, 45. -/
def Obligations.CipherUnits : Prop :=
  ∀ s : State,
    (let a := s.cur.x; let f := s.frameOf a
     -- what is read of HBM under an owner leaves its counter line in the cache of its unit
     let cached := fun (t : State) => t.cipher = { s.cipher with cached := t.cipher.cached } ∧ (∀ k ∈ s.cipher.cached, k ∈ t.cipher.cached) ∧
       (isHbm a = true → f.kind ≠ 0 → a / 4096 ∉ s.cipher.badCounters → cacheKey (a / 0xC00000000) (nodeKey f.ownerKey 1 f.num) ∈ t.cipher.cached)
     (s.check a ≠ .failed → ∃ t, exec .dataLineRead s = .next t ∧ t = { s with cipher := t.cipher, agenda := t.agenda } ∧ cached t) ∧
     (s.check a ≠ .failed → f.kind = 0 → exec .dataLineRead s = .next s) ∧
     (s.check a = .failed → s.vox.events.length < 1024 → ∃ t, exec .dataLineRead s = .next t ∧ memoryKept s t ∧ cached t ∧
       eventLast t (0x10 + a / 0xC00000000) 0x10 (if f.kind = 1 then f.owner else 255)
         [BitVec.ofNat 64 (a / 0xC00000000), BitVec.ofNat 64 (a / 64), BitVec.ofNat 64 (if f.kind = 2 then 128 + f.owner else f.owner),
          BitVec.ofNat 64 (if a / 4096 ∈ s.cipher.badCounters then tget s.cipher.levels (a / 4096) 1 else 0)] ∧
       (f.kind = 1 → .event .quarantine f.owner 1 0 ∈ t.agenda))) ∧
    (∀ (data : BitVec 512) (mask : BitVec 64), let a := unitOf s.cur.x; let c := tget s.cipher.counters (a / 4096) Counter.zero; let i := a / 64 % 64
      isHbm a = true → mask ≠ 0 ∨ s.cur.y = 1 → a / 4096 ∉ s.cipher.badCounters → c.major ≠ 2 ^ 64 - 1 →
      let counted := fun (t : State) => tget t.cipher.counters (a / 4096) Counter.zero =
        if tget c.minors i 0 < 127 then { c with minors := tset c.minors i (tget c.minors i 0 + 1) } else { major := c.major + 1, minors := [] }
      (healthy s a → s.cur.y ≠ 1 → ∃ t, exec (.dataLineWrite data mask) s = .next t ∧ counted t ∧ t.poison = s.poison.filter (fun u => u != a) ∧
        ∀ k, t.byte k = if a ≤ k ∧ k < a + 64 then (if mask.getLsbD (k - a) = true then data.extractLsb' (8 * (k - a)) 8 else if s.badAt a = true then 0 else s.byte k)
          else s.byte k) ∧
      (healthy s a → s.cur.y = 1 → ∃ t, exec (.dataLineWrite data mask) s = .next t ∧ counted t ∧ t.poison = insertSorted s.poison a) ∧
      (s.check a = .failed → ∃ t, exec (.dataLineWrite data mask) s = .next t ∧ counted t ∧ a ∈ t.poison ∧ tfind t.cipher.raw a = none)) ∧
    (∀ (data : BitVec 512) (mask : BitVec 64), isHbm (unitOf s.cur.x) = true → unitOf s.cur.x / 4096 ∈ s.cipher.badCounters →
      ∃ t, exec (.dataLineWrite data mask) s = .next t ∧ memoryKept s t ∧ t.cipher = s.cipher) ∧
    (let stack := s.cur.z / 2 ^ 30; let index := s.cur.z % 2 ^ 30
     let key := cacheKey stack (nodeKey s.cur.x s.cur.y index); let up := nodeKey s.cur.x (s.cur.y + 1) (index / 64)
     let c := tget s.cipher.nodes up Counter.zero; let i := index % 64
     key ∈ s.cipher.cached → 1 ≤ s.cur.y → s.cur.y ≤ 5 →
       (c.major = 2 ^ 64 - 1 → 127 ≤ tget c.minors i 0 → s.vox.events.length < 1024 → ∃ t, exec .nodeWriteBack s = .next t ∧ memoryKept s t ∧ t.cipher = s.cipher ∧
         t.vox.events.length = s.vox.events.length + 1) ∧
       (c.major ≠ 2 ^ 64 - 1 ∨ tget c.minors i 0 < 127 → ∃ t, exec .nodeWriteBack s = .next t ∧ t = { s with cipher := t.cipher, agenda := t.agenda } ∧
       t.cipher = { s.cipher with nodes := t.cipher.nodes, cached := t.cipher.cached } ∧
       (∀ k, k ∈ t.cipher.cached ↔ (k ∈ s.cipher.cached ∧ k ≠ key) ∨ (s.cur.y ≠ 5 ∧ k = cacheKey stack up)) ∧
       (∀ k, k ≠ up → tget t.cipher.nodes k Counter.zero = tget s.cipher.nodes k Counter.zero) ∧
       (tget c.minors i 0 < 127 → tget t.cipher.nodes up Counter.zero = { c with minors := tset c.minors i (tget c.minors i 0 + 1) }) ∧
       (127 ≤ tget c.minors i 0 → c.major ≠ 2 ^ 64 - 1 → tget t.cipher.nodes up Counter.zero = { major := c.major + 1, minors := [] }))) ∧
    (let v := s.vox; let opener := v.field 8 1; let w := winOpOf v.field
    v.busy = true → v.devstate = 2 → v.latched = some 0x22 → s.cur.x = 255 →
    let whole := fun (fs : List (Nat × Nat)) => (fs.map (fun f => f.1)).Nodup ∧
      (∀ f ∈ fs, f.1 ∉ s.cipher.badCounters ∧ ∀ x ∈ s.cipher.raw, x.1 / 4096 ≠ f.1)
    let queued := fun (t : State) => t.cipher = { s.cipher with winq := t.cipher.winq }
    -- the operations that have begun and stand; this one is the mailbox's
    let line := s.cipher.winq.filter (fun e => (e.1 = 255 && e.2.1 = 0) || s.winStands e.1 e.2.1)
    let first := line = [] ∨ ∃ r, line = (255, 0, none) :: r
    let planned := fun (p : WinPlan) => (∃ r, line = (255, 0, some p) :: r) ∨ (first ∧ (s.winCheck opener w).1 = .ok p)
    let standing := fun (m : List Nat) => m.filter (fun v => (s.vd v).present)
    (∀ i o, (i, o) ∈ [(Instr.winopen, 0), (.winrekey, 1), (.winclose, 2)] → w.op = o →
      (∀ e r, line = e :: r → e.1 ≠ 255 ∨ e.2.1 ≠ 0 → ∃ t, exec i s = .next t ∧ t = { s with cipher := t.cipher } ∧ queued t ∧
        ∃ p, (255, 0, p) ∈ t.cipher.winq) ∧
      (∀ c, first → (s.winCheck opener w).1 = .error c → ∃ t, exec i s = .next t ∧ memoryKept s t ∧ queued t ∧ mailDone t 9 c) ∧
      (∀ p, planned p → s.winQuiet p = false → ∃ t, exec i s = .next t ∧ memoryKept s t ∧ queued t ∧ t.vox.busy = true ∧
        ∃ r, t.cipher.winq = (255, 0, some p) :: r)) ∧
    (2 < w.op → first → ∃ t, exec .winopen s = .next t ∧ memoryKept s t ∧ queued t ∧ mailDone t 9 1) ∧
    (∀ k fs m c, w.op = 0 → planned (.open k fs m c) → s.winQuiet (.open k fs m c) = true → whole fs →
      ∃ t, exec .winopen s = .next t ∧ mailDone t 0 0 ∧ t.cipher.nextIdent = s.cipher.nextIdent + 1 ∧
        tfind t.cipher.windows k = some { ident := s.cipher.nextIdent, opener := opener, members := standing m, length := w.len, frames := fs } ∧
        (isHost c = false → healthy s c → number t c 8 = (256 * s.cipher.nextIdent + k) % 2 ^ 64) ∧
        (∀ j, j ≠ k → tfind t.cipher.windows j = tfind s.cipher.windows j) ∧
        (∀ i f, fs[i]? = some f → tget t.cipher.frames f.1 Frame.unowned = { kind := 2, owner := k, num := i }) ∧
        (∀ a, (∀ f ∈ fs, f.1 ≠ a) → tget t.cipher.frames a Frame.unowned = tget s.cipher.frames a Frame.unowned)) ∧
    (∀ k x m, w.op = 1 → planned (.rekey k x m) → s.winQuiet (.rekey k x m) = true → whole x.frames →
      ∃ t, exec .winrekey s = .next t ∧ memoryKept s t ∧ mailDone t 0 0 ∧ t.cipher.nextIdent = s.cipher.nextIdent ∧
        tfind t.cipher.windows k = some { x with members := standing m } ∧ (∀ j, j ≠ k → tfind t.cipher.windows j = tfind s.cipher.windows j) ∧
        (∀ i f, x.frames[i]? = some f → tget t.cipher.frames f.1 Frame.unowned = { kind := 2, owner := k, num := i } ∧
          tget t.cipher.counters f.1 Counter.zero = Counter.zero)) ∧
    (∀ k x, w.op = 2 → planned (.close k x) → s.winQuiet (.close k x) = true → whole x.frames →
      ∃ t, exec .winclose s = .next t ∧ memoryKept s t ∧ mailDone t 0 0 ∧ tfind t.cipher.windows k = none ∧
        (∀ j, j ≠ k → tfind t.cipher.windows j = tfind s.cipher.windows j) ∧ tfind t.cipher.keys (128 + k) = none ∧
        (t.vd x.opener).grant = (s.vd x.opener).grant + BitVec.ofNat 64 x.frames.length ∧
        (∀ i f, x.frames[i]? = some f → tget t.cipher.frames f.1 Frame.unowned = { kind := 1, owner := x.opener, num := f.2 } ∧
          tget t.cipher.counters f.1 Counter.zero = { major := ((s.vd x.opener).grant + BitVec.ofNat 64 i).toNat, minors := [] })))

/-- R126, R127, R361, R442 to R458: host reads and writes of device memory, snoops answered, device stores to host memory sent by deficit round robin
and performed in order, links that train, retry and fail, flits chosen by class, credit and weight, peer sends received once, convoys across modules, and slack control.
Where the spec leaves a point of these open the choice is the model's: log 17, 43, 45. -/
def Obligations.HarbourUnits : Prop :=
  ∀ s : State,
    (let vd := s.cur.x; let off := s.cur.y - s.cur.y % 64; s.inHdm vd off = true →
     -- the completion of a read: the line as it stands, or one marked poisoned
     let given := fun (t : State) (P : HostRead → Prop) => ∃ x, t.hb.hostRead = some x ∧ x.vd = vd ∧ x.off = off ∧ P x
     (∀ c e, s.place vd off false false (s.hostEntries vd) = .cell c e → let a := c - c % 64; ∃ t, exec .hostMemRead s = .next t ∧ memoryKept s t ∧
       t.hb = { s.hb with hostLines := insertSorted s.hb.hostLines a, hostRead := t.hb.hostRead, entries := t.hb.entries } ∧ (vd, e) ∈ t.hb.entries ∧
       given t (fun x => x.poison = (s.viewBad a || s.viewBad (a + 32)) ∧
         (x.poison = false → ∀ k, k < 64 → x.data.extractLsb' (8 * k) 8 = s.viewByte (a + k))) ∧
       t.agenda = if isHbm c = true then .event .dataLineRead c 0 0 :: s.agenda else s.agenda) ∧
     ((∀ c e, s.place vd off false false (s.hostEntries vd) ≠ .cell c e) → (∀ w c, s.place vd off false false (s.hostEntries vd) ≠ .window w c) →
       ∃ t, exec .hostMemRead s = .next t ∧ memoryKept s t ∧ t.hb.hostLines = s.hb.hostLines ∧ given t (fun x => x.poison = true)) ∧
     (∀ (data : BitVec 512) (mask : BitVec 64),
       (∀ c e, s.place vd off true false (s.hostEntries vd) = .cell c e → isHbm c = true → ∃ t, exec (.hostMemWrite data mask) s = .next t ∧
         t = { s with hb := { s.hb with hostLines := s.hb.hostLines.filter (fun a => a != c - c % 64), entries := t.hb.entries },
                      agenda := .event (.dataLineWrite data mask) c 0 0 :: s.agenda }) ∧
       (∀ c e, s.place vd off true false (s.hostEntries vd) = .cell c e → isHbm c = false → isHost c = true →
         ∃ t q, exec (.hostMemWrite data mask) s = .next t ∧ memoryKept s t ∧ (t.vd vd).cxlq = (s.vd vd).cxlq ++ [q] ∧ q.addr = c - c % 64 ∧
           q.poison = false ∧ q.sent = false ∧ q.data = maskedBytes data mask 64) ∧
       (∀ k, s.place vd off true false (s.hostEntries vd) = .fault k 0 → s.vox.events.length < 1024 → ∃ t, exec (.hostMemWrite data mask) s = .next t ∧ memoryKept s t ∧
         eventLast t 2 0x16 vd [BitVec.ofNat 64 off]))) ∧
    (let a := s.cur.x - s.cur.x % 64; a ∈ s.hb.snoops → ∃ t, exec .backInvalidateResponse s = .next t ∧
      t = { s with hb := { s.hb with snoops := s.hb.snoops.filter (fun l => l != a), hostLines := s.hb.hostLines.filter (fun l => l != a) } }) ∧
    (let cur := s.hb.lastCxl; let ready := (s.vds.filter (fun x => x.2.cxlWaiting)).map (fun x => x.1)
     let sends := fun (v : Nat) => ∀ l q r, (s.vd v).cxlq = l ++ q :: r → (∀ x ∈ l, x.sent = true) → q.sent = false → ∃ t, exec .cxlCacheRequest s = .next t ∧ memoryKept s t ∧
       t.hb = { s.hb with lastCxl := v } ∧ (t.vd v).cxlq = l ++ { q with sent := true } :: r ∧ (∀ u, u ≠ v → (t.vd u).cxlq = (s.vd u).cxlq) ∧
       (t.vd v).cxlDeficit = (s.vd v).cxlDeficit + (if cur ∈ ready ∧ 0 < (s.vd cur).cxlDeficit then 0 else ((s.vd v).q.peer : Int)) - 1
     (cur ∈ ready → 0 < (s.vd cur).cxlDeficit → sends cur) ∧
     (∀ v, ¬ (cur ∈ ready ∧ 0 < (s.vd cur).cxlDeficit) → nextAfter ready cur 96 = some v → sends v)) ∧
    (∀ l q r, (s.vd s.cur.x).cxlq = l ++ q :: r → (∀ x ∈ l, x.sent = false) → q.sent = true →
      (s.olderCxl q = true → exec .cxlCacheCompletion s = .next s) ∧
      (s.olderCxl q = false → isHbm q.addr = false → s.lost q.addr = false → q.poison = false → ∃ t, exec .cxlCacheCompletion s = .next t ∧ (t.vd s.cur.x).cxlq = l ++ r ∧
        ∀ k, t.byte k = if q.addr ≤ k ∧ k < q.addr + q.data.length then
          (q.data[k - q.addr]?.getD none).getD (if s.badAt q.addr = true then 0 else s.byte k) else s.byte k)) ∧
    (let i := s.cur.x; let p := s.port i; let now := s.chron.toNat
     let onPort := fun (e : Instr) (q : Port) => ∃ t, exec e s = .next t ∧ t = { s with hb := { s.hb with ports := t.hb.ports } } ∧ t.port i = q ∧ ∀ j, j ≠ i → t.port j = s.port j
     (∀ f, p.up = true → p.accepts f = false → onPort (.linkRetry f) { p with askRetry := true }) ∧
     (∀ f, p.accepts f = true → f.typ = 0 ∨ f.typ = 5 → ∃ q, onPort (.linkRetry f) q ∧ q.expect = (p.expect + 1) % 4096 ∧ q.acked = f.ack ∧ q.queues = p.queues ∧
       (∀ g, g ∈ q.replay ↔ g ∈ p.replay ∧ 512 ≤ (f.ack + 4096 - g.seq) % 4096) ∧ (f.retry = true → q.resend = q.replay) ∧
       q.credit f.creditVc = min 32 (p.credit f.creditVc + f.credits)) ∧
     (p.up = true → p.replay ≠ [] → p.lastAck + 2000 ≤ now → onPort .retryTimeout { p with resend := p.replay, retries := p.retries + 1, lastAck := now }) ∧
     (i < 8 → p.up = false → s.vox.devstate = 2 → let far := s.cur.y % 2 ^ 64; ∃ t, exec .burbexPortUp s = .next t ∧
       t = { s with hb := { s.hb with ports := t.hb.ports, unretired := s.hb.unretired.map (fun e =>
         if e.port = i ∧ e.status = 255 then { e with module := far } else e) } } ∧
       t.port i = { Port.down with up := true, far := far, queues := p.queues, lastAck := now } ∧ ∀ j, j ≠ i → t.port j = s.port j) ∧
     (p.up = true → 8 ≤ p.retries → s.vox.events.length < 1024 → ∃ t, exec .burbexPortDown s = .next t ∧ memoryKept s t ∧ eventLast t 2 0x21 255 [BitVec.ofNat 64 i] ∧
       (t.port i).up = false ∧ (t.port i).replay = [] ∧ ∀ vc, tget (t.port i).queues vc [] =
         p.replay.filter (fun f => f.typ != 0 && f.typ != 5 && f.vc == vc) ++ tget p.queues vc []) ∧
     (p.up = true →
       (∀ f r, p.resend = f :: r → onPort .flitSelect { p with resend := r, askRetry := false }) ∧
       (p.resend = [] → 512 ≤ p.replay.length → onPort .flitSelect { p with askRetry := false }) ∧
       (p.resend = [] → p.replay.length < 512 → p.askRetry = true → ∃ q g, onPort .flitSelect q ∧ q.replay = p.replay ++ [g] ∧ g.retry = true ∧
         g.ack = (p.expect + 4095) % 4096 ∧ (0 < p.credit 25 → g.typ = 5 ∧ g.vc = 25 ∧ q.credit 25 = p.credit 25 - 1) ∧ (p.credit 25 = 0 → g.typ = 0)) ∧
       (p.resend = [] → p.replay.length < 512 → p.askRetry = false →
         let goes := fun (vc : Nat) (P : Port → Prop) => ∀ f r, tget p.queues vc [] = f :: r → ∃ q g, onPort .flitSelect q ∧ q.replay = p.replay ++ [g] ∧
           g = { f with seq := p.sendSeq, ack := (p.expect + 4095) % 4096, retry := false, credits := g.credits, creditVc := g.creditVc, crc := crc64 (flitBody g) } ∧ q.sendSeq = (p.sendSeq + 1) % 4096 ∧
           tget q.queues vc [] = r ∧ q.credit vc = p.credit vc - 1 ∧ P q
         let may := fun (vc : Nat) => p.ready vc && p.inBudget vc; let l := (List.range 24).filter p.ready
         (may 24 = true → goes 24 (fun _ => True)) ∧ (may 24 = false → may 25 = true → goes 25 (fun _ => True)) ∧
         (may 24 = false → may 25 = false → (p.last ∈ l → 0 < tget p.deficits p.last 0 →
             goes p.last (fun q => tget q.deficits p.last 0 = tget p.deficits p.last 0 - 1 ∧ q.last = p.last)) ∧
           ∀ vc, ¬ (p.last ∈ l ∧ 0 < tget p.deficits p.last 0) → nextAfter l p.last 24 = some vc → goes vc (fun q => q.last = vc)))) ∧
     -- packets of other modules
     (∀ f, p.accepts f = true → let far := p.far
       let answer := fun (t : State) (vc : Nat) (P : Flit → Prop) => ∃ g, tget (t.port i).queues vc [] = tget p.queues vc [] ++ [g] ∧ g.vc = vc ∧ P g
       (f.typ = 1 → let known := s.hb.received.find? (fun e => decide (e.module = far) && decide (e.vc = f.vc) && decide (e.tag = f.tag))
         let record := fun (status : Nat) (g : Flit) => g.typ = 2 ∧ g.dst = f.src ∧ g.src = f.dst ∧ g.recs = [{ tag := f.tag, op := status, step := 0, phase := 0 }]
         (∀ e, known = some e → ∃ t, exec (.peerSend f) s = .next t ∧ memoryKept s t ∧ t.hb.received = s.hb.received ∧ answer t f.vc (record e.status)) ∧
         (known = none → s.rejects i f ≠ 0 → ∃ t, exec (.peerSend f) s = .next t ∧ memoryKept s t ∧ (t.vd f.dst).hprej = (s.vd f.dst).hprej + 1 ∧
           t.hb.received = s.hb.received ++ [{ module := far, vc := f.vc, tag := f.tag, status := s.rejects i f }] ∧ answer t f.vc (record (s.rejects i f))) ∧
         (∀ g m c e, known = none → s.rejects i f = 0 → f.grans = [g] → f.masks = [m] → m ≠ 0 → s.place f.dst ((s.vd f.dst).recvBase + f.off) true false [] = .cell c e → isHost c = false → healthy s c →
           ∃ t, exec (.peerSend f) s = .next t ∧ (t.vd f.dst).hprecv = (s.vd f.dst).hprecv + 1 ∧
             t.hb.received = s.hb.received ++ [{ module := far, vc := f.vc, tag := f.tag, status := 0 }] ∧ answer t f.vc (record 0) ∧
             ∀ k, t.byte k = if c ≤ k ∧ k < c + 32 then (if m.getLsbD (k - c) = true then g.extractLsb' (8 * (k - c)) 8 else if s.badAt c = true then 0 else s.byte k) else s.byte k) ∧
         (∀ g m c e, known = none → s.rejects i f = 0 → f.grans = [g] → f.masks = [m] → m ≠ 0 → s.place f.dst ((s.vd f.dst).recvBase + f.off) true false [] = .cell c e → isHost c = true →
           ∃ t q, exec (.peerSend f) s = .next t ∧ memoryKept s t ∧ answer t f.vc (record 0) ∧ (t.vd f.dst).cxlq = (s.vd f.dst).cxlq ++ [q] ∧ q.addr = c ∧ q.poison = false ∧
             q.data.length = 32 ∧ ∀ k, k < 32 → q.data[k]? = some (if m.getLsbD k = true then some (g.extractLsb' (8 * k) 8) else none))) ∧
       (∀ k, f.typ = 2 → f.recs = [k] → (∃ e ∈ s.hb.unretired, e.module = far ∧ e.tag = k.tag ∧ e.status = 255) → ∃ t, exec (.peerCompletion f) s = .next t ∧ memoryKept s t ∧
         t.hb.unretired = s.hb.unretired.map (fun e => if e.module = far ∧ e.tag = k.tag then { e with status := k.op } else e) ∧
         (t.vd (tagVd k.tag)).hpsent = (s.vd (tagVd k.tag)).hpsent + (if k.op = 0 then 1 else 0) ∧ (t.vd (tagVd k.tag)).hpnak = (s.vd (tagVd k.tag)).hpnak + (if k.op = 0 then 0 else 1) ∧
         t.agenda = if s.tagHeld k.tag = true then s.agenda else .event .suppressionRetire (tagVd k.tag) k.tag 0 :: s.agenda) ∧
       (f.typ = 4 → ∃ t, exec (.peerRetire f) s = .next t ∧ memoryKept s t ∧ ∀ e, e ∈ t.hb.received ↔ e ∈ s.hb.received ∧ ¬ (e.module = far ∧ ∃ k ∈ f.recs, k.tag = e.tag)) ∧
       -- a tag that was answered before: the same again, or a mismatch
       (∀ k e, f.typ = 3 → s.cur.y ≠ 1 → f.recs = [k] → k.op < 5 →
         s.hb.received.find? (fun e => decide (e.module = far) && decide (e.vc = 24) && decide (e.tag = k.tag)) = some e →
         (e.what = convoyWhat k.op k.phase → ∃ t, exec (.convoyFlit f) s = .next t ∧ memoryKept s t ∧ (t.vd f.dst).convoys = (s.vd f.dst).convoys ∧
           answer t 24 (fun g => g.typ = 3 ∧ g.recs = [{ tag := k.tag, op := e.status % 256, step := e.status / 256 % 256, phase := e.status / 65536 }])) ∧
         (e.what ≠ convoyWhat k.op k.phase → ∃ t, exec (.convoyFlit f) s = .next t ∧ memoryKept s t ∧ (t.vd f.dst).convoys = (s.vd f.dst).convoys ∧
           t.hb.received = s.hb.received ∧ t.agenda = .event .quarantine f.dst 2 0 :: s.agenda)) ∧
       (∀ k, f.typ = 3 → s.cur.y ≠ 1 → f.recs = [k] → (s.vd f.dst).present = true → s.sharesChannel f.dst far (tagVd k.tag) = true → (∀ e ∈ s.hb.received, ¬ (e.module = far ∧ e.vc = 24 ∧ e.tag = k.tag)) →
         let m := remoteMember far k.tag; let vd := f.dst; let c := k.phase
         let reply := fun (t : State) (op step phase : Nat) => answer t 24 (fun g => g.typ = 3 ∧ g.src = vd ∧ g.dst = tagVd k.tag ∧ g.recs = [{ tag := k.tag, op := op, step := step, phase := phase }])
         let run := fun (P : State → Prop) => ∃ t, exec (.convoyFlit f) s = .next t ∧ memoryKept s t ∧ P t
         (k.op = 1 → s.convoy vd c = none → (s.vd vd).convoys.length < 256 → run (fun t => t.convoy vd c = some (Convoy.create m) ∧ reply t 6 0 0)) ∧
         (∀ v, s.convoy vd c = some v →
           (k.op = 1 → m ∉ v.later → v.later.length < 4096 → run (fun t => t.convoy vd c = some { v with later := v.later ++ [m] } ∧ reply t 6 0 0)) ∧
           (k.op = 2 → m ∈ v.later → m ∈ v.members → m ∉ v.arrived → run (fun t => t.convoy vd c = some (v.arrive m now) ∧ reply t 6 0 0)) ∧
           (∀ d, k.op = 3 → v.done.find? (fun x => x.1 = m) = some (m, d) → (v.phase = d → run (fun t => t.convoy vd c = some { v with waits := v.waits.filter (fun w => w.1 != m) ++ [(m, k.tag, i)] })) ∧
             (v.phase ≠ d → run (fun t => t.convoy vd c = some { v with done := v.done.filter (fun y => y.1 != m) } ∧ reply t 5 (v.stepOf (moduleOf m)) d.toNat))) ∧
           (∀ ph, k.op = 3 → v.done.find? (fun x => x.1 = m) = none → (s.vd vd).endedArrival c m = some ph → run (fun t => t.convoy vd c = some v ∧
             reply t 5 0 ph.toNat ∧ (t.vd vd).endedArrival c m = none)) ∧
           (k.op = 4 → m ∈ v.later → (v.waits = [] ∨ (v.leave m now).later ≠ []) → run (fun t => reply t 6 0 0 ∧ (if (v.leave m now).later = [] then t.convoy vd c = none else t.convoy vd c = some (v.leave m now)))))) ∧
       (∀ k, f.typ = 3 → f.recs = [k] → 5 ≤ k.op → ∃ t, exec (.phaseReleaseRecord f) s = .next t ∧ memoryKept s t ∧
         -- a release brings its step where it is newer than the one in force for the convoy
         (let asked := s.hb.unretired.find? (fun e => decide (e.module = far) && decide (e.tag = k.tag) && decide (e.vc = 24))
          (asked = none → (t.vd f.dst).steps = (s.vd f.dst).steps ∧ t.regions = s.regions) ∧
          (∀ e, asked = some e → let key := farConvoy e.va; let old := tget (s.vd f.dst).steps key (0, 0)
            (k.op = 5 → old = (0, 0) → tget (t.vd f.dst).steps key (0, 0) = (k.step, k.phase + 1)) ∧
            (k.op = 5 → old.2 = k.phase + 1 → (t.vd f.dst).steps = (s.vd f.dst).steps) ∧ (k.op = 6 → (t.vd f.dst).steps = (s.vd f.dst).steps) ∧
            (∀ x l, k.op = 6 → k.step = 0 → e.flit.recs = x :: l → t.regions = s.regions.map (fun r =>
              if r.vd = f.dst ∧ r.ownsTag k.tag = true then r.answered x.op e.va else r)))) ∧
         ∀ n, (t.pilot n).pend = (s.pilot n).pend.map (fun a => if a.isConvoy = true ∧ a.tag = k.tag then { a with fault := true, data := BitVec.ofNat 64 (k.phase + k.step * 2 ^ 32) } else a)))) ∧
    (∀ v, let vd := s.cur.x; let c := s.cur.y; let m := s.cur.z; s.convoy vd c = some v → v.waits = [] → let k := tget v.slacks m { high := 0, low := 0, step := 0, latest := 0 }
      let P := v.period - 1; let S := v.lastDone - k.latest
      let hi := if P ≤ 4 * S then k.high + 1 else 0; let lo := if P ≤ 4 * S then 0 else if 16 * S ≤ P then k.low + 1 else 0
      ∃ t q, exec .slackUpdate s = .next t ∧ memoryKept s t ∧ t.convoy vd c = some q ∧ q = { v with slacks := q.slacks } ∧
        tget q.slacks m { high := 0, low := 0, step := 0, latest := 0 } = (if v.period = 0 then k else
          { k with high := if hi = 2 ∧ k.step < 15 then 0 else hi, low := if lo = 2 ∧ 0 < k.step then 0 else lo,
                   step := if hi = 2 ∧ k.step < 15 then k.step + 1 else if lo = 2 ∧ 0 < k.step then k.step - 1 else k.step }) ∧
        (m = 0 → tget (t.vd vd).steps c (0, 0) = ((tget q.slacks m { high := 0, low := 0, step := 0, latest := 0 }).step, v.phase.toNat))) ∧
    (s.cur.x = 0 → exec .doeRequest s = .next { s with hb := { s.hb with spdm := some s.chain } }) ∧
    (s.cur.x = 1 → exec .doeRequest s = .next { s with hb := { s.hb with ide := true } })

/-! ### The Voxkan controller -/

/-- R18, R155, R166, R402, R418, R419, R442, R444, R446, R449, R450, R456, R457, R462 to R469, R471, R472, R474, R477, R478, R481, R485 to R487, R489: the management
commands, each with the status of its refusals and what it leaves, and reset.
Where the spec leaves a point of these open the choice is the model's: log 6, 10, 23, 33, 41, 42. -/
def Obligations.ManagementCommands : Prop :=
  ∀ s : State,
    let f := s.vox.field; let vd := f 8 1; let d := s.vd vd
    let given := fun op => s.vox.busy = true ∧ s.vox.latched = some op ∧ (s.vox.devstate ≠ 3 ∨ op = 1)
    let ends := fun (i : Instr) (status detail : Nat) (P : State → Prop) => ∃ t, exec i s = .next t ∧ mailDone t status detail ∧ P t
    let refused := fun (i : Instr) (status : Nat) => ends i status 0 (fun t => memoryKept s t ∧ t.vds = s.vds ∧ t.cipher = s.cipher ∧ t.regions = s.regions)
    let vdNow := fun (i : Instr) (P : Vd → Prop) => ends i 0 0 (fun t => memoryKept s t ∧ P (t.vd vd) ∧ ∀ v, v ≠ vd → t.vd v = s.vd v)
    let voxNow := fun (i : Instr) (P : Voxkan → Prop) => ends i 0 0 (fun t => memoryKept s t ∧ t.vds = s.vds ∧ P t.vox)
    let gives := fun (i : Instr) (l : List Byte) => ends i 0 0 (fun t => memoryKept s t ∧
      ∀ k, 8 * k < l.length → mailResult t k = BitVec.ofNat 64 (numberOf ((l.drop (8 * k)).take 8)))
    (let fw := s.vox.fw.boot
     ∃ t, exec .reset s = .next t ∧ t.vds = [] ∧ t.regions = [] ∧ t.pilots = [] ∧ t.elems = [] ∧ t.edges = [] ∧ t.cipher = Cipher.reset ∧ t.hb = Harbour.reset ∧
       t.chron = 0 ∧ t.strips = Vector.replicate 24 255 ∧ t.harvest = s.harvest ∧ t.vox.devstate = (if fw.good = true ∧ fw.floor ≤ fw.sec then 2 else 1) ∧
       t.vox.fw = fw ∧ t.vox.attestKey = s.vox.attestKey + 1 ∧ t.vox.busy = false ∧ ∀ k, k < 2 ^ 60 → t.byte k = if isHost k = true then memGet s.mem k else 0) ∧
    (given 0x01 → gives .resync s.summary) ∧
    (given 0x02 → let v := f 0x28 1; let nonce := (List.range 32).map (fun i => BitVec.ofNat 8 (f (8 + i) 1)); let h := s.attestHead v nonce
      (96 ≤ v → v ≠ 255 → refused .attest 1) ∧ (v < 96 → (s.vd v).present = false → refused .attest 2) ∧
      (v < 96 → (s.vd v).present = true → (s.vd v).quarantined = true → refused .attest 8) ∧
      ((v < 96 ∧ (s.vd v).present = true ∧ (s.vd v).quarantined = false) ∨ v = 255 →
        gives .attest (h ++ (Config.rsaSign s.vox.attestKey (Config.sha512 h)).take 512))) ∧
    (given 0x03 → let a := f 0x10 8; let n := f 0x18 4; let img := s.bytes (hostBase + a) n; let h := Config.imageHeader img
      (2 ^ 45 < a + n → refused .fwstage 1) ∧
      (a + n ≤ 2 ^ 45 → Config.rsaVerify img (Config.sha512 img) = false → refused .fwstage 4) ∧
      (a + n ≤ 2 ^ 45 → Config.rsaVerify img (Config.sha512 img) = true → (h.2 < s.vox.fw.floor → refused .fwstage 6) ∧
        (s.vox.fw.floor ≤ h.2 → voxNow .fwstage (fun v => v.fw = { s.vox.fw with staged := some (Config.sha512 img, h.1, h.2), activate := false })))) ∧
    (given 0x04 → (s.vox.fw.staged = none → refused .fwactivate 5) ∧ (s.vox.fw.staged ≠ none → voxNow .fwactivate (fun v => v.fw = { s.vox.fw with activate := true }))) ∧
    (given 0x10 → let part := f 9 1; let flags := f 0xA 1; let hdm := f 0xC 4; let size := f 0x10 8; let q := s.vox.quotas; let n := (s.partStrips part).length
      (s.change ≠ none → refused .vdcreate 5) ∧
      (s.change = none → 24 ≤ part ∨ s.partOf part ≠ part ∨ 4 ≤ flags ∨ hdm < 1 ∨ 2 ^ 20 < hdm ∨ size % 0x10000 ≠ 0 ∨ q.ok n = false → refused .vdcreate 1) ∧
      (s.change = none → part < 24 → s.partOf part = part → flags < 4 → 1 ≤ hdm → hdm ≤ 2 ^ 20 → size % 0x10000 = 0 → q.ok n = true →
        (s.quotaRoom part vd q = false → refused .vdcreate 3) ∧ (size < areaSize (2 * n) (decide (flags % 2 = 1)) q.tarns q.quarters → flags < 2 → refused .vdcreate 3) ∧
        ∀ base, s.quotaRoom part vd q = true → areaSize (2 * n) (decide (flags % 2 = 1)) q.tarns q.quarters ≤ size ∨ 2 ≤ flags →
          areaPlace (s.partStrips part) size s.hbmTaken = some base →
          ends .vdcreate 0 0 (fun t => memoryKept s t ∧ (∀ v, v ≠ vd → t.vd v = s.vd v) ∧ (tfind t.cipher.keys vd).isSome = true ∧ let x := t.vd vd
            x.present = true ∧ x.part = part ∧ x.hdm = hdm ∧ x.saveBase = base ∧ x.saveSize = size ∧ x.spill = decide (flags % 2 = 1) ∧ x.q = q ∧ x.grant = 1 ∧
              x.guest = 0 ∧ x.stolen = 0 ∧ x.resident = false ∧ x.root = none ∧ x.saves = [] ∧ x.routes = []))) ∧
    (given 0x11 → ends .vddestroy 0 0 (fun t => memoryKept s t ∧ t.vd vd = { Vd.absent with log := ((s.log vd 0x0F []).vd vd).log.rest s.chron } ∧ (∀ v, v ≠ vd → t.vd v = s.vd v) ∧ (∀ q ∈ t.regions, q.vd ≠ vd) ∧
      tfind t.cipher.keys vd = none)) ∧
    (given 0x12 → let q := s.vox.quotas
      (q.ok (s.partStrips d.part).length = false → refused .vdquota 1) ∧
      (q.ok (s.partStrips d.part).length = true → q.frames < (s.framesOf vd).length ∨ s.quotaRoom d.part vd q = false → refused .vdquota 3) ∧
      (q.ok (s.partStrips d.part).length = true → (s.framesOf vd).length ≤ q.frames → (if d.resident = true then d.quarters.length else 0) ≤ q.quarters →
        (if d.resident = true then 16 * (s.partStrips d.part).length * d.layers.length else 0) ≤ q.tarns → s.quotaRoom d.part vd q = true →
        vdNow .vdquota (fun x => x = { d with nextQ := some q }))) ∧
    (given 0x13 → let a := f 0x10 8
      (a % 65536 ≠ 0 ∨ isHbm a = false → refused .vdroot 1) ∧
      (a % 65536 = 0 → isHbm a = true → (let t := s.invalidate vd 0 (2 ^ 52); t.drainedOld vd t.cmdNo = true) → vdNow .vdroot (fun x => x = { d with root := some a }))) ∧
    (given 0x14 → let first := f 0x10 8; let n := f 0x18 4; let l := (List.range n).map (fun i => first + i)
      let own := fun (t : State) k => (tget t.cipher.frames k Frame.unowned).kind = 1 ∧ (tget t.cipher.frames k Frame.unowned).owner = vd
      (f 9 1 = 0 → first + n ≤ hbmEnd / 4096 → (∀ k ∈ l, s.frameIn vd k = true) → (∀ k ∈ l, (tget s.cipher.frames k Frame.unowned).kind = 0) →
        (s.framesOf vd).length + n ≤ d.q.frames → ends .framesGrant 0 0 (fun t => (∀ k ∈ l, own t k) ∧ (t.vd vd).grant = d.grant + BitVec.ofNat 64 n ∧
          (∀ i, i < n → tget t.cipher.counters (first + i) Counter.zero = { major := (d.grant + BitVec.ofNat 64 i).toNat, minors := [] }) ∧
          ∀ b, t.byte b = if 4096 * first ≤ b ∧ b < 4096 * (first + n) then 0 else s.byte b)) ∧
      (f 9 1 = 0 → (hbmEnd / 4096 < first + n ∨ ∃ k ∈ l, s.frameIn vd k = false) → refused .framesGrant 1) ∧
      (f 9 1 = 0 → first + n ≤ hbmEnd / 4096 → (∀ k ∈ l, s.frameIn vd k = true) → (∃ k ∈ l, (tget s.cipher.frames k Frame.unowned).kind ≠ 0) ∨
        d.q.frames < (s.framesOf vd).length + n → refused .framesGrant 3) ∧
      (f 9 1 = 1 → first + n ≤ hbmEnd / 4096 → (∀ k ∈ l, own s k) → ends .framesRelease 0 0 (fun t => memoryKept s t ∧ t.vds = s.vds ∧
        (∀ k ∈ l, tget t.cipher.frames k Frame.unowned = Frame.unowned) ∧ ∀ k, k ∉ l → tget t.cipher.frames k Frame.unowned = tget s.cipher.frames k Frame.unowned)) ∧
      (f 9 1 = 1 → first + n ≤ hbmEnd / 4096 → (∃ k ∈ l, ¬ own s k) → refused .framesRelease 5) ∧
      (1 < f 9 1 ∨ (f 9 1 = 1 ∧ hbmEnd / 4096 < first + n) → refused .framesRelease 1)) ∧
    (given 0x15 → let i := f 9 1; let base := f 0x10 8; let len := f 0x18 8; let bad := 15 < i ∨ base % 4096 ≠ 0 ∨ len % 4096 ≠ 0 ∨ 2 ^ 45 < base + len ∨ 1 < f 0x20 1
      (bad → refused .hostrange 1) ∧ (¬ bad → vdNow .hostrange (fun x => x = { d with hostRanges := x.hostRanges } ∧
        tfind x.hostRanges i = (if f 0x20 1 = 1 then some (base, len) else none) ∧ ∀ j, j ≠ i → tfind x.hostRanges j = tfind d.hostRanges j))) ∧
    (given 0x16 → let r := f 9 1; let new : Route := { port := f 0xA 1, vc := f 0xB 1, remote := f 0xC 1 }
      let bad := 15 < r ∨ 7 < new.port ∨ 23 < new.vc ∨ 95 < new.remote ∨ 1 < f 0xD 1
      (bad → refused .route 1) ∧ (¬ bad → vdNow .route (fun x => x = { d with routes := x.routes } ∧
        tfind x.routes r = (if f 0xD 1 = 1 then some new else none) ∧ ∀ j, j ≠ r → tfind x.routes j = tfind d.routes j))) ∧
    (given 0x17 → let base := f 0x10 8; let pages := f 0x18 4
      (addrOk base 4096 = false ∨ 2 ^ 28 ≤ pages → refused .recvrange 1) ∧
      (addrOk base 4096 = true → pages < 2 ^ 28 → vdNow .recvrange (fun x => x = { d with recvBase := base, recvPages := pages }))) ∧
    (given 0x18 → let i := f 9 1; let bad := 15 < i ∨ 15 < f 0xA 1 ∨ 1 < f 0x10 1
      (bad → refused .peerconvoy 1) ∧ (¬ bad → vdNow .peerconvoy (fun x => x = { d with peers := x.peers } ∧
        tfind x.peers i = (if f 0x10 1 = 1 then some { route := f 0xA 1, locId := f 0xC 2, homeId := f 0xE 2 } else none) ∧ ∀ j, j ≠ i → tfind x.peers j = tfind d.peers j))) ∧
    (given 0x19 → vdNow .vdresume (fun x => x.quarantined = false ∧ (d.quarantined = false → x = d))) ∧
    (given 0x1A → let room := f 0x28 4; let sound := f 0x10 8 + f 0x18 4 ≤ 2 ^ 45 ∧ f 0x20 8 + room ≤ 2 ^ 45; let chain := s.bytes (hostBase + f 0x10 8) (f 0x18 4)
      let idle := (∀ r ∈ s.regions, r.vd ≠ vd) ∧ s.change = none ∧ ∀ w ∈ s.cipher.windows, w.2.opener ≠ vd
      (¬ sound → refused .vdexport 1) ∧ (sound → ¬ idle → refused .vdexport 5) ∧ (sound → idle → Config.chainModule chain = none → refused .vdexport 4) ∧
      (∀ m, sound → idle → Config.chainModule chain = some m →
        let t0 := (if d.resident = true then s.dismiss vd else s).log vd 0x0C [1, BitVec.ofNat 64 m]
        -- what fails its check as it is read raises its event; the package is signed by the attestation key
        let t1 := (t0.failingLines vd).foldl (fun u a => u.afterRead a) t0
        let body := Config.sealPackage chain t1.draws (t1.package vd); let p := body ++ (Config.rsaSign s.vox.attestKey (Config.sha512 body)).take 512
        (room < p.length → refused .vdexport 3) ∧
        (p.length ≤ room → ends .vdexport 0 p.length (fun t => t.vd vd = { Vd.absent with log := (t.vd vd).log } ∧ t.vox.exported = (p, m, t1.package vd) :: s.vox.exported ∧ tfind t.cipher.keys vd = none ∧
          ∀ k, k < p.length → t.byte (hostBase + f 0x20 8 + k) = p[k]?.getD 0)))) ∧
    (given 0x1B → let sound := f 0x10 8 + f 0x18 4 ≤ 2 ^ 45; let package := s.unpack (s.bytes (hostBase + f 0x10 8) (f 0x18 4))
      (¬ sound → refused .vdimport 1) ∧ (sound → package = none → refused .vdimport 4) ∧
      (∀ x m base, sound → package = some (x, m) → x.lines = [] → let part := (lget x.create 1 0).toNat / 256 % 256
        s.change = none → s.partOf part = part → s.quotaRoom part vd x.q = true →
        areaPlace (s.partStrips part) x.area s.hbmTaken = some base → ends .vdimport 0 0 (fun t => (tfind t.cipher.keys vd).isSome = true ∧
          (x.saves = [] → (lget x.create 1 0).toNat / 65536 % 2 = 0 → memoryKept s t) ∧
          let y := t.vd vd; y.present = true ∧ y.resident = false ∧ y.migrating = false ∧ y.saveBase = base ∧ y.saveSize = x.area ∧ y.root = none ∧ y.graphs = [] ∧ y.grant = 1 ∧
            y.guest = x.guest ∧ y.stolen = x.stolen ∧ y.part = part ∧ y.q = x.q ∧ y.create = x.create ∧ y.saves = x.saves))) ∧
    (given 0x1C → let a := f 0x10 8
      (2 ^ 45 < a + 512 → refused .vddumpkey 1) ∧ (a + 512 ≤ 2 ^ 45 → vdNow .vddumpkey (fun x => x = { d with dumpKey := some (numberOf (s.bytes (hostBase + a) 512)) }))) ∧
    (given 0x20 →
      (∀ m firsts a, s.change = some (m, firsts, a) → (∀ v ∈ s.touched m firsts, (s.vd v).resident = false ∧ ∀ r ∈ s.regions, r.vd ≠ v) →
        ends .partition 0 0 (fun t => (a = [] → memoryKept s t) ∧ t.change = none ∧ (∀ k, k < 24 → vg t.strips k 255 = lget m k 255) ∧
          (∀ v ∈ s.touched m firsts, (t.vd v).part = s.newPart firsts v) ∧
          ((a.map (fun x => x.1)).Nodup → ∀ v ∈ s.touched m firsts, ∀ b n, a.find? (fun x => x.1 = v) = some (v, b, n) → (t.vd v).saveBase = b ∧ (t.vd v).saveSize = n))) ∧
      (s.change = none → let m := (List.range 24).map (fun k => f (8 + k) 1); let firsts := (List.range 96).map (fun k => f (0x20 + k) 1)
        let fields := (∀ p ∈ m, p < 24 ∨ p = 255) ∧ (∀ p ∈ firsts, p = 255 ∨ lget m p 255 = p) ∧
          ∀ x ∈ s.vds, x.2.present = true → lget m (s.newPart firsts x.1) 255 = s.newPart firsts x.1
        (¬ fields → refused .partition 1) ∧ (fields → stripsOk m = false → refused .partition 5) ∧
        (fields → stripsOk m = true → s.changeAreas m firsts = none ∨ s.sharesFit m firsts = false → refused .partition 3) ∧
        (∀ areas, fields → stripsOk m = true → s.changeAreas m firsts = some areas → s.sharesFit m firsts = true → ∃ t, exec .partition s = .next t ∧ memoryKept s t ∧
          t.change = some (m, firsts, areas) ∧ t.strips = s.strips ∧ t.vox = s.vox ∧ ∀ v ∈ s.touched m firsts, (t.vd v).switching = (s.vd v).resident))) ∧
    (given 0x23 → let c := f 0xA 2
      (s.convoy vd c = none → refused .slack 1) ∧ (∀ v, s.convoy vd c = some v → (1 < f 0xC 1 → refused .slack 1) ∧
        (f 0xC 1 ≤ 1 → ends .slack 0 0 (fun t => memoryKept s t ∧ ∃ k, t.convoy vd c = some k ∧ k = { v with slackOn := decide (f 0xC 1 = 1), seeded := false, slacks := k.slacks })))) ∧
    (given 0x30 → let a := f 0x10 8; let room := f 0x18 4; let l := d.log.closeBatch s.chron; let r := s.batchBytes vd room l.batches
      (2 ^ 45 < a + room → refused .logread 1) ∧
      (a + room ≤ 2 ^ 45 → ends .logread 0 r.1.length (fun t => (t.vd vd).log.batches = r.2 ∧ (∀ v, v ≠ vd → t.vd v = s.vd v) ∧
        ∀ k, t.byte k = if hostBase + a ≤ k ∧ k < hostBase + a + r.1.length then r.1[k - (hostBase + a)]?.getD 0 else s.byte k))) ∧
    (given 0x31 → let a := f 0x10 8; let n := f 0x18 4; let good := a % 64 = 0 ∧ (∃ k, k < 9 ∧ n = 256 * 2 ^ k) ∧ a + 64 * n ≤ 2 ^ 45 ∧ f 0x1C 1 ≤ 1
      (¬ good → refused .eventring 1) ∧ (good → voxNow .eventring (fun v => v.ring = some (a, n, decide (f 0x1C 1 = 1))))) ∧
    (given 0x32 → let a := f 0x10 8; let n := f 0x18 8; let good := a % 4096 = 0 ∧ 2 ^ 24 ≤ n ∧ a + n ≤ 2 ^ 45
      (¬ good → refused .dumparea 1) ∧ (good → voxNow .dumparea (fun v => v.dump = some (a, n)))) ∧
    (given 0x33 → voxNow .watchdog (fun v => v.watchdog = f 0x10 4)) ∧
    (given 0x34 → let cap := f 0x10 4; let n := f 0x14 4; let good := 1000 ≤ cap ∧ cap ≤ 3200 ∧ 1000 ≤ n ∧ n ≤ 1000000
      (¬ good → refused .power 1) ∧ (good → voxNow .power (fun v => v.cap = cap ∧ v.interval = n)))

/-- R6, R25, R133, R151 to R154, R197, R198, R443, R462 to R464, R470 to R473, R477, R479, R481 to R486, R488 to R490: registers written, the mailbox's go, events and log batches,
temperatures, power and coolant, quota intervals, the chronometer, the watchdog, quarantine and fatal errors.
Where the spec leaves a point of these open the choice is the model's: log 40, 42, 44. -/
def Obligations.ManagementMonitors : Prop :=
  ∀ s : State, let v := s.vox; let now := s.chron.toNat
    let vox := fun (i : Instr) (x : Voxkan) => exec i s = .next { s with vox := x }
    (∀ w : DWord, let off := s.cur.y; let e := Instr.registerWrite w; let vd := s.cur.x - 1; let h := (s.vd vd).helm
      let due := fun (i : Instr) (x : Nat) => exec e s = .next { s with agenda := .event i x 0 0 :: s.agenda }
      let page := fun (g : HelmPage) => exec e s = .next (s.setVd vd { s.vd vd with helm := g })
      -- an access is 8 bytes wide and aligned, or changes nothing
      (off % 8 ≠ 0 ∨ s.cur.z ≠ 8 → exec e s = .next s) ∧
      (s.cur.x = 0 → s.cur.z = 8 → (off = 0 → due (.mbctlGo w) 0) ∧ (off = 0x18 → due (.evconsWrite w) 0) ∧ (off = 0x10 → vox e { v with mbie := w.getLsbD 0 }) ∧
        (off = 8 → vox e { v with done := v.done && !w.getLsbD 17, overflow := v.overflow && !w.getLsbD 18 }) ∧
        (0x1000 ≤ off → off < 0x2000 → off % 8 = 0 → vox e { v with buf := tset v.buf ((off - 0x1000) / 8) w }) ∧ (off = 0x20 ∨ off = 0x28 → exec e s = .next s)) ∧
      (1 ≤ s.cur.x → s.cur.x ≤ 96 → s.cur.z = 8 → (s.vd vd).present = true → (off = 0 → due (.hwatchWrite w) vd) ∧ (off = 0x20 → due (.hinvctl w) vd) ∧
        (off = 8 → page { h with hevent := w &&& 0xBF }) ∧ (off = 0x18 → page { h with hinva := w &&& 0x000FFFFFFFFFF000 }) ∧
        (off = 0x28 → page { h with hinvdst := w &&& 0x000FFFFFFFFFFFF8 }) ∧ (off = 0x30 → page { h with overflow := h.overflow && !w.getLsbD 8 }) ∧
        (off = 0x10 ∨ 0x1000 ≤ off → exec e s = .next s))) ∧
    (∀ w : DWord, vox (.evconsWrite w) { v with evcons := w.toNat % 2 ^ 32 }) ∧
    (∀ w : DWord, (w.getLsbD 0 = false → exec (.mbctlGo w) s = .next s) ∧ (w.getLsbD 0 = true → v.busy = true → vox (.mbctlGo w) { v with overflow := true }) ∧
      (w.getLsbD 0 = true → v.busy = false → let x := { v with record := v.buf, busy := true }; let op := x.field 0 2; let y := { x with latched := some op }
        (s.commandStatus y op = 0 → exec (.mbctlGo w) s = .next { s with vox := y, agenda := .event (commandRow y op) (if op = 0x22 then 255 else 0) 0 0 :: s.agenda }) ∧
        (s.commandStatus y op ≠ 0 → ∃ t, exec (.mbctlGo w) s = .next t ∧ memoryKept s t ∧ mailDone t (s.commandStatus y op) 0))) ∧
    (∀ temps, ∃ t, exec (.sensorRead temps) s = .next t ∧ memoryKept s t ∧ t.vox.temps = temps ∧
      t.hot = s.hot ∧ (∀ d, d < 96 → t.hotNext.getLsbD d = if 95 ≤ lget temps d 0 then true else if lget temps d 0 < 90 then false else s.hotNext.getLsbD d) ∧
      (∀ d, d < 96 → 110 ≤ lget temps d 0 → .event .fatal 2 0 0 ∈ t.agenda) ∧
      (∀ d, d < 96 → 100 ≤ lget temps d 0 → tfind v.hotSince d = none → tget t.vox.heat d 1 = min 4 (max (tget v.heat d 1) (tget s.therm d 1) + 1)) ∧
      (∀ h, h < 12 → (105 ≤ lget temps (96 + h) 0 → .event .fatal 2 0 0 ∈ t.agenda) ∧ (85 ≤ lget temps (96 + h) 0 → h ∈ t.vox.refresh) ∧
        (lget temps (96 + h) 0 < 80 → h ∉ t.vox.refresh) ∧ (95 ≤ lget temps (96 + h) 0 → h ∈ t.vox.actCap) ∧ (lget temps (96 + h) 0 < 90 → h ∉ t.vox.actCap))) ∧
    (∀ flows, let opening := fun z => min 255 (max 32 (8 * (zoneTemp v.temps z - 50)))
      ∃ t, exec (.coolantCycle flows) s = .next t ∧ memoryKept s t ∧ t.vox.valves = (List.range 6).map opening ∧
        t.vox.pump = ((List.range 6).map opening).foldl max 0 ∧ t.vox.i3c = coolantTransfers ((List.range 6).map opening) ∧
        ∀ z, z < 6 → vg v.zones z 0 ≠ 2 → s.cur.x % 4 ≠ 0 → vg t.vox.zones z 0 = 2 ∧ ∀ i, i < 16 → t.hotNext.getLsbD (16 * z + i) = true ∧ 4 ≤ tget t.therm (16 * z + i) 1) ∧
    (let w := (v.watts ++ [s.cur.x]).drop (v.watts.length + 1 - 100)
     ∃ t, exec .powerSample s = .next t ∧ memoryKept s t ∧ t.vox.watts = w ∧ (w.length < 100 → t.vox = { v with watts := w }) ∧
       (w.length = 100 → 100 * v.cap < w.sum → v.capSince = 0 → let d := hottest v.temps
         tget t.vox.powDiv d 1 = min 4 (tget s.therm d 1 + 1) ∧ (s.vox.events.length < 1023 → eventLast t 0 0x41 255 [BitVec.ofNat 64 (w.sum / 100)])) ∧
       (w.length = 100 → w.sum ≤ 100 * v.cap → 95 * v.cap ≤ w.sum → t.vox.capSince = 0 ∧ t.vox.lowSince = 0 ∧ t.vox.powDiv = v.powDiv)) ∧
    (∃ t, exec .quotaInterval s = .next t ∧ memoryKept s t ∧ t.vox.intervalAt = now ∧ ∀ k, (s.vd k).present = true →
      (t.vd k).charge = 0 ∧ (t.vd k).exhausted = false ∧ (t.vd k).peerBytes = 0 ∧ (t.vd k).nextQ = none ∧ (t.vd k).q = (s.vd k).nextQ.getD (s.vd k).q) ∧
    (let d := s.vd s.cur.x; d.present = true → d.log.openEntries ≠ [] → 256 ≤ d.log.openEntries.length ∨ d.log.openedAt + 100000000 ≤ now →
      exec .logBatchClose s = .next (s.setVd s.cur.x { d with log := { d.log with
        batches := d.log.batches ++ [{ entries := d.log.openEntries, chron := s.chron, hash := d.log.hash }], openEntries := [] } })) ∧
    (∀ a n vec e rest, v.ring = some (a, n, vec) → pickEvent v.events = some (e, rest) → e.chron.toNat + 4000 ≤ now → (v.evSeq + 2 ^ 32 - v.evcons) % 2 ^ 32 ≤ n → v.lost = 0 →
      a + 64 * n ≤ 2 ^ 45 → a % 64 = 0 → 0 < n →
      ∃ t, exec .eventDelivery s = .next t ∧ t.vox.events = rest ∧ t.vox.evSeq = v.evSeq + 1 ∧ t.vox.msix = (if vec = true then v.msix ++ [(0, 1)] else v.msix) ∧
        let p := hostBase + a + v.evSeq % n * 64
        number t p 8 = e.chron.toNat ∧ number t (p + 8) 4 = v.evSeq % 2 ^ 32 ∧ number t (p + 12) 2 = e.src % 2 ^ 16 ∧ number t (p + 14) 2 = e.code % 2 ^ 16 ∧ number t (p + 16) 1 = e.vd % 256 ∧
          (∀ j, j < 5 → number t (p + 24 + 8 * j) 8 = (e.detail[j]?.getD 0).toNat) ∧ ∀ k, k < p ∨ p + 64 ≤ k → t.byte k = s.byte k) ∧
    (∀ r, s.region s.cur.x = some r → v.watchdog ≠ 0 → s.isFrozen r = false → r.seen + 1000 * v.watchdog ≤ now → v.events.length < 1024 →
      ∃ t, exec .regionStall s = .next t ∧ memoryKept s t ∧ eventLast t 0 0x30 r.vd [BitVec.ofNat 64 r.tagInc] ∧ ∃ q, t.region s.cur.x = some q ∧ q = { r with seen := 2 ^ 64 }) ∧
    (let d := s.vd s.cur.x; (d.present = true → d.quarantined = false → ∃ t, exec .quarantine s = .next t ∧ memoryKept s t ∧ (t.vd s.cur.x).quarantined = true ∧ (t.vd s.cur.x).cause = s.cur.y ∧
        ∀ k, k ≠ s.cur.x → t.vd k = s.vd k) ∧ (d.present = false ∨ d.quarantined = true → exec .quarantine s = .next s)) ∧
    (exec .heartbeatGap s = .next { s with agenda := .event .fatal 3 0 0 :: s.agenda }) ∧
    (v.devstate ≠ 3 → ∃ t, exec .fatal s = .next t ∧ t.vox.devstate = 3 ∧ t.vox.msix = v.msix ++ [(0, 2)] ∧ (∀ r ∈ s.regions, ∃ o ∈ t.snaps, o.region = r.lead ∧ o.gated = true) ∧
      (v.dump = none → memoryKept s t) ∧ (v.events.length < 1024 → eventLast t 0 0xFF 255 [Config.fatalCause s.cur.x])) ∧
    -- each cycle charges a VD with 256 for each element of its regions (R151)
    (let u := s.cycleEnd; s.dueElems = [] → ∃ t, s.turn .clock = .next t ∧ t.half = !u.half ∧ ∀ k, (t.vd k).charge = (u.vd k).charge +
      (if (tfind u.vds k).isSome = true then ((u.regions.filter (fun r => r.vd = k)).map (fun r => 256 * 1024 * r.bands)).sum else 0)) ∧
    (∃ t, exec .chronometerTick s = .next t ∧ memoryKept s t ∧ t.chron = s.chron + 1 ∧ t.half = s.half ∧
      t.regions = s.regions.map (fun r => if s.isFrozen r = true then { r with seen := now } else r) ∧
      (∀ k, let d := s.vd k; (t.vd k).charge = d.charge ∧
        let restoring := ∃ o ∈ s.snaps, o.restore = true ∧ o.vd = k; let away := d.resident = false ∨ (d.switching = true ∧ d.injected = true)
        (d.present = false ∨ d.migrating = true → (t.vd k).guest = d.guest ∧ (t.vd k).stolen = d.stolen) ∧
        (d.present = true → d.migrating = false → restoring → (t.vd k).guest = d.guest ∧ (t.vd k).stolen = d.stolen + 1) ∧
        (d.present = true → d.migrating = false → ¬ restoring → ¬ away → (t.vd k).guest = d.guest + 1 ∧ (t.vd k).stolen = d.stolen) ∧
        (d.present = true → d.migrating = false → ¬ restoring → away → (t.vd k).guest = d.guest ∧
          (t.vd k).stolen = if d.exhausted = true ∨ s.hasKept k d = false then d.stolen else d.stolen + 1)) ∧
      ((s.chron + 1).toNat % 50000 = 0 → .event .sharingPeriod 0 0 0 ∈ t.agenda) ∧
      (v.intervalAt + 1000 * v.interval ≤ (s.chron + 1).toNat → .event .quotaInterval 0 0 0 ∈ t.agenda))

/-! ### The whole machine -/

/-- R25, R36, R211, R236, R314, R316, R317, R321, R458 (and the order of turns, log 1): when the four bytes at a pilot's program address decode to an
instruction, the pilot's turn is that instruction's meaning, and its stores reach memory; a word that does not decode traps; beside a
load in flight only an instruction that needs none of the loaded registers issues. An element's turn is the meaning of the instruction
that the chosen slot's six bytes decode to, with the trigger unit's own upkeep and the end of its cycle, unless its slack step holds it
back, a swap takes the cycle, or the slot's parity is wrong. A step of the table
is its meaning at the place named.
Where the spec leaves a point of these open the choice is the model's: log 1. -/
def Obligations.StepRunsDecodedInstruction : Prop :=
  ∀ (s : State) (l : List Turn),
    (∀ p, s.agenda = .pilot p :: l → let b := { s with agenda := l }; let q := s.pilot p
      let w := (List.range 4).map (fun k => s.byte (chartCell p (q.pc.toNat % 65536 + k))); let at0 := b.atPilot p
      let loads := q.pend.any PAcc.isLoad
      s.acts p = true → q.run = .running → s.asyncCause p = none → q.waitSince = none → isChart q.pc = true → q.pc.toNat % 4 = 0 →
      (∀ i t, decodePilotBytes w = .ok (i, []) → exec i at0 = .next t →
        (q.mayIssue (numberOf w) = false → step s = .next (s.land b)) ∧
        (loads = true → q.wentOn (t.pilot p) = false → step s = .next (s.land b)) ∧
        (q.mayIssue (numberOf w) = true → (loads = false ∨ q.wentOn (t.pilot p) = true) →
          (t.pilot p ≠ q → step s = .next (s.land (t.touch p))) ∧
          (t.pilot p = q → jumps (numberOf w) = false → step s = .next (s.land t)) ∧
          (jumps (numberOf w) = true → step s = .next (s.land (t.touch p))))) ∧
      (∀ e, decodePilotBytes w = .error e → loads = false → ∃ t, step s = .next (s.land t) ∧ trapped at0 t 1 0 (BitVec.ofNat 64 (numberOf w)) q.pc)) ∧
    (∀ e r, s.agenda = .element e :: l → s.regionOfElem e = some r → s.fires r = true → s.cycle % s.divOf r e = 0 →
      (s.elem e).last ≠ s.cycle + 1 →
      let b := State.modElem { s with agenda := l } e (fun m => { m with last := s.cycle + 1 })
      (s.slackHolds r e = true → step s = .next (s.land (b.endCycle e))) ∧
      (s.slackHolds r e = false → s.swapsNow r e = true → step s = (match exec .elementSwap { s with agenda := l, cur := { s.cur with x := e } } with
        | .next t => .next (s.land t) | .fault f => .fault f | .refused f => .refused f)) ∧
      (s.slackHolds r e = false → s.swapsNow r e = false → b.firing e = none → step s = .next (s.land ((b.idleCycle e).endCycle e))) ∧
      (∀ i u, s.slackHolds r e = false → s.swapsNow r e = false → b.firing e = some (i, u) →
        (let slot := lget (vg (s.elem e).core.cfg (s.elem e).core.active ElemCfg.empty).slots u.cur.slot 0
         decodeSlotBytes (leBytes 6 slot.toNat) = .ok (slot.toNat % 65536, i, [])) ∧ u.cur.elem = e ∧ u = { b with cur := u.cur } ∧
        ∀ t, u.badParity e false u.cur.slot = false → exec i u = .next t → step s = .next (s.land ((u.afterFiring t e (u.cur.ctx % 4) (u.cur.ctx / 4)).endCycle e)))) ∧
    (∀ i x y z t, s.agenda = .event i x y z :: l →
      exec i { s with agenda := l, cur := { s.cur with x := x, y := y, z := z } } = .next t → step s = .next (s.land t))

/-- A step always goes on: no turn in any state stops the machine, no store is left pending between steps, and memory keeps its
canonical form (R71: every encoding and every event has a fate; the form is the model's, log 4 and log 5). -/
def Obligations.EveryStepGoesOn : Prop :=
  ∀ s : State, ∃ t, step s = .next t ∧ t.stores = [] ∧ (Memory.wf s.mem = true → Memory.wf t.mem = true)

/-- R133, R443, R444, R462, R465, R466, R470, R471, R486: right after reset every register of PF 0 reads its reset value and no VF
answers; there are no VDs, regions, keys or windows, every strip is unassigned, the chronometer, the window identifiers and the
event sequence are at their starts, and the pilots' control registers read 0. Memory lists nothing (the model's own form, log 5).
Where the spec leaves a point of these open the choice is the model's: log 3, 5, 6. -/
def Obligations.ResetState : Prop :=
  State.reset.Safe ∧ (∀ fn off n, State.reset.readRegister fn off n = if fn = 0 ∧ off = 0x028 ∧ n = 8 then 1 else 0) ∧
    (∀ v, (State.reset.vd v).present = false) ∧ State.reset.regions = [] ∧ State.reset.cipher.keys = [] ∧ State.reset.cipher.windows = [] ∧
    State.reset.cipher.nextIdent = 1 ∧ (∀ k, k < 24 → State.reset.partOf k = 255) ∧ State.reset.chron = 0 ∧ State.reset.vox.evSeq = 1 ∧
    State.reset.vox.watchdog = 100000 ∧ State.reset.vox.cap = 3200 ∧ State.reset.vox.interval = 10000 ∧
    ∀ p n, n ≤ 5 → (State.reset.atPilot p).ctlValue n = some 0

/-- R72 to R76, R78 to R86: words written out from the encoding tables, and what they decode to; an unassigned opcode, a non-zero
field that must be zero and a value outside a field's limit are refused by name. -/
def Obligations.DecodeWords : Prop :=
  decodePilotBytes [0x00, 0x10, 0x61, 0x00] = .ok (.add 3 1 2, []) ∧
  decodePilotBytes [0xFB, 0xFF, 0x84, 0x04] = .ok (.addi 4 4 0xFFFB, []) ∧
  decodePilotBytes [0x08, 0x00, 0xA6, 0x4C] = .ok (.ld 5 6 8, []) ∧
  decodePilotBytes [0xFE, 0xFF, 0x22, 0x84] = .ok (.bne 1 2 0xFFFE, []) ∧
  decodePilotBytes [0x09, 0x18, 0xE8, 0xC8] = .ok (.atom 7 8 3 0 9, []) ∧
  decodePilotBytes [0x00, 0x03, 0x07, 0xA0] = .ok (.blkld 7 3, []) ∧
  decodePilotBytes [0x00, 0x00, 0x00, 0x28] = .error .unassigned ∧
  decodePilotBytes [0x40, 0x00, 0x22, 0x14] = .error .nonzeroField ∧
  decodePilotBytes [0x05, 0x00, 0x00, 0xC0] = .error .fieldOutOfRange ∧
  decodeSlotBytes [0x00, 0x10, 0x00, 0x0D, 0x10, 0x00] = .ok (0x1000, .vecAdd { dst := 1, a := 0, b := 3, ty := 2, md := 0, dqa := false, dqb := false }, [])

/-- R70 to R85: a well-formed instruction that has a pilot word or an element word decodes, from that word and from its bytes, to
itself with every operand, and a word that decodes is the word of what it decodes to: no bit of an encoding is dropped. -/
def Obligations.DecodeEncode : Prop :=
  (∀ i w, i.wellFormed = true → encodePilot i = some w → w < 2 ^ 32 ∧ decodePilot w = .ok i) ∧
  (∀ i w, i.wellFormed = true → encodeOpWord i = some w → w < 2 ^ 32 ∧ decodeOpWord w = .ok i) ∧
  (∀ i w, w < 2 ^ 32 → decodePilot w = .ok i → encodePilot i = some w ∧ encodeOpWord i = none) ∧
  (∀ i w, w < 2 ^ 32 → decodeOpWord w = .ok i → encodeOpWord i = some w ∧ encodePilot i = none ∧ i.wellFormed = true) ∧
  (∀ g i w rest, i.wellFormed = true → encodePilot i = some w → ∃ l, encode g i = some l ∧ decodePilotBytes (l ++ rest) = .ok (i, rest)) ∧
  (∀ g i w rest, i.wellFormed = true → encodeOpWord i = some w → ∃ l, encode g i = some l ∧ decodeSlotBytes (l ++ rest) = .ok (g.toNat, i, rest))
end

