-- ==== Sys2Proof/Laws/State.lean ====
section
/-!
SUPPORT. The fields of the state after each of its updates: one law per field and update, each true by definition.
-/
namespace Sys2Proof.Machine
open Sys2Proof

/-! ### `State.setPilot` -/

@[simp] theorem State.setPilot_agenda (s : State) (p : Nat) (v : Pilot) : (s.setPilot p v).agenda = s.agenda := rfl
@[simp] theorem State.setPilot_draws (s : State) (p : Nat) (v : Pilot) : (s.setPilot p v).draws = s.draws := rfl
@[simp] theorem State.setPilot_cur (s : State) (p : Nat) (v : Pilot) : (s.setPilot p v).cur = s.cur := rfl
@[simp] theorem State.setPilot_stores (s : State) (p : Nat) (v : Pilot) : (s.setPilot p v).stores = s.stores := rfl
@[simp] theorem State.setPilot_half (s : State) (p : Nat) (v : Pilot) : (s.setPilot p v).half = s.half := rfl
@[simp] theorem State.setPilot_chron (s : State) (p : Nat) (v : Pilot) : (s.setPilot p v).chron = s.chron := rfl
@[simp] theorem State.setPilot_mem (s : State) (p : Nat) (v : Pilot) : (s.setPilot p v).mem = s.mem := rfl
@[simp] theorem State.setPilot_poison (s : State) (p : Nat) (v : Pilot) : (s.setPilot p v).poison = s.poison := rfl
@[simp] theorem State.setPilot_upsets (s : State) (p : Nat) (v : Pilot) : (s.setPilot p v).upsets = s.upsets := rfl
@[simp] theorem State.setPilot_banks (s : State) (p : Nat) (v : Pilot) : (s.setPilot p v).banks = s.banks := rfl
@[simp] theorem State.setPilot_failed (s : State) (p : Nat) (v : Pilot) : (s.setPilot p v).failed = s.failed := rfl
@[simp] theorem State.setPilot_harvest (s : State) (p : Nat) (v : Pilot) : (s.setPilot p v).harvest = s.harvest := rfl
@[simp] theorem State.setPilot_strips (s : State) (p : Nat) (v : Pilot) : (s.setPilot p v).strips = s.strips := rfl
@[simp] theorem State.setPilot_hot (s : State) (p : Nat) (v : Pilot) : (s.setPilot p v).hot = s.hot := rfl
@[simp] theorem State.setPilot_hotNext (s : State) (p : Nat) (v : Pilot) : (s.setPilot p v).hotNext = s.hotNext := rfl
@[simp] theorem State.setPilot_therm (s : State) (p : Nat) (v : Pilot) : (s.setPilot p v).therm = s.therm := rfl
@[simp] theorem State.setPilot_walks (s : State) (p : Nat) (v : Pilot) : (s.setPilot p v).walks = s.walks := rfl
@[simp] theorem State.setPilot_pilots (s : State) (p : Nat) (v : Pilot) : (s.setPilot p v).pilots = tset s.pilots p v := rfl
@[simp] theorem State.setPilot_elems (s : State) (p : Nat) (v : Pilot) : (s.setPilot p v).elems = s.elems := rfl
@[simp] theorem State.setPilot_edges (s : State) (p : Nat) (v : Pilot) : (s.setPilot p v).edges = s.edges := rfl
@[simp] theorem State.setPilot_fifos (s : State) (p : Nat) (v : Pilot) : (s.setPilot p v).fifos = s.fifos := rfl
@[simp] theorem State.setPilot_regions (s : State) (p : Nat) (v : Pilot) : (s.setPilot p v).regions = s.regions := rfl
@[simp] theorem State.setPilot_kept (s : State) (p : Nat) (v : Pilot) : (s.setPilot p v).kept = s.kept := rfl
@[simp] theorem State.setPilot_vds (s : State) (p : Nat) (v : Pilot) : (s.setPilot p v).vds = s.vds := rfl
@[simp] theorem State.setPilot_lastVd (s : State) (p : Nat) (v : Pilot) : (s.setPilot p v).lastVd = s.lastVd := rfl
@[simp] theorem State.setPilot_incs (s : State) (p : Nat) (v : Pilot) : (s.setPilot p v).incs = s.incs := rfl
@[simp] theorem State.setPilot_cmdNo (s : State) (p : Nat) (v : Pilot) : (s.setPilot p v).cmdNo = s.cmdNo := rfl
@[simp] theorem State.setPilot_change (s : State) (p : Nat) (v : Pilot) : (s.setPilot p v).change = s.change := rfl
@[simp] theorem State.setPilot_snaps (s : State) (p : Nat) (v : Pilot) : (s.setPilot p v).snaps = s.snaps := rfl
@[simp] theorem State.setPilot_snapNo (s : State) (p : Nat) (v : Pilot) : (s.setPilot p v).snapNo = s.snapNo := rfl
@[simp] theorem State.setPilot_dirty (s : State) (p : Nat) (v : Pilot) : (s.setPilot p v).dirty = s.dirty := rfl
@[simp] theorem State.setPilot_cipher (s : State) (p : Nat) (v : Pilot) : (s.setPilot p v).cipher = s.cipher := rfl
@[simp] theorem State.setPilot_hb (s : State) (p : Nat) (v : Pilot) : (s.setPilot p v).hb = s.hb := rfl
@[simp] theorem State.setPilot_vox (s : State) (p : Nat) (v : Pilot) : (s.setPilot p v).vox = s.vox := rfl

/-! ### `State.setElem` -/

@[simp] theorem State.setElem_agenda (s : State) (e : Nat) (v : Elem) : (s.setElem e v).agenda = s.agenda := rfl
@[simp] theorem State.setElem_draws (s : State) (e : Nat) (v : Elem) : (s.setElem e v).draws = s.draws := rfl
@[simp] theorem State.setElem_cur (s : State) (e : Nat) (v : Elem) : (s.setElem e v).cur = s.cur := rfl
@[simp] theorem State.setElem_stores (s : State) (e : Nat) (v : Elem) : (s.setElem e v).stores = s.stores := rfl
@[simp] theorem State.setElem_half (s : State) (e : Nat) (v : Elem) : (s.setElem e v).half = s.half := rfl
@[simp] theorem State.setElem_chron (s : State) (e : Nat) (v : Elem) : (s.setElem e v).chron = s.chron := rfl
@[simp] theorem State.setElem_mem (s : State) (e : Nat) (v : Elem) : (s.setElem e v).mem = s.mem := rfl
@[simp] theorem State.setElem_poison (s : State) (e : Nat) (v : Elem) : (s.setElem e v).poison = s.poison := rfl
@[simp] theorem State.setElem_upsets (s : State) (e : Nat) (v : Elem) : (s.setElem e v).upsets = s.upsets := rfl
@[simp] theorem State.setElem_banks (s : State) (e : Nat) (v : Elem) : (s.setElem e v).banks = s.banks := rfl
@[simp] theorem State.setElem_failed (s : State) (e : Nat) (v : Elem) : (s.setElem e v).failed = s.failed := rfl
@[simp] theorem State.setElem_harvest (s : State) (e : Nat) (v : Elem) : (s.setElem e v).harvest = s.harvest := rfl
@[simp] theorem State.setElem_strips (s : State) (e : Nat) (v : Elem) : (s.setElem e v).strips = s.strips := rfl
@[simp] theorem State.setElem_hot (s : State) (e : Nat) (v : Elem) : (s.setElem e v).hot = s.hot := rfl
@[simp] theorem State.setElem_hotNext (s : State) (e : Nat) (v : Elem) : (s.setElem e v).hotNext = s.hotNext := rfl
@[simp] theorem State.setElem_therm (s : State) (e : Nat) (v : Elem) : (s.setElem e v).therm = s.therm := rfl
@[simp] theorem State.setElem_walks (s : State) (e : Nat) (v : Elem) : (s.setElem e v).walks = s.walks := rfl
@[simp] theorem State.setElem_pilots (s : State) (e : Nat) (v : Elem) : (s.setElem e v).pilots = s.pilots := rfl
@[simp] theorem State.setElem_elems (s : State) (e : Nat) (v : Elem) : (s.setElem e v).elems = tset s.elems e v := rfl
@[simp] theorem State.setElem_edges (s : State) (e : Nat) (v : Elem) : (s.setElem e v).edges = s.edges := rfl
@[simp] theorem State.setElem_fifos (s : State) (e : Nat) (v : Elem) : (s.setElem e v).fifos = s.fifos := rfl
@[simp] theorem State.setElem_regions (s : State) (e : Nat) (v : Elem) : (s.setElem e v).regions = s.regions := rfl
@[simp] theorem State.setElem_kept (s : State) (e : Nat) (v : Elem) : (s.setElem e v).kept = s.kept := rfl
@[simp] theorem State.setElem_vds (s : State) (e : Nat) (v : Elem) : (s.setElem e v).vds = s.vds := rfl
@[simp] theorem State.setElem_lastVd (s : State) (e : Nat) (v : Elem) : (s.setElem e v).lastVd = s.lastVd := rfl
@[simp] theorem State.setElem_incs (s : State) (e : Nat) (v : Elem) : (s.setElem e v).incs = s.incs := rfl
@[simp] theorem State.setElem_cmdNo (s : State) (e : Nat) (v : Elem) : (s.setElem e v).cmdNo = s.cmdNo := rfl
@[simp] theorem State.setElem_change (s : State) (e : Nat) (v : Elem) : (s.setElem e v).change = s.change := rfl
@[simp] theorem State.setElem_snaps (s : State) (e : Nat) (v : Elem) : (s.setElem e v).snaps = s.snaps := rfl
@[simp] theorem State.setElem_snapNo (s : State) (e : Nat) (v : Elem) : (s.setElem e v).snapNo = s.snapNo := rfl
@[simp] theorem State.setElem_dirty (s : State) (e : Nat) (v : Elem) : (s.setElem e v).dirty = s.dirty := rfl
@[simp] theorem State.setElem_cipher (s : State) (e : Nat) (v : Elem) : (s.setElem e v).cipher = s.cipher := rfl
@[simp] theorem State.setElem_hb (s : State) (e : Nat) (v : Elem) : (s.setElem e v).hb = s.hb := rfl
@[simp] theorem State.setElem_vox (s : State) (e : Nat) (v : Elem) : (s.setElem e v).vox = s.vox := rfl

/-! ### `State.setEdge` -/

@[simp] theorem State.setEdge_agenda (s : State) (g : Nat) (v : Edge) : (s.setEdge g v).agenda = s.agenda := rfl
@[simp] theorem State.setEdge_draws (s : State) (g : Nat) (v : Edge) : (s.setEdge g v).draws = s.draws := rfl
@[simp] theorem State.setEdge_cur (s : State) (g : Nat) (v : Edge) : (s.setEdge g v).cur = s.cur := rfl
@[simp] theorem State.setEdge_stores (s : State) (g : Nat) (v : Edge) : (s.setEdge g v).stores = s.stores := rfl
@[simp] theorem State.setEdge_half (s : State) (g : Nat) (v : Edge) : (s.setEdge g v).half = s.half := rfl
@[simp] theorem State.setEdge_chron (s : State) (g : Nat) (v : Edge) : (s.setEdge g v).chron = s.chron := rfl
@[simp] theorem State.setEdge_mem (s : State) (g : Nat) (v : Edge) : (s.setEdge g v).mem = s.mem := rfl
@[simp] theorem State.setEdge_poison (s : State) (g : Nat) (v : Edge) : (s.setEdge g v).poison = s.poison := rfl
@[simp] theorem State.setEdge_upsets (s : State) (g : Nat) (v : Edge) : (s.setEdge g v).upsets = s.upsets := rfl
@[simp] theorem State.setEdge_banks (s : State) (g : Nat) (v : Edge) : (s.setEdge g v).banks = s.banks := rfl
@[simp] theorem State.setEdge_failed (s : State) (g : Nat) (v : Edge) : (s.setEdge g v).failed = s.failed := rfl
@[simp] theorem State.setEdge_harvest (s : State) (g : Nat) (v : Edge) : (s.setEdge g v).harvest = s.harvest := rfl
@[simp] theorem State.setEdge_strips (s : State) (g : Nat) (v : Edge) : (s.setEdge g v).strips = s.strips := rfl
@[simp] theorem State.setEdge_hot (s : State) (g : Nat) (v : Edge) : (s.setEdge g v).hot = s.hot := rfl
@[simp] theorem State.setEdge_hotNext (s : State) (g : Nat) (v : Edge) : (s.setEdge g v).hotNext = s.hotNext := rfl
@[simp] theorem State.setEdge_therm (s : State) (g : Nat) (v : Edge) : (s.setEdge g v).therm = s.therm := rfl
@[simp] theorem State.setEdge_walks (s : State) (g : Nat) (v : Edge) : (s.setEdge g v).walks = s.walks := rfl
@[simp] theorem State.setEdge_pilots (s : State) (g : Nat) (v : Edge) : (s.setEdge g v).pilots = s.pilots := rfl
@[simp] theorem State.setEdge_elems (s : State) (g : Nat) (v : Edge) : (s.setEdge g v).elems = s.elems := rfl
@[simp] theorem State.setEdge_edges (s : State) (g : Nat) (v : Edge) : (s.setEdge g v).edges = tset s.edges g v := rfl
@[simp] theorem State.setEdge_fifos (s : State) (g : Nat) (v : Edge) : (s.setEdge g v).fifos = s.fifos := rfl
@[simp] theorem State.setEdge_regions (s : State) (g : Nat) (v : Edge) : (s.setEdge g v).regions = s.regions := rfl
@[simp] theorem State.setEdge_kept (s : State) (g : Nat) (v : Edge) : (s.setEdge g v).kept = s.kept := rfl
@[simp] theorem State.setEdge_vds (s : State) (g : Nat) (v : Edge) : (s.setEdge g v).vds = s.vds := rfl
@[simp] theorem State.setEdge_lastVd (s : State) (g : Nat) (v : Edge) : (s.setEdge g v).lastVd = s.lastVd := rfl
@[simp] theorem State.setEdge_incs (s : State) (g : Nat) (v : Edge) : (s.setEdge g v).incs = s.incs := rfl
@[simp] theorem State.setEdge_cmdNo (s : State) (g : Nat) (v : Edge) : (s.setEdge g v).cmdNo = s.cmdNo := rfl
@[simp] theorem State.setEdge_change (s : State) (g : Nat) (v : Edge) : (s.setEdge g v).change = s.change := rfl
@[simp] theorem State.setEdge_snaps (s : State) (g : Nat) (v : Edge) : (s.setEdge g v).snaps = s.snaps := rfl
@[simp] theorem State.setEdge_snapNo (s : State) (g : Nat) (v : Edge) : (s.setEdge g v).snapNo = s.snapNo := rfl
@[simp] theorem State.setEdge_dirty (s : State) (g : Nat) (v : Edge) : (s.setEdge g v).dirty = s.dirty := rfl
@[simp] theorem State.setEdge_cipher (s : State) (g : Nat) (v : Edge) : (s.setEdge g v).cipher = s.cipher := rfl
@[simp] theorem State.setEdge_hb (s : State) (g : Nat) (v : Edge) : (s.setEdge g v).hb = s.hb := rfl
@[simp] theorem State.setEdge_vox (s : State) (g : Nat) (v : Edge) : (s.setEdge g v).vox = s.vox := rfl

/-! ### `State.setVd` -/

@[simp] theorem State.setVd_agenda (s : State) (v : Nat) (d : Vd) : (s.setVd v d).agenda = s.agenda := rfl
@[simp] theorem State.setVd_draws (s : State) (v : Nat) (d : Vd) : (s.setVd v d).draws = s.draws := rfl
@[simp] theorem State.setVd_cur (s : State) (v : Nat) (d : Vd) : (s.setVd v d).cur = s.cur := rfl
@[simp] theorem State.setVd_stores (s : State) (v : Nat) (d : Vd) : (s.setVd v d).stores = s.stores := rfl
@[simp] theorem State.setVd_half (s : State) (v : Nat) (d : Vd) : (s.setVd v d).half = s.half := rfl
@[simp] theorem State.setVd_chron (s : State) (v : Nat) (d : Vd) : (s.setVd v d).chron = s.chron := rfl
@[simp] theorem State.setVd_mem (s : State) (v : Nat) (d : Vd) : (s.setVd v d).mem = s.mem := rfl
@[simp] theorem State.setVd_poison (s : State) (v : Nat) (d : Vd) : (s.setVd v d).poison = s.poison := rfl
@[simp] theorem State.setVd_upsets (s : State) (v : Nat) (d : Vd) : (s.setVd v d).upsets = s.upsets := rfl
@[simp] theorem State.setVd_banks (s : State) (v : Nat) (d : Vd) : (s.setVd v d).banks = s.banks := rfl
@[simp] theorem State.setVd_failed (s : State) (v : Nat) (d : Vd) : (s.setVd v d).failed = s.failed := rfl
@[simp] theorem State.setVd_harvest (s : State) (v : Nat) (d : Vd) : (s.setVd v d).harvest = s.harvest := rfl
@[simp] theorem State.setVd_strips (s : State) (v : Nat) (d : Vd) : (s.setVd v d).strips = s.strips := rfl
@[simp] theorem State.setVd_hot (s : State) (v : Nat) (d : Vd) : (s.setVd v d).hot = s.hot := rfl
@[simp] theorem State.setVd_hotNext (s : State) (v : Nat) (d : Vd) : (s.setVd v d).hotNext = s.hotNext := rfl
@[simp] theorem State.setVd_therm (s : State) (v : Nat) (d : Vd) : (s.setVd v d).therm = s.therm := rfl
@[simp] theorem State.setVd_walks (s : State) (v : Nat) (d : Vd) : (s.setVd v d).walks = s.walks := rfl
@[simp] theorem State.setVd_pilots (s : State) (v : Nat) (d : Vd) : (s.setVd v d).pilots = s.pilots := rfl
@[simp] theorem State.setVd_elems (s : State) (v : Nat) (d : Vd) : (s.setVd v d).elems = s.elems := rfl
@[simp] theorem State.setVd_edges (s : State) (v : Nat) (d : Vd) : (s.setVd v d).edges = s.edges := rfl
@[simp] theorem State.setVd_fifos (s : State) (v : Nat) (d : Vd) : (s.setVd v d).fifos = s.fifos := rfl
@[simp] theorem State.setVd_regions (s : State) (v : Nat) (d : Vd) : (s.setVd v d).regions = s.regions := rfl
@[simp] theorem State.setVd_kept (s : State) (v : Nat) (d : Vd) : (s.setVd v d).kept = s.kept := rfl
@[simp] theorem State.setVd_vds (s : State) (v : Nat) (d : Vd) : (s.setVd v d).vds = tset s.vds v d := rfl
@[simp] theorem State.setVd_lastVd (s : State) (v : Nat) (d : Vd) : (s.setVd v d).lastVd = s.lastVd := rfl
@[simp] theorem State.setVd_incs (s : State) (v : Nat) (d : Vd) : (s.setVd v d).incs = s.incs := rfl
@[simp] theorem State.setVd_cmdNo (s : State) (v : Nat) (d : Vd) : (s.setVd v d).cmdNo = s.cmdNo := rfl
@[simp] theorem State.setVd_change (s : State) (v : Nat) (d : Vd) : (s.setVd v d).change = s.change := rfl
@[simp] theorem State.setVd_snaps (s : State) (v : Nat) (d : Vd) : (s.setVd v d).snaps = s.snaps := rfl
@[simp] theorem State.setVd_snapNo (s : State) (v : Nat) (d : Vd) : (s.setVd v d).snapNo = s.snapNo := rfl
@[simp] theorem State.setVd_dirty (s : State) (v : Nat) (d : Vd) : (s.setVd v d).dirty = s.dirty := rfl
@[simp] theorem State.setVd_cipher (s : State) (v : Nat) (d : Vd) : (s.setVd v d).cipher = s.cipher := rfl
@[simp] theorem State.setVd_hb (s : State) (v : Nat) (d : Vd) : (s.setVd v d).hb = s.hb := rfl
@[simp] theorem State.setVd_vox (s : State) (v : Nat) (d : Vd) : (s.setVd v d).vox = s.vox := rfl

/-! ### `State.setMe` -/

@[simp] theorem State.setMe_agenda (s : State) (v : Pilot) : (s.setMe v).agenda = s.agenda := rfl
@[simp] theorem State.setMe_draws (s : State) (v : Pilot) : (s.setMe v).draws = s.draws := rfl
@[simp] theorem State.setMe_cur (s : State) (v : Pilot) : (s.setMe v).cur = s.cur := rfl
@[simp] theorem State.setMe_stores (s : State) (v : Pilot) : (s.setMe v).stores = s.stores := rfl
@[simp] theorem State.setMe_half (s : State) (v : Pilot) : (s.setMe v).half = s.half := rfl
@[simp] theorem State.setMe_chron (s : State) (v : Pilot) : (s.setMe v).chron = s.chron := rfl
@[simp] theorem State.setMe_mem (s : State) (v : Pilot) : (s.setMe v).mem = s.mem := rfl
@[simp] theorem State.setMe_poison (s : State) (v : Pilot) : (s.setMe v).poison = s.poison := rfl
@[simp] theorem State.setMe_upsets (s : State) (v : Pilot) : (s.setMe v).upsets = s.upsets := rfl
@[simp] theorem State.setMe_banks (s : State) (v : Pilot) : (s.setMe v).banks = s.banks := rfl
@[simp] theorem State.setMe_failed (s : State) (v : Pilot) : (s.setMe v).failed = s.failed := rfl
@[simp] theorem State.setMe_harvest (s : State) (v : Pilot) : (s.setMe v).harvest = s.harvest := rfl
@[simp] theorem State.setMe_strips (s : State) (v : Pilot) : (s.setMe v).strips = s.strips := rfl
@[simp] theorem State.setMe_hot (s : State) (v : Pilot) : (s.setMe v).hot = s.hot := rfl
@[simp] theorem State.setMe_hotNext (s : State) (v : Pilot) : (s.setMe v).hotNext = s.hotNext := rfl
@[simp] theorem State.setMe_therm (s : State) (v : Pilot) : (s.setMe v).therm = s.therm := rfl
@[simp] theorem State.setMe_walks (s : State) (v : Pilot) : (s.setMe v).walks = s.walks := rfl
@[simp] theorem State.setMe_pilots (s : State) (v : Pilot) : (s.setMe v).pilots = tset s.pilots s.cur.pilot v := rfl
@[simp] theorem State.setMe_elems (s : State) (v : Pilot) : (s.setMe v).elems = s.elems := rfl
@[simp] theorem State.setMe_edges (s : State) (v : Pilot) : (s.setMe v).edges = s.edges := rfl
@[simp] theorem State.setMe_fifos (s : State) (v : Pilot) : (s.setMe v).fifos = s.fifos := rfl
@[simp] theorem State.setMe_regions (s : State) (v : Pilot) : (s.setMe v).regions = s.regions := rfl
@[simp] theorem State.setMe_kept (s : State) (v : Pilot) : (s.setMe v).kept = s.kept := rfl
@[simp] theorem State.setMe_vds (s : State) (v : Pilot) : (s.setMe v).vds = s.vds := rfl
@[simp] theorem State.setMe_lastVd (s : State) (v : Pilot) : (s.setMe v).lastVd = s.lastVd := rfl
@[simp] theorem State.setMe_incs (s : State) (v : Pilot) : (s.setMe v).incs = s.incs := rfl
@[simp] theorem State.setMe_cmdNo (s : State) (v : Pilot) : (s.setMe v).cmdNo = s.cmdNo := rfl
@[simp] theorem State.setMe_change (s : State) (v : Pilot) : (s.setMe v).change = s.change := rfl
@[simp] theorem State.setMe_snaps (s : State) (v : Pilot) : (s.setMe v).snaps = s.snaps := rfl
@[simp] theorem State.setMe_snapNo (s : State) (v : Pilot) : (s.setMe v).snapNo = s.snapNo := rfl
@[simp] theorem State.setMe_dirty (s : State) (v : Pilot) : (s.setMe v).dirty = s.dirty := rfl
@[simp] theorem State.setMe_cipher (s : State) (v : Pilot) : (s.setMe v).cipher = s.cipher := rfl
@[simp] theorem State.setMe_hb (s : State) (v : Pilot) : (s.setMe v).hb = s.hb := rfl
@[simp] theorem State.setMe_vox (s : State) (v : Pilot) : (s.setMe v).vox = s.vox := rfl

/-! ### `State.modRegion` -/

@[simp] theorem State.modRegion_agenda (s : State) (l : Nat) (f : Region → Region) : (s.modRegion l f).agenda = s.agenda := rfl
@[simp] theorem State.modRegion_draws (s : State) (l : Nat) (f : Region → Region) : (s.modRegion l f).draws = s.draws := rfl
@[simp] theorem State.modRegion_cur (s : State) (l : Nat) (f : Region → Region) : (s.modRegion l f).cur = s.cur := rfl
@[simp] theorem State.modRegion_stores (s : State) (l : Nat) (f : Region → Region) : (s.modRegion l f).stores = s.stores := rfl
@[simp] theorem State.modRegion_half (s : State) (l : Nat) (f : Region → Region) : (s.modRegion l f).half = s.half := rfl
@[simp] theorem State.modRegion_chron (s : State) (l : Nat) (f : Region → Region) : (s.modRegion l f).chron = s.chron := rfl
@[simp] theorem State.modRegion_mem (s : State) (l : Nat) (f : Region → Region) : (s.modRegion l f).mem = s.mem := rfl
@[simp] theorem State.modRegion_poison (s : State) (l : Nat) (f : Region → Region) : (s.modRegion l f).poison = s.poison := rfl
@[simp] theorem State.modRegion_upsets (s : State) (l : Nat) (f : Region → Region) : (s.modRegion l f).upsets = s.upsets := rfl
@[simp] theorem State.modRegion_banks (s : State) (l : Nat) (f : Region → Region) : (s.modRegion l f).banks = s.banks := rfl
@[simp] theorem State.modRegion_failed (s : State) (l : Nat) (f : Region → Region) : (s.modRegion l f).failed = s.failed := rfl
@[simp] theorem State.modRegion_harvest (s : State) (l : Nat) (f : Region → Region) : (s.modRegion l f).harvest = s.harvest := rfl
@[simp] theorem State.modRegion_strips (s : State) (l : Nat) (f : Region → Region) : (s.modRegion l f).strips = s.strips := rfl
@[simp] theorem State.modRegion_hot (s : State) (l : Nat) (f : Region → Region) : (s.modRegion l f).hot = s.hot := rfl
@[simp] theorem State.modRegion_hotNext (s : State) (l : Nat) (f : Region → Region) : (s.modRegion l f).hotNext = s.hotNext := rfl
@[simp] theorem State.modRegion_therm (s : State) (l : Nat) (f : Region → Region) : (s.modRegion l f).therm = s.therm := rfl
@[simp] theorem State.modRegion_walks (s : State) (l : Nat) (f : Region → Region) : (s.modRegion l f).walks = s.walks := rfl
@[simp] theorem State.modRegion_pilots (s : State) (l : Nat) (f : Region → Region) : (s.modRegion l f).pilots = s.pilots := rfl
@[simp] theorem State.modRegion_elems (s : State) (l : Nat) (f : Region → Region) : (s.modRegion l f).elems = s.elems := rfl
@[simp] theorem State.modRegion_edges (s : State) (l : Nat) (f : Region → Region) : (s.modRegion l f).edges = s.edges := rfl
@[simp] theorem State.modRegion_fifos (s : State) (l : Nat) (f : Region → Region) : (s.modRegion l f).fifos = s.fifos := rfl
@[simp] theorem State.modRegion_regions (s : State) (l : Nat) (f : Region → Region) : (s.modRegion l f).regions = s.regions.map (fun r => if r.lead = l then f r else r) := rfl
@[simp] theorem State.modRegion_kept (s : State) (l : Nat) (f : Region → Region) : (s.modRegion l f).kept = s.kept := rfl
@[simp] theorem State.modRegion_vds (s : State) (l : Nat) (f : Region → Region) : (s.modRegion l f).vds = s.vds := rfl
@[simp] theorem State.modRegion_lastVd (s : State) (l : Nat) (f : Region → Region) : (s.modRegion l f).lastVd = s.lastVd := rfl
@[simp] theorem State.modRegion_incs (s : State) (l : Nat) (f : Region → Region) : (s.modRegion l f).incs = s.incs := rfl
@[simp] theorem State.modRegion_cmdNo (s : State) (l : Nat) (f : Region → Region) : (s.modRegion l f).cmdNo = s.cmdNo := rfl
@[simp] theorem State.modRegion_change (s : State) (l : Nat) (f : Region → Region) : (s.modRegion l f).change = s.change := rfl
@[simp] theorem State.modRegion_snaps (s : State) (l : Nat) (f : Region → Region) : (s.modRegion l f).snaps = s.snaps := rfl
@[simp] theorem State.modRegion_snapNo (s : State) (l : Nat) (f : Region → Region) : (s.modRegion l f).snapNo = s.snapNo := rfl
@[simp] theorem State.modRegion_dirty (s : State) (l : Nat) (f : Region → Region) : (s.modRegion l f).dirty = s.dirty := rfl
@[simp] theorem State.modRegion_cipher (s : State) (l : Nat) (f : Region → Region) : (s.modRegion l f).cipher = s.cipher := rfl
@[simp] theorem State.modRegion_hb (s : State) (l : Nat) (f : Region → Region) : (s.modRegion l f).hb = s.hb := rfl
@[simp] theorem State.modRegion_vox (s : State) (l : Nat) (f : Region → Region) : (s.modRegion l f).vox = s.vox := rfl

/-! ### `State.touch` -/

@[simp] theorem State.touch_agenda (s : State) (p : Nat) : (s.touch p).agenda = s.agenda := rfl
@[simp] theorem State.touch_draws (s : State) (p : Nat) : (s.touch p).draws = s.draws := rfl
@[simp] theorem State.touch_cur (s : State) (p : Nat) : (s.touch p).cur = s.cur := rfl
@[simp] theorem State.touch_stores (s : State) (p : Nat) : (s.touch p).stores = s.stores := rfl
@[simp] theorem State.touch_half (s : State) (p : Nat) : (s.touch p).half = s.half := rfl
@[simp] theorem State.touch_chron (s : State) (p : Nat) : (s.touch p).chron = s.chron := rfl
@[simp] theorem State.touch_mem (s : State) (p : Nat) : (s.touch p).mem = s.mem := rfl
@[simp] theorem State.touch_poison (s : State) (p : Nat) : (s.touch p).poison = s.poison := rfl
@[simp] theorem State.touch_upsets (s : State) (p : Nat) : (s.touch p).upsets = s.upsets := rfl
@[simp] theorem State.touch_banks (s : State) (p : Nat) : (s.touch p).banks = s.banks := rfl
@[simp] theorem State.touch_failed (s : State) (p : Nat) : (s.touch p).failed = s.failed := rfl
@[simp] theorem State.touch_harvest (s : State) (p : Nat) : (s.touch p).harvest = s.harvest := rfl
@[simp] theorem State.touch_strips (s : State) (p : Nat) : (s.touch p).strips = s.strips := rfl
@[simp] theorem State.touch_hot (s : State) (p : Nat) : (s.touch p).hot = s.hot := rfl
@[simp] theorem State.touch_hotNext (s : State) (p : Nat) : (s.touch p).hotNext = s.hotNext := rfl
@[simp] theorem State.touch_therm (s : State) (p : Nat) : (s.touch p).therm = s.therm := rfl
@[simp] theorem State.touch_walks (s : State) (p : Nat) : (s.touch p).walks = s.walks := rfl
@[simp] theorem State.touch_pilots (s : State) (p : Nat) : (s.touch p).pilots = s.pilots := rfl
@[simp] theorem State.touch_elems (s : State) (p : Nat) : (s.touch p).elems = s.elems := rfl
@[simp] theorem State.touch_edges (s : State) (p : Nat) : (s.touch p).edges = s.edges := rfl
@[simp] theorem State.touch_fifos (s : State) (p : Nat) : (s.touch p).fifos = s.fifos := rfl
@[simp] theorem State.touch_regions (s : State) (p : Nat) : (s.touch p).regions = s.regions.map (fun r => if r.holds p then { r with seen := s.chron.toNat } else r) := rfl
@[simp] theorem State.touch_kept (s : State) (p : Nat) : (s.touch p).kept = s.kept := rfl
@[simp] theorem State.touch_vds (s : State) (p : Nat) : (s.touch p).vds = s.vds := rfl
@[simp] theorem State.touch_lastVd (s : State) (p : Nat) : (s.touch p).lastVd = s.lastVd := rfl
@[simp] theorem State.touch_incs (s : State) (p : Nat) : (s.touch p).incs = s.incs := rfl
@[simp] theorem State.touch_cmdNo (s : State) (p : Nat) : (s.touch p).cmdNo = s.cmdNo := rfl
@[simp] theorem State.touch_change (s : State) (p : Nat) : (s.touch p).change = s.change := rfl
@[simp] theorem State.touch_snaps (s : State) (p : Nat) : (s.touch p).snaps = s.snaps := rfl
@[simp] theorem State.touch_snapNo (s : State) (p : Nat) : (s.touch p).snapNo = s.snapNo := rfl
@[simp] theorem State.touch_dirty (s : State) (p : Nat) : (s.touch p).dirty = s.dirty := rfl
@[simp] theorem State.touch_cipher (s : State) (p : Nat) : (s.touch p).cipher = s.cipher := rfl
@[simp] theorem State.touch_hb (s : State) (p : Nat) : (s.touch p).hb = s.hb := rfl
@[simp] theorem State.touch_vox (s : State) (p : Nat) : (s.touch p).vox = s.vox := rfl

/-! ### `State.put` -/

@[simp] theorem State.put_agenda (s : State) (a : Nat) (l : List Byte) : (s.put a l).agenda = s.agenda := rfl
@[simp] theorem State.put_draws (s : State) (a : Nat) (l : List Byte) : (s.put a l).draws = s.draws := rfl
@[simp] theorem State.put_cur (s : State) (a : Nat) (l : List Byte) : (s.put a l).cur = s.cur := rfl
@[simp] theorem State.put_stores (s : State) (a : Nat) (l : List Byte) : (s.put a l).stores = .bytes a l :: s.stores := rfl
@[simp] theorem State.put_half (s : State) (a : Nat) (l : List Byte) : (s.put a l).half = s.half := rfl
@[simp] theorem State.put_chron (s : State) (a : Nat) (l : List Byte) : (s.put a l).chron = s.chron := rfl
@[simp] theorem State.put_mem (s : State) (a : Nat) (l : List Byte) : (s.put a l).mem = s.mem := rfl
@[simp] theorem State.put_poison (s : State) (a : Nat) (l : List Byte) : (s.put a l).poison = s.poison := rfl
@[simp] theorem State.put_upsets (s : State) (a : Nat) (l : List Byte) : (s.put a l).upsets = s.upsets := rfl
@[simp] theorem State.put_banks (s : State) (a : Nat) (l : List Byte) : (s.put a l).banks = s.banks := rfl
@[simp] theorem State.put_failed (s : State) (a : Nat) (l : List Byte) : (s.put a l).failed = s.failed := rfl
@[simp] theorem State.put_harvest (s : State) (a : Nat) (l : List Byte) : (s.put a l).harvest = s.harvest := rfl
@[simp] theorem State.put_strips (s : State) (a : Nat) (l : List Byte) : (s.put a l).strips = s.strips := rfl
@[simp] theorem State.put_hot (s : State) (a : Nat) (l : List Byte) : (s.put a l).hot = s.hot := rfl
@[simp] theorem State.put_hotNext (s : State) (a : Nat) (l : List Byte) : (s.put a l).hotNext = s.hotNext := rfl
@[simp] theorem State.put_therm (s : State) (a : Nat) (l : List Byte) : (s.put a l).therm = s.therm := rfl
@[simp] theorem State.put_walks (s : State) (a : Nat) (l : List Byte) : (s.put a l).walks = s.walks := rfl
@[simp] theorem State.put_pilots (s : State) (a : Nat) (l : List Byte) : (s.put a l).pilots = s.pilots := rfl
@[simp] theorem State.put_elems (s : State) (a : Nat) (l : List Byte) : (s.put a l).elems = s.elems := rfl
@[simp] theorem State.put_edges (s : State) (a : Nat) (l : List Byte) : (s.put a l).edges = s.edges := rfl
@[simp] theorem State.put_fifos (s : State) (a : Nat) (l : List Byte) : (s.put a l).fifos = s.fifos := rfl
@[simp] theorem State.put_regions (s : State) (a : Nat) (l : List Byte) : (s.put a l).regions = s.regions := rfl
@[simp] theorem State.put_kept (s : State) (a : Nat) (l : List Byte) : (s.put a l).kept = s.kept := rfl
@[simp] theorem State.put_vds (s : State) (a : Nat) (l : List Byte) : (s.put a l).vds = s.vds := rfl
@[simp] theorem State.put_lastVd (s : State) (a : Nat) (l : List Byte) : (s.put a l).lastVd = s.lastVd := rfl
@[simp] theorem State.put_incs (s : State) (a : Nat) (l : List Byte) : (s.put a l).incs = s.incs := rfl
@[simp] theorem State.put_cmdNo (s : State) (a : Nat) (l : List Byte) : (s.put a l).cmdNo = s.cmdNo := rfl
@[simp] theorem State.put_change (s : State) (a : Nat) (l : List Byte) : (s.put a l).change = s.change := rfl
@[simp] theorem State.put_snaps (s : State) (a : Nat) (l : List Byte) : (s.put a l).snaps = s.snaps := rfl
@[simp] theorem State.put_snapNo (s : State) (a : Nat) (l : List Byte) : (s.put a l).snapNo = s.snapNo := rfl
@[simp] theorem State.put_dirty (s : State) (a : Nat) (l : List Byte) : (s.put a l).dirty = s.dirty := rfl
@[simp] theorem State.put_cipher (s : State) (a : Nat) (l : List Byte) : (s.put a l).cipher = s.cipher := rfl
@[simp] theorem State.put_hb (s : State) (a : Nat) (l : List Byte) : (s.put a l).hb = s.hb := rfl
@[simp] theorem State.put_vox (s : State) (a : Nat) (l : List Byte) : (s.put a l).vox = s.vox := rfl

/-! ### `State.putZero` -/

@[simp] theorem State.putZero_agenda (s : State) (a n : Nat) : (s.putZero a n).agenda = s.agenda := rfl
@[simp] theorem State.putZero_draws (s : State) (a n : Nat) : (s.putZero a n).draws = s.draws := rfl
@[simp] theorem State.putZero_cur (s : State) (a n : Nat) : (s.putZero a n).cur = s.cur := rfl
@[simp] theorem State.putZero_stores (s : State) (a n : Nat) : (s.putZero a n).stores = .zero a n :: s.stores := rfl
@[simp] theorem State.putZero_half (s : State) (a n : Nat) : (s.putZero a n).half = s.half := rfl
@[simp] theorem State.putZero_chron (s : State) (a n : Nat) : (s.putZero a n).chron = s.chron := rfl
@[simp] theorem State.putZero_mem (s : State) (a n : Nat) : (s.putZero a n).mem = s.mem := rfl
@[simp] theorem State.putZero_poison (s : State) (a n : Nat) : (s.putZero a n).poison = s.poison := rfl
@[simp] theorem State.putZero_upsets (s : State) (a n : Nat) : (s.putZero a n).upsets = s.upsets := rfl
@[simp] theorem State.putZero_banks (s : State) (a n : Nat) : (s.putZero a n).banks = s.banks := rfl
@[simp] theorem State.putZero_failed (s : State) (a n : Nat) : (s.putZero a n).failed = s.failed := rfl
@[simp] theorem State.putZero_harvest (s : State) (a n : Nat) : (s.putZero a n).harvest = s.harvest := rfl
@[simp] theorem State.putZero_strips (s : State) (a n : Nat) : (s.putZero a n).strips = s.strips := rfl
@[simp] theorem State.putZero_hot (s : State) (a n : Nat) : (s.putZero a n).hot = s.hot := rfl
@[simp] theorem State.putZero_hotNext (s : State) (a n : Nat) : (s.putZero a n).hotNext = s.hotNext := rfl
@[simp] theorem State.putZero_therm (s : State) (a n : Nat) : (s.putZero a n).therm = s.therm := rfl
@[simp] theorem State.putZero_walks (s : State) (a n : Nat) : (s.putZero a n).walks = s.walks := rfl
@[simp] theorem State.putZero_pilots (s : State) (a n : Nat) : (s.putZero a n).pilots = s.pilots := rfl
@[simp] theorem State.putZero_elems (s : State) (a n : Nat) : (s.putZero a n).elems = s.elems := rfl
@[simp] theorem State.putZero_edges (s : State) (a n : Nat) : (s.putZero a n).edges = s.edges := rfl
@[simp] theorem State.putZero_fifos (s : State) (a n : Nat) : (s.putZero a n).fifos = s.fifos := rfl
@[simp] theorem State.putZero_regions (s : State) (a n : Nat) : (s.putZero a n).regions = s.regions := rfl
@[simp] theorem State.putZero_kept (s : State) (a n : Nat) : (s.putZero a n).kept = s.kept := rfl
@[simp] theorem State.putZero_vds (s : State) (a n : Nat) : (s.putZero a n).vds = s.vds := rfl
@[simp] theorem State.putZero_lastVd (s : State) (a n : Nat) : (s.putZero a n).lastVd = s.lastVd := rfl
@[simp] theorem State.putZero_incs (s : State) (a n : Nat) : (s.putZero a n).incs = s.incs := rfl
@[simp] theorem State.putZero_cmdNo (s : State) (a n : Nat) : (s.putZero a n).cmdNo = s.cmdNo := rfl
@[simp] theorem State.putZero_change (s : State) (a n : Nat) : (s.putZero a n).change = s.change := rfl
@[simp] theorem State.putZero_snaps (s : State) (a n : Nat) : (s.putZero a n).snaps = s.snaps := rfl
@[simp] theorem State.putZero_snapNo (s : State) (a n : Nat) : (s.putZero a n).snapNo = s.snapNo := rfl
@[simp] theorem State.putZero_dirty (s : State) (a n : Nat) : (s.putZero a n).dirty = s.dirty := rfl
@[simp] theorem State.putZero_cipher (s : State) (a n : Nat) : (s.putZero a n).cipher = s.cipher := rfl
@[simp] theorem State.putZero_hb (s : State) (a n : Nat) : (s.putZero a n).hb = s.hb := rfl
@[simp] theorem State.putZero_vox (s : State) (a n : Nat) : (s.putZero a n).vox = s.vox := rfl

/-! ### `State.cleanUnit` -/

@[simp] theorem State.cleanUnit_agenda (s : State) (a : Nat) : (s.cleanUnit a).agenda = s.agenda := rfl
@[simp] theorem State.cleanUnit_draws (s : State) (a : Nat) : (s.cleanUnit a).draws = s.draws := rfl
@[simp] theorem State.cleanUnit_cur (s : State) (a : Nat) : (s.cleanUnit a).cur = s.cur := rfl
@[simp] theorem State.cleanUnit_stores (s : State) (a : Nat) : (s.cleanUnit a).stores = s.stores := rfl
@[simp] theorem State.cleanUnit_half (s : State) (a : Nat) : (s.cleanUnit a).half = s.half := rfl
@[simp] theorem State.cleanUnit_chron (s : State) (a : Nat) : (s.cleanUnit a).chron = s.chron := rfl
@[simp] theorem State.cleanUnit_mem (s : State) (a : Nat) : (s.cleanUnit a).mem = s.mem := rfl
@[simp] theorem State.cleanUnit_poison (s : State) (a : Nat) : (s.cleanUnit a).poison = s.poison.filter (· != unitOf a) := rfl
@[simp] theorem State.cleanUnit_upsets (s : State) (a : Nat) : (s.cleanUnit a).upsets = tdel s.upsets (unitOf a) := rfl
@[simp] theorem State.cleanUnit_banks (s : State) (a : Nat) : (s.cleanUnit a).banks = s.banks := rfl
@[simp] theorem State.cleanUnit_failed (s : State) (a : Nat) : (s.cleanUnit a).failed = s.failed := rfl
@[simp] theorem State.cleanUnit_harvest (s : State) (a : Nat) : (s.cleanUnit a).harvest = s.harvest := rfl
@[simp] theorem State.cleanUnit_strips (s : State) (a : Nat) : (s.cleanUnit a).strips = s.strips := rfl
@[simp] theorem State.cleanUnit_hot (s : State) (a : Nat) : (s.cleanUnit a).hot = s.hot := rfl
@[simp] theorem State.cleanUnit_hotNext (s : State) (a : Nat) : (s.cleanUnit a).hotNext = s.hotNext := rfl
@[simp] theorem State.cleanUnit_therm (s : State) (a : Nat) : (s.cleanUnit a).therm = s.therm := rfl
@[simp] theorem State.cleanUnit_walks (s : State) (a : Nat) : (s.cleanUnit a).walks = s.walks := rfl
@[simp] theorem State.cleanUnit_pilots (s : State) (a : Nat) : (s.cleanUnit a).pilots = s.pilots := rfl
@[simp] theorem State.cleanUnit_elems (s : State) (a : Nat) : (s.cleanUnit a).elems = s.elems := rfl
@[simp] theorem State.cleanUnit_edges (s : State) (a : Nat) : (s.cleanUnit a).edges = s.edges := rfl
@[simp] theorem State.cleanUnit_fifos (s : State) (a : Nat) : (s.cleanUnit a).fifos = s.fifos := rfl
@[simp] theorem State.cleanUnit_regions (s : State) (a : Nat) : (s.cleanUnit a).regions = s.regions := rfl
@[simp] theorem State.cleanUnit_kept (s : State) (a : Nat) : (s.cleanUnit a).kept = s.kept := rfl
@[simp] theorem State.cleanUnit_vds (s : State) (a : Nat) : (s.cleanUnit a).vds = s.vds := rfl
@[simp] theorem State.cleanUnit_lastVd (s : State) (a : Nat) : (s.cleanUnit a).lastVd = s.lastVd := rfl
@[simp] theorem State.cleanUnit_incs (s : State) (a : Nat) : (s.cleanUnit a).incs = s.incs := rfl
@[simp] theorem State.cleanUnit_cmdNo (s : State) (a : Nat) : (s.cleanUnit a).cmdNo = s.cmdNo := rfl
@[simp] theorem State.cleanUnit_change (s : State) (a : Nat) : (s.cleanUnit a).change = s.change := rfl
@[simp] theorem State.cleanUnit_snaps (s : State) (a : Nat) : (s.cleanUnit a).snaps = s.snaps := rfl
@[simp] theorem State.cleanUnit_snapNo (s : State) (a : Nat) : (s.cleanUnit a).snapNo = s.snapNo := rfl
@[simp] theorem State.cleanUnit_dirty (s : State) (a : Nat) : (s.cleanUnit a).dirty = s.dirty := rfl
@[simp] theorem State.cleanUnit_cipher (s : State) (a : Nat) : (s.cleanUnit a).cipher = s.cipher := rfl
@[simp] theorem State.cleanUnit_hb (s : State) (a : Nat) : (s.cleanUnit a).hb = s.hb := rfl
@[simp] theorem State.cleanUnit_vox (s : State) (a : Nat) : (s.cleanUnit a).vox = s.vox := rfl

/-! ### `State.soon` -/

@[simp] theorem State.soon_agenda (s : State) (i : Instr) (x y z : Nat) : (s.soon i x y z).agenda = .event i x y z :: s.agenda := rfl
@[simp] theorem State.soon_draws (s : State) (i : Instr) (x y z : Nat) : (s.soon i x y z).draws = s.draws := rfl
@[simp] theorem State.soon_cur (s : State) (i : Instr) (x y z : Nat) : (s.soon i x y z).cur = s.cur := rfl
@[simp] theorem State.soon_stores (s : State) (i : Instr) (x y z : Nat) : (s.soon i x y z).stores = s.stores := rfl
@[simp] theorem State.soon_half (s : State) (i : Instr) (x y z : Nat) : (s.soon i x y z).half = s.half := rfl
@[simp] theorem State.soon_chron (s : State) (i : Instr) (x y z : Nat) : (s.soon i x y z).chron = s.chron := rfl
@[simp] theorem State.soon_mem (s : State) (i : Instr) (x y z : Nat) : (s.soon i x y z).mem = s.mem := rfl
@[simp] theorem State.soon_poison (s : State) (i : Instr) (x y z : Nat) : (s.soon i x y z).poison = s.poison := rfl
@[simp] theorem State.soon_upsets (s : State) (i : Instr) (x y z : Nat) : (s.soon i x y z).upsets = s.upsets := rfl
@[simp] theorem State.soon_banks (s : State) (i : Instr) (x y z : Nat) : (s.soon i x y z).banks = s.banks := rfl
@[simp] theorem State.soon_failed (s : State) (i : Instr) (x y z : Nat) : (s.soon i x y z).failed = s.failed := rfl
@[simp] theorem State.soon_harvest (s : State) (i : Instr) (x y z : Nat) : (s.soon i x y z).harvest = s.harvest := rfl
@[simp] theorem State.soon_strips (s : State) (i : Instr) (x y z : Nat) : (s.soon i x y z).strips = s.strips := rfl
@[simp] theorem State.soon_hot (s : State) (i : Instr) (x y z : Nat) : (s.soon i x y z).hot = s.hot := rfl
@[simp] theorem State.soon_hotNext (s : State) (i : Instr) (x y z : Nat) : (s.soon i x y z).hotNext = s.hotNext := rfl
@[simp] theorem State.soon_therm (s : State) (i : Instr) (x y z : Nat) : (s.soon i x y z).therm = s.therm := rfl
@[simp] theorem State.soon_walks (s : State) (i : Instr) (x y z : Nat) : (s.soon i x y z).walks = s.walks := rfl
@[simp] theorem State.soon_pilots (s : State) (i : Instr) (x y z : Nat) : (s.soon i x y z).pilots = s.pilots := rfl
@[simp] theorem State.soon_elems (s : State) (i : Instr) (x y z : Nat) : (s.soon i x y z).elems = s.elems := rfl
@[simp] theorem State.soon_edges (s : State) (i : Instr) (x y z : Nat) : (s.soon i x y z).edges = s.edges := rfl
@[simp] theorem State.soon_fifos (s : State) (i : Instr) (x y z : Nat) : (s.soon i x y z).fifos = s.fifos := rfl
@[simp] theorem State.soon_regions (s : State) (i : Instr) (x y z : Nat) : (s.soon i x y z).regions = s.regions := rfl
@[simp] theorem State.soon_kept (s : State) (i : Instr) (x y z : Nat) : (s.soon i x y z).kept = s.kept := rfl
@[simp] theorem State.soon_vds (s : State) (i : Instr) (x y z : Nat) : (s.soon i x y z).vds = s.vds := rfl
@[simp] theorem State.soon_lastVd (s : State) (i : Instr) (x y z : Nat) : (s.soon i x y z).lastVd = s.lastVd := rfl
@[simp] theorem State.soon_incs (s : State) (i : Instr) (x y z : Nat) : (s.soon i x y z).incs = s.incs := rfl
@[simp] theorem State.soon_cmdNo (s : State) (i : Instr) (x y z : Nat) : (s.soon i x y z).cmdNo = s.cmdNo := rfl
@[simp] theorem State.soon_change (s : State) (i : Instr) (x y z : Nat) : (s.soon i x y z).change = s.change := rfl
@[simp] theorem State.soon_snaps (s : State) (i : Instr) (x y z : Nat) : (s.soon i x y z).snaps = s.snaps := rfl
@[simp] theorem State.soon_snapNo (s : State) (i : Instr) (x y z : Nat) : (s.soon i x y z).snapNo = s.snapNo := rfl
@[simp] theorem State.soon_dirty (s : State) (i : Instr) (x y z : Nat) : (s.soon i x y z).dirty = s.dirty := rfl
@[simp] theorem State.soon_cipher (s : State) (i : Instr) (x y z : Nat) : (s.soon i x y z).cipher = s.cipher := rfl
@[simp] theorem State.soon_hb (s : State) (i : Instr) (x y z : Nat) : (s.soon i x y z).hb = s.hb := rfl
@[simp] theorem State.soon_vox (s : State) (i : Instr) (x y z : Nat) : (s.soon i x y z).vox = s.vox := rfl

/-! ### `State.modCore` -/

@[simp] theorem State.modCore_agenda (s : State) (f : ElemCore → ElemCore) : (s.modCore f).agenda = s.agenda := rfl
@[simp] theorem State.modCore_draws (s : State) (f : ElemCore → ElemCore) : (s.modCore f).draws = s.draws := rfl
@[simp] theorem State.modCore_cur (s : State) (f : ElemCore → ElemCore) : (s.modCore f).cur = s.cur := rfl
@[simp] theorem State.modCore_stores (s : State) (f : ElemCore → ElemCore) : (s.modCore f).stores = s.stores := rfl
@[simp] theorem State.modCore_half (s : State) (f : ElemCore → ElemCore) : (s.modCore f).half = s.half := rfl
@[simp] theorem State.modCore_chron (s : State) (f : ElemCore → ElemCore) : (s.modCore f).chron = s.chron := rfl
@[simp] theorem State.modCore_mem (s : State) (f : ElemCore → ElemCore) : (s.modCore f).mem = s.mem := rfl
@[simp] theorem State.modCore_poison (s : State) (f : ElemCore → ElemCore) : (s.modCore f).poison = s.poison := rfl
@[simp] theorem State.modCore_upsets (s : State) (f : ElemCore → ElemCore) : (s.modCore f).upsets = s.upsets := rfl
@[simp] theorem State.modCore_banks (s : State) (f : ElemCore → ElemCore) : (s.modCore f).banks = s.banks := rfl
@[simp] theorem State.modCore_failed (s : State) (f : ElemCore → ElemCore) : (s.modCore f).failed = s.failed := rfl
@[simp] theorem State.modCore_harvest (s : State) (f : ElemCore → ElemCore) : (s.modCore f).harvest = s.harvest := rfl
@[simp] theorem State.modCore_strips (s : State) (f : ElemCore → ElemCore) : (s.modCore f).strips = s.strips := rfl
@[simp] theorem State.modCore_hot (s : State) (f : ElemCore → ElemCore) : (s.modCore f).hot = s.hot := rfl
@[simp] theorem State.modCore_hotNext (s : State) (f : ElemCore → ElemCore) : (s.modCore f).hotNext = s.hotNext := rfl
@[simp] theorem State.modCore_therm (s : State) (f : ElemCore → ElemCore) : (s.modCore f).therm = s.therm := rfl
@[simp] theorem State.modCore_walks (s : State) (f : ElemCore → ElemCore) : (s.modCore f).walks = s.walks := rfl
@[simp] theorem State.modCore_pilots (s : State) (f : ElemCore → ElemCore) : (s.modCore f).pilots = s.pilots := rfl
@[simp] theorem State.modCore_elems (s : State) (f : ElemCore → ElemCore) : (s.modCore f).elems = tset s.elems s.cur.elem { (s.elem s.cur.elem) with core := f (s.elem s.cur.elem).core } := rfl
@[simp] theorem State.modCore_edges (s : State) (f : ElemCore → ElemCore) : (s.modCore f).edges = s.edges := rfl
@[simp] theorem State.modCore_fifos (s : State) (f : ElemCore → ElemCore) : (s.modCore f).fifos = s.fifos := rfl
@[simp] theorem State.modCore_regions (s : State) (f : ElemCore → ElemCore) : (s.modCore f).regions = s.regions := rfl
@[simp] theorem State.modCore_kept (s : State) (f : ElemCore → ElemCore) : (s.modCore f).kept = s.kept := rfl
@[simp] theorem State.modCore_vds (s : State) (f : ElemCore → ElemCore) : (s.modCore f).vds = s.vds := rfl
@[simp] theorem State.modCore_lastVd (s : State) (f : ElemCore → ElemCore) : (s.modCore f).lastVd = s.lastVd := rfl
@[simp] theorem State.modCore_incs (s : State) (f : ElemCore → ElemCore) : (s.modCore f).incs = s.incs := rfl
@[simp] theorem State.modCore_cmdNo (s : State) (f : ElemCore → ElemCore) : (s.modCore f).cmdNo = s.cmdNo := rfl
@[simp] theorem State.modCore_change (s : State) (f : ElemCore → ElemCore) : (s.modCore f).change = s.change := rfl
@[simp] theorem State.modCore_snaps (s : State) (f : ElemCore → ElemCore) : (s.modCore f).snaps = s.snaps := rfl
@[simp] theorem State.modCore_snapNo (s : State) (f : ElemCore → ElemCore) : (s.modCore f).snapNo = s.snapNo := rfl
@[simp] theorem State.modCore_dirty (s : State) (f : ElemCore → ElemCore) : (s.modCore f).dirty = s.dirty := rfl
@[simp] theorem State.modCore_cipher (s : State) (f : ElemCore → ElemCore) : (s.modCore f).cipher = s.cipher := rfl
@[simp] theorem State.modCore_hb (s : State) (f : ElemCore → ElemCore) : (s.modCore f).hb = s.hb := rfl
@[simp] theorem State.modCore_vox (s : State) (f : ElemCore → ElemCore) : (s.modCore f).vox = s.vox := rfl

end Sys2Proof.Machine
end

