-- ==== Sys2Proof/Laws/Tables.lean ====
section
/-!
SUPPORT. Reading after writing, for sparse tables and fixed arrays.
-/
namespace Sys2Proof.Machine
open Sys2Proof

@[simp] theorem tget_tset_same {α : Type} (t : Tbl α) (k : Nat) (a d : α) : tget (tset t k a) k d = a := by
  induction t with
  | nil => simp [tset, tget]
  | cons h r ih =>
    obtain ⟨j, b⟩ := h
    by_cases hj : j = k <;> simp [tset, tget, hj, ih]

theorem tget_tset_ne {α : Type} (t : Tbl α) (k j : Nat) (a d : α) (h : j ≠ k) : tget (tset t k a) j d = tget t j d := by
  induction t with
  | nil => simp [tset, tget, Ne.symm h]
  | cons x r ih =>
    obtain ⟨i, b⟩ := x
    by_cases hi : i = k
    · subst hi; simp [tset, tget, Ne.symm h]
    · by_cases hij : i = j
      · subst hij; simp [tset, tget, hi]
      · simp [tset, tget, hi, hij, ih]

theorem tget_tset {α : Type} (t : Tbl α) (k j : Nat) (a d : α) :
    tget (tset t k a) j d = if j = k then a else tget t j d := by
  by_cases h : j = k
  · subst h; simp
  · simp [h, tget_tset_ne]

@[simp] theorem tfind_tset_same {α : Type} (t : Tbl α) (k : Nat) (a : α) : tfind (tset t k a) k = some a := by
  induction t with
  | nil => simp [tset, tfind]
  | cons h r ih =>
    obtain ⟨j, b⟩ := h
    by_cases hj : j = k <;> simp [tset, tfind, hj, ih]

@[simp] theorem tset_tset {α : Type} (t : Tbl α) (k : Nat) (a b : α) : tset (tset t k a) k b = tset t k b := by
  induction t with
  | nil => simp [tset]
  | cons h r ih =>
    obtain ⟨j, c⟩ := h
    by_cases hj : j = k <;> simp [tset, hj, ih]

theorem vg_vs {α : Type} {n : Nat} (v : Vector α n) (i j : Nat) (a d : α) :
    vg (vs v i a) j d = if j = i ∧ i < n then a else vg v j d := by
  unfold vg vs
  by_cases hj : j = i
  · subst hj
    by_cases hn : j < n
    · simp [hn]
    · simp [hn]
  · simp [hj, Ne.symm hj]

@[simp] theorem vg_vs_same {α : Type} {n : Nat} (v : Vector α n) (i : Nat) (a d : α) (h : i < n) : vg (vs v i a) i d = a := by
  simp [vg_vs, h]

theorem vg_vs_ne {α : Type} {n : Nat} (v : Vector α n) (i j : Nat) (a d : α) (h : j ≠ i) : vg (vs v i a) j d = vg v j d := by
  simp [vg_vs, h]

@[simp] theorem vs_vs {α : Type} {n : Nat} (v : Vector α n) (i : Nat) (a b : α) : vs (vs v i a) i b = vs v i b := by
  unfold vs
  simp

end Sys2Proof.Machine
end

