-- ==== Sys2Proof/Laws/Elem.lean ====
section
/-!
SUPPORT. What the shared operations of a firing do: the heads dequeued, a result delivered, the common form of vector instructions
(R207, R213, R244, R245).
-/
namespace Sys2Proof.Machine
open Sys2Proof Sys2Proof.Claims

theorem State.elem_setElem (s : State) (e f : Nat) (v : Elem) : (s.setElem e v).elem f = if f = e then v else s.elem f := by
  simp [State.elem, tget_tset]

@[simp] theorem State.elem_modElem_same (s : State) (e : Nat) (f : Elem → Elem) : (s.modElem e f).elem e = f (s.elem e) := by
  simp [State.modElem, State.elem_setElem]

theorem State.elem_modElem_ne (s : State) (e g : Nat) (f : Elem → Elem) (h : g ≠ e) : (s.modElem e f).elem g = s.elem g := by
  simp [State.modElem, State.elem_setElem, h]

@[simp] theorem State.core_modCore (s : State) (f : ElemCore → ElemCore) : (s.modCore f).core = f s.core := by
  show ((s.modElem s.cur.elem _).elem s.cur.elem).core = _
  rw [State.elem_modElem_same]; rfl

theorem State.ctx_modCtx (s : State) (f : Ctx → Ctx) (h : s.cur.ctx < 8) : (s.modCtx f).ctx = f s.ctx := by
  show vg (s.modCtx f).core.ctx s.cur.ctx (Ctx.activated 0) = _
  unfold State.modCtx
  rw [State.core_modCore]
  exact vg_vs_same _ _ _ _ h

/-- One firing's change of the firing element's core: contexts other than the firing one stay, the rest of the element stays. -/
structure CoreStep (s t : State) : Prop where
  rest : t = { s with elems := t.elems, draws := t.draws }
  others : ∀ e, e ≠ s.cur.elem → t.elem e = s.elem e
  elem : t.elem s.cur.elem = { s.elem s.cur.elem with core := t.core }
  core : t.core = { s.core with ctx := t.core.ctx, inp := t.core.inp, out := t.core.out }
  ctxs : ∀ c, c ≠ s.cur.ctx → vg t.core.ctx c (Ctx.activated 0) = vg s.core.ctx c (Ctx.activated 0)

theorem CoreStep.refl (s : State) : CoreStep s s := ⟨rfl, fun _ _ => rfl, rfl, rfl, fun _ _ => rfl⟩

theorem CoreStep.cur {s t : State} (h : CoreStep s t) : t.cur = s.cur := by rw [h.rest]

theorem CoreStep.byte {s t : State} (h : CoreStep s t) (k : Nat) : t.byte k = s.byte k := by rw [h.rest]; rfl

theorem CoreStep.trans {s t u : State} (h : CoreStep s t) (g : CoreStep t u) : CoreStep s u := by
  have hc := h.cur
  refine ⟨?_, ?_, ?_, ?_, ?_⟩
  · rw [g.rest, h.rest]
  · intro e he; rw [g.others e (by rw [hc]; exact he), h.others e he]
  · have := g.elem; rw [hc, h.elem] at this; exact this
  · rw [g.core, h.core]
  · intro c hcc; rw [g.ctxs c (by rw [hc]; exact hcc), h.ctxs c hcc]

theorem CoreStep.modCore (s : State) (f : ElemCore → ElemCore)
    (h1 : f s.core = { s.core with ctx := (f s.core).ctx, inp := (f s.core).inp, out := (f s.core).out })
    (h2 : ∀ c, c ≠ s.cur.ctx → vg (f s.core).ctx c (Ctx.activated 0) = vg s.core.ctx c (Ctx.activated 0)) :
    CoreStep s (s.modCore f) := by
  refine ⟨rfl, fun e he => State.elem_modElem_ne s _ e _ he, ?_, ?_, ?_⟩
  · rw [State.core_modCore]; show (s.modElem s.cur.elem _).elem s.cur.elem = _; rw [State.elem_modElem_same]; rfl
  · rw [State.core_modCore]; exact h1
  · rw [State.core_modCore]; exact h2

theorem CoreStep.modCtx (s : State) (f : Ctx → Ctx) : CoreStep s (s.modCtx f) :=
  CoreStep.modCore s _ rfl (fun _ hc => vg_vs_ne _ _ _ _ _ hc)

/-- The heads after the dequeues of a firing (R213). -/
def headsAfter (s : State) (o : Op) (k : Nat) : List Token :=
  if (o.dqa = true ∧ o.a.toNat = 8 + k) ∨ (o.dqb = true ∧ o.b.toNat = 8 + k) then (vg s.core.inp k []).tail else vg s.core.inp k []

theorem State.popHead_step (s : State) (k : Nat) : CoreStep s (s.popHead k) :=
  CoreStep.modCore s _ rfl (fun _ _ => rfl)

theorem State.popHead_inp (s : State) (k j : Nat) (h : k < 4) :
    vg (s.popHead k).core.inp j [] = if j = k then (vg s.core.inp k []).tail else vg s.core.inp j [] := by
  unfold State.popHead; rw [State.core_modCore]
  simp [vg_vs, h]

theorem State.popHead_rest (s : State) (k : Nat) : (s.popHead k).core.ctx = s.core.ctx ∧ (s.popHead k).core.out = s.core.out := by
  unfold State.popHead; rw [State.core_modCore]; exact ⟨rfl, rfl⟩

/-- Dequeuing changes the firing element's inputs only. -/
theorem State.dequeue_spec (s : State) (o : Op) :
    CoreStep s (s.dequeue o) ∧ (s.dequeue o).core.ctx = s.core.ctx ∧ (s.dequeue o).core.out = s.core.out ∧
      (∀ k, k < 4 → vg (s.dequeue o).core.inp k [] = headsAfter s o k) := by
  unfold State.dequeue
  by_cases ha : (o.dqa && decide (8 ≤ o.a.toNat) && decide (o.a.toNat < 12)) = true
  · have ha' : o.dqa = true ∧ 8 ≤ o.a.toNat ∧ o.a.toNat < 12 := by simpa [and_assoc] using ha
    simp only [ha, if_true]
    have h1 := State.popHead_step s (o.a.toNat - 8)
    have r1 := State.popHead_rest s (o.a.toNat - 8)
    by_cases hb : (o.dqb && decide (8 ≤ o.b.toNat) && decide (o.b.toNat < 12) && !(o.dqa && decide (o.a = o.b))) = true
    · have hb' : ((o.dqb = true ∧ 8 ≤ o.b.toNat) ∧ o.b.toNat < 12) ∧ (o.dqa = false ∨ ¬ o.a = o.b) := by simpa using hb
      simp only [hb, if_true]
      have h2 := State.popHead_step (s.popHead (o.a.toNat - 8)) (o.b.toNat - 8)
      have r2 := State.popHead_rest (s.popHead (o.a.toNat - 8)) (o.b.toNat - 8)
      have hne : o.a.toNat ≠ o.b.toNat := fun e => hb'.2.elim (fun f => by simp [ha'.1] at f) (fun f => f (BitVec.toNat_inj.1 e))
      refine ⟨h1.trans h2, by rw [r2.1, r1.1], by rw [r2.2, r1.2], fun k hk => ?_⟩
      rw [State.popHead_inp _ _ _ (by omega), State.popHead_inp _ _ _ (by omega), State.popHead_inp _ _ _ (by omega)]
      unfold headsAfter
      by_cases e1 : k = o.b.toNat - 8
      · have e2 : ¬ o.b.toNat - 8 = o.a.toNat - 8 := by omega
        rw [if_pos e1, if_neg e2, if_pos (Or.inr ⟨hb'.1.1.1, by omega⟩), e1]
      · rw [if_neg e1]
        by_cases e2 : k = o.a.toNat - 8
        · rw [if_pos e2, if_pos (Or.inl ⟨ha'.1, by omega⟩), e2]
        · rw [if_neg e2, if_neg]
          rintro (⟨_, e⟩ | ⟨_, e⟩) <;> omega
    · simp only [hb, Bool.false_eq_true, if_false]
      refine ⟨h1, r1.1, r1.2, fun k hk => ?_⟩
      rw [State.popHead_inp _ _ _ (by omega)]
      unfold headsAfter
      by_cases e2 : k = o.a.toNat - 8
      · rw [if_pos e2, if_pos (Or.inl ⟨ha'.1, by omega⟩), e2]
      · rw [if_neg e2, if_neg]
        rintro (⟨_, e⟩ | ⟨e0, e⟩)
        · omega
        · apply hb
          have : ¬ o.a = o.b := fun e' => by rw [e'] at e2; omega
          simp [e0, this]; omega
  · have ha' : ¬ (o.dqa = true ∧ 8 ≤ o.a.toNat ∧ o.a.toNat < 12) := by simpa [and_assoc] using ha
    simp only [ha, Bool.false_eq_true, if_false]
    by_cases hb : (o.dqb && decide (8 ≤ o.b.toNat) && decide (o.b.toNat < 12) && !(o.dqa && decide (o.a = o.b))) = true
    · have hb' : ((o.dqb = true ∧ 8 ≤ o.b.toNat) ∧ o.b.toNat < 12) ∧ (o.dqa = false ∨ ¬ o.a = o.b) := by simpa using hb
      simp only [hb, if_true]
      have h2 := State.popHead_step s (o.b.toNat - 8)
      have r2 := State.popHead_rest s (o.b.toNat - 8)
      refine ⟨h2, r2.1, r2.2, fun k hk => ?_⟩
      rw [State.popHead_inp _ _ _ (by omega)]
      unfold headsAfter
      by_cases e1 : k = o.b.toNat - 8
      · rw [if_pos e1, if_pos (Or.inr ⟨hb'.1.1.1, by omega⟩), e1]
      · rw [if_neg e1, if_neg]
        rintro (⟨e0, e⟩ | ⟨_, e⟩)
        · exact ha' ⟨e0, by omega, by omega⟩
        · omega
    · simp only [hb, Bool.false_eq_true, if_false]
      refine ⟨CoreStep.refl s, trivial, trivial, fun k hk => ?_⟩
      unfold headsAfter
      rw [if_neg]
      rintro (⟨e0, e⟩ | ⟨e0, e⟩)
      · exact ha' ⟨e0, by omega, by omega⟩
      · apply hb
        have : o.dqa = false ∨ ¬ o.a = o.b := by
          cases hq : o.dqa with
          | false => exact .inl rfl
          | true => exact .inr (fun h2 => ha' ⟨hq, by rw [h2]; omega, by rw [h2]; omega⟩)
        have h3 : 8 ≤ o.b.toNat ∧ o.b.toNat < 12 := by omega
        simpa [e0] using And.intro h3 this

@[simp] theorem lane_ofLanes (f : Nat → Word) (k : Nat) (h : k < 8) : lane (ofLanes f) k = f k := by
  match k, h with
  | 0, _ | 1, _ | 2, _ | 3, _ | 4, _ | 5, _ | 6, _ | 7, _ =>
    apply BitVec.eq_of_getLsbD_eq
    intro i hi
    unfold lane ofLanes
    rw [BitVec.getLsbD_extractLsb']
    repeat rw [BitVec.getLsbD_append (n := _) (m := 32)]
    simp only [hi, decide_true, Bool.true_and]
    repeat first
      | rw [if_pos (by omega)]
      | rw [if_neg (by omega)]
    apply congrArg; omega

/-- Reserving a result changes the outstanding results of the context only (R245). -/
theorem State.reserve_spec (s : State) (lat : Nat) (d : List Dest) (g : Option Nat) (hc : s.cur.ctx < 8) :
    CoreStep s (s.reserve lat d g) ∧ (s.reserve lat d g).core.inp = s.core.inp ∧ (s.reserve lat d g).core.out = s.core.out ∧
      (s.reserve lat d g).ctx = { s.ctx with outst := (s.reserve lat d g).ctx.outst } := by
  unfold State.reserve
  split
  · exact ⟨CoreStep.refl s, rfl, rfl, rfl⟩
  · refine ⟨CoreStep.modCtx s _, ?_, ?_, ?_⟩
    · unfold State.modCtx; rw [State.core_modCore]
    · unfold State.modCtx; rw [State.core_modCore]
    · rw [State.ctx_modCtx _ _ hc]

/-- Entering a token appends it to one output buffer (R245). -/
theorem State.emit_spec (s : State) (out : Nat) (t : Token) (r : Bool) (c : Option (Nat × List Nat)) (ho : out < 4) :
    CoreStep s (s.emit out t r c) ∧ (s.emit out t r c).core.inp = s.core.inp ∧ (s.emit out t r c).ctx = s.ctx ∧
      (∃ q, vg (s.emit out t r c).core.out out [] = vg s.core.out out [] ++ [q] ∧ q.tok = { t with src := s.pathOf out }) ∧
      ∀ n, n ≠ out → vg (s.emit out t r c).core.out n [] = vg s.core.out n [] := by
  refine ⟨CoreStep.modCore s _ rfl (fun _ _ => rfl), ?_, ?_, ⟨{ tok := { t with src := s.pathOf out }, ready := r, counts := c }, ?_, rfl⟩, fun n hn => ?_⟩
  · unfold State.emit; rw [State.core_modCore]
  · show vg (s.emit out t r c).core.ctx _ _ = _
    unfold State.emit; rw [State.core_modCore]; rfl
  · unfold State.emit; rw [State.core_modCore]; exact vg_vs_same _ _ _ _ ho
  · unfold State.emit; rw [State.core_modCore]; exact vg_vs_ne _ _ _ _ _ hn

theorem lane_masked (s : State) (v : Payload) (k : Nat) (h : k < 8) :
    lane (s.masked v) k = if s.runs k = true then lane v k else 0 := by
  unfold State.masked; rw [lane_ofLanes _ _ h]

/-- What delivering a result does: one register or one output of the firing context, and the outstanding results (R207, R244, R245). -/
theorem State.deliver_spec (s : State) (dst : Nat) (val : Payload) (null poison : Bool) (lat : Nat) (hc : s.cur.ctx < 8)
    (hd : dst < 12) :
    CoreStep s (s.deliver dst val null poison 0 lat) ∧ (s.deliver dst val null poison 0 lat).core.inp = s.core.inp ∧
      (s.deliver dst val null poison 0 lat).ctx =
        { s.ctx with v := (s.deliver dst val null poison 0 lat).ctx.v, outst := (s.deliver dst val null poison 0 lat).ctx.outst } ∧
      resultOnly s (s.deliver dst val null poison 0 lat) dst ∧
      delivered s (s.deliver dst val null poison 0 lat) dst (lane val) null poison := by
  have close : ∀ t : State, CoreStep s t → t.core.inp = s.core.inp →
      (t.ctx = { s.ctx with v := t.ctx.v, outst := t.ctx.outst }) →
      (∀ n, n ≠ dst → vg t.ctx.v n VReg.zero = vg s.ctx.v n VReg.zero) →
      (∀ n, n + 8 ≠ dst → vg t.core.out n [] = vg s.core.out n []) → delivered s t dst (lane val) null poison →
      CoreStep s t ∧ t.core.inp = s.core.inp ∧ t.ctx = { s.ctx with v := t.ctx.v, outst := t.ctx.outst } ∧ resultOnly s t dst ∧
        delivered s t dst (lane val) null poison := by
    intro t h1 h2 h3 h4 h5 h6
    refine ⟨h1, h2, h3, ⟨?_, h4, h5⟩, h6⟩
    rw [h3]
  unfold State.deliver
  by_cases hv : dst < 8
  · rw [if_pos hv]
    obtain ⟨r1, r2, r3, r4⟩ := State.reserve_spec s lat [.vreg dst] none hc
    generalize s.reserve lat [.vreg dst] none = u at *
    have hu : u.cur.ctx < 8 := by rw [r1.cur]; exact hc
    have hr : ∀ k, u.runs k = s.runs k := fun k => by unfold State.runs; rw [r1.cur]
    have w : (u.writeV dst val null poison).ctx = _ := State.ctx_modCtx u _ hu
    have wi : (u.writeV dst val null poison).core = _ := State.core_modCore u _
    apply close
    · exact r1.trans (CoreStep.modCtx u _)
    · rw [wi]; exact r2
    · rw [w, r4]
    · intro n hn; rw [w]; show vg (vs u.ctx.v _ _) _ _ = _; rw [vg_vs_ne _ _ _ _ _ hn, r4]
    · intro n _; rw [wi]; show vg u.core.out _ _ = _; rw [r3]
    · refine ⟨fun _ => ?_, fun h => absurd hv (by omega)⟩
      rw [w]
      have e : vg u.ctx.v dst VReg.zero = vg s.ctx.v dst VReg.zero := by rw [r4]
      refine ⟨?_, ?_, ?_, ?_⟩
      · show (vg (vs u.ctx.v _ _) _ _).null = _; rw [vg_vs_same _ _ _ _ hv]
      · show (vg (vs u.ctx.v _ _) _ _).poison = _; rw [vg_vs_same _ _ _ _ hv]
      · intro hn; show (vg (vs u.ctx.v _ _) _ _).val = _; rw [vg_vs_same _ _ _ _ hv]; simp [hn, e]
      · intro hn k hk; show lane (vg (vs u.ctx.v _ _) _ _).val _ = _; rw [vg_vs_same _ _ _ _ hv]
        simp only [hn, Bool.false_eq_true, if_false]
        rw [lane_ofLanes _ _ hk, hr, e]
  · rw [if_neg hv]
    obtain ⟨r1, r2, r3, r4⟩ := State.reserve_spec s lat [.out (dst - 8)] none hc
    have ho : dst - 8 < 4 := by omega
    cases null with
    | true =>
      simp only [if_true]
      generalize hu : ({ s.reserve lat [.out (dst - 8)] none with draws := s.draws + 1 } : State) = u at *
      have c1 : CoreStep s u := by
        subst hu
        exact ⟨by rw [r1.rest], r1.others, r1.elem, r1.core, r1.ctxs⟩
      have ui : u.core.inp = s.core.inp := by subst hu; exact r2
      have uo : u.core.out = s.core.out := by subst hu; exact r3
      have uc : u.ctx = { s.ctx with outst := u.ctx.outst } := by subst hu; exact r4
      obtain ⟨e1, e2, e3, ⟨q, e4, e5⟩, e6⟩ := State.emit_spec u (dst - 8) (s.dataToken (s.masked s.nullPayload) true false 0)
        (s.atOnce lat) none ho
      apply close
      · exact c1.trans e1
      · rw [e2, ui]
      · rw [e3, uc]
      · intro n _; rw [e3, uc]
      · intro n hn; rw [e6 n (by omega), uo]
      · refine ⟨fun h => absurd h hv, fun _ => ⟨q, by rw [e4, uo], ?_, ?_, ?_, ?_, fun h => by simp at h⟩⟩ <;> rw [e5] <;>
          simp [State.dataToken]
    | false =>
      simp only [Bool.false_eq_true, if_false]
      obtain ⟨e1, e2, e3, ⟨q, e4, e5⟩, e6⟩ := State.emit_spec (s.reserve lat [.out (dst - 8)] none) (dst - 8)
        (s.dataToken (s.masked val) false poison 0) (s.atOnce lat) none ho
      apply close
      · exact r1.trans e1
      · rw [e2, r2]
      · rw [e3, r4]
      · intro n _; rw [e3, r4]
      · intro n hn; rw [e6 n (by omega), r3]
      · refine ⟨fun h => absurd h hv, fun _ => ⟨q, by rw [e4, r3], ?_, ?_, ?_, ?_, ?_⟩⟩ <;> rw [e5]
        · simp [State.dataToken]
        · simp [State.dataToken]
        · simp [State.dataToken]
        · simp [State.dataToken]
        · intro _ k hk; exact lane_masked s val k hk

/-- A result delivered to a firing whose heads are already taken satisfies the statements' form. -/
theorem State.fired (s u : State) (o : Op) (val : Payload) (null poison : Bool) (lat : Nat) (hc : s.cur.ctx < 8)
    (hd : o.dst.toNat < 12) (h1 : CoreStep s u) (h2 : ∀ k, k < 4 → vg u.core.inp k [] = headsAfter s o k)
    (h3 : u.core.out = s.core.out) (h4 : u.ctx = { s.ctx with aflags := u.ctx.aflags, sr := u.ctx.sr }) :
    firingFrame s (u.deliver o.dst.toNat val null poison 0 lat) o ∧
      resultOnly s (u.deliver o.dst.toNat val null poison 0 lat) o.dst.toNat ∧
      delivered s (u.deliver o.dst.toNat val null poison 0 lat) o.dst.toNat (lane val) null poison ∧
      (u.deliver o.dst.toNat val null poison 0 lat).ctx.aflags = u.ctx.aflags ∧
      (u.deliver o.dst.toNat val null poison 0 lat).ctx.sr = u.ctx.sr := by
  obtain ⟨d1, d2, d3, ⟨_, d4, d5⟩, d6⟩ := State.deliver_spec u o.dst.toNat val null poison lat (by rw [h1.cur]; exact hc) hd
  generalize u.deliver o.dst.toNat val null poison 0 lat = t at *
  have hr : ∀ k, u.runs k = s.runs k := fun k => by unfold State.runs; rw [h1.cur]
  have hv : u.ctx.v = s.ctx.v := by rw [h4]
  have hcr : u.ctx.cround = s.ctx.cround := by rw [h4]
  have c := h1.trans d1
  refine ⟨⟨c.rest, c.others, c.elem, c.core, c.ctxs, fun k hk => by rw [d2, h2 k hk]; rfl, c.byte⟩, ⟨?_, ?_, ?_⟩, ?_, ?_, ?_⟩
  · rw [d3, h4]
  · intro n hn; rw [d4 n hn, hv]
  · intro n hn; rw [d5 n hn, h3]
  · unfold delivered deliveredTag at *; simp only [hr, hv, h3, hcr] at d6; exact d6
  · rw [d3]
  · rw [d3]

/-- The common form of a vector instruction, as the statements say it (R244): what is left to show is each executing lane and the
flags and generator of the computation. -/
theorem State.vector_fires (i : Instr) (s : State) (o : Op) (src trig : List Src) (lat : Nat) (f : Nat → FEnv → Nat × FEnv)
    (P : Nat → Word → Prop) (F : BitVec 32 → BitVec 32 → Prop) (h : exec i s = .next (s.vector o src trig lat f))
    (hP : ∀ k, k < 8 → s.runs k = true → P k (lane (s.compute f (s.fenv.psn (src.any (fun x => x.poison)))).1 k))
    (hF : F (s.compute f (s.fenv.psn (src.any (fun x => x.poison)))).2.aflags
      (s.compute f (s.fenv.psn (src.any (fun x => x.poison)))).2.srstate) : Sys2Proof.Claims.fires i s o src trig P F := by
  intro hc hd
  obtain ⟨q1, q2, q3, q4⟩ := State.dequeue_spec s o
  have qc : (s.dequeue o).ctx = s.ctx := by show vg _ _ _ = _; rw [q2, q1.cur]; rfl
  refine ⟨fun hn => ?_, fun hn => ?_⟩
  · have w := State.fired s (s.dequeue o) o 0 true false lat hc hd q1 q4 q3 (by rw [qc])
    refine ⟨_, h, ?_⟩
    unfold State.vector
    simp only [hn, if_true]
    refine ⟨w.1, w.2.1, ?_, by rw [w.2.2.2.1, qc], by rw [w.2.2.2.2, qc]⟩
    have e : lane 0 = fun _ => (0 : Word) := by
      funext k; simp [lane]
    rw [← e]; exact w.2.2.1
  · generalize hr : s.compute f (s.fenv.psn (src.any (fun x => x.poison))) = r at *
    have uc : ((s.dequeue o).setFenv r.2).ctx = { s.ctx with aflags := r.2.aflags, sr := r.2.srstate } := by
      unfold State.setFenv; rw [State.ctx_modCtx _ _ (by rw [q1.cur]; exact hc), qc]
    have ui : ((s.dequeue o).setFenv r.2).core.inp = (s.dequeue o).core.inp := by
      unfold State.setFenv State.modCtx; rw [State.core_modCore]
    have uo : ((s.dequeue o).setFenv r.2).core.out = (s.dequeue o).core.out := by
      unfold State.setFenv State.modCtx; rw [State.core_modCore]
    have w := State.fired s ((s.dequeue o).setFenv r.2) o r.1 false (src.any (fun x => x.poison)) lat hc hd
      (q1.trans (CoreStep.modCtx _ _)) (fun k hk => by rw [ui]; exact q4 k hk) (by rw [uo, q3]) (by rw [uc])
    refine ⟨_, lane r.1, h, ?_⟩
    unfold State.vector
    simp only [hn, Bool.false_eq_true, if_false, hr]
    refine ⟨w.1, w.2.1, w.2.2.1, hP, ?_⟩
    rw [w.2.2.2.1, w.2.2.2.2, uc]; exact hF

/-- The flags gathered from the subwords `j` to `j + n - 1`. -/
def gather (r : Nat → BitVec 32) (j : Nat) : Nat → BitVec 32
  | 0 => 0
  | n + 1 => r j ||| gather r (j + 1) n

theorem gather_bit (r : Nat → BitVec 32) (b : Nat) :
    ∀ n j, (gather r j n).getLsbD b = (List.range' j n).any (fun i => (r i).getLsbD b) := by
  intro n
  induction n with
  | zero => intro j; simp [gather]
  | succ n ih => intro j; simp [gather, ih, List.range'_succ]

theorem FEnv.or_zero (e : FEnv) : { e with aflags := e.aflags ||| 0 } = e := by
  cases e; simp

/-- Subwords that only raise flags: the value holds each subword in its place, the flags are gathered. -/
theorem subsGo_spec (w : Nat) (g : Nat → FEnv → Nat × FEnv) (val : Nat → Nat) (r : Nat → BitVec 32) :
    ∀ n j env, (∀ i e, j ≤ i → i < j + n → g i e = (val i, { e with aflags := e.aflags ||| r i })) →
      (subsGo w g j n env).2 = { env with aflags := env.aflags ||| gather r j n } ∧
      ∃ q, (subsGo w g j n env).1 = q * 2 ^ (w * j) ∧ q < 2 ^ (w * n) ∧
        ∀ i, i < n → q / 2 ^ (w * i) % 2 ^ w = val (j + i) % 2 ^ w := by
  intro n
  induction n with
  | zero => intro j env _; exact ⟨(FEnv.or_zero env).symm, 0, by simp [subsGo], by simp, fun i hi => absurd hi (by omega)⟩
  | succ n ih =>
    intro j env h
    have h0 := h j env (by omega) (by omega)
    obtain ⟨e1, q, e2, e3, e4⟩ := ih (j + 1) (g j env).2 (fun i e hi hj => h i e (by omega) (by omega))
    refine ⟨?_, val j % 2 ^ w + 2 ^ w * q, ?_, ?_, ?_⟩
    · show (subsGo w g (j + 1) n (g j env).2).2 = _
      rw [e1, h0]; simp [gather, BitVec.or_assoc]
    · show (g j env).1 % 2 ^ w * 2 ^ (w * j) + (subsGo w g (j + 1) n (g j env).2).1 = _
      rw [e2, h0, Nat.mul_add w j 1, Nat.pow_add, Nat.mul_one]
      rw [Nat.add_mul]
      congr 1; ac_rfl
    · have hlt : val j % 2 ^ w < 2 ^ w := Nat.mod_lt _ (Nat.two_pow_pos w)
      have : 2 ^ (w * (n + 1)) = 2 ^ w * 2 ^ (w * n) := by rw [Nat.mul_add, Nat.pow_add, Nat.mul_one, Nat.mul_comm]
      rw [this]
      calc val j % 2 ^ w + 2 ^ w * q < 2 ^ w + 2 ^ w * q := by omega
        _ = 2 ^ w * (q + 1) := by rw [Nat.mul_add]; omega
        _ ≤ 2 ^ w * 2 ^ (w * n) := Nat.mul_le_mul_left _ e3
    · intro i hi
      have hlt : val j % 2 ^ w < 2 ^ w := Nat.mod_lt _ (Nat.two_pow_pos w)
      cases i with
      | zero => simp
      | succ i =>
        have : 2 ^ (w * (i + 1)) = 2 ^ w * 2 ^ (w * i) := by rw [Nat.mul_add, Nat.pow_add, Nat.mul_one, Nat.mul_comm]
        rw [this, ← Nat.div_div_eq_div_mul, Nat.add_mul_div_left _ _ (Nat.two_pow_pos w), Nat.div_eq_of_lt hlt, Nat.zero_add,
          e4 i (by omega)]
        congr 2; omega

/-- The flags gathered from the executing lanes `k` to `k + n - 1`. -/
def gatherLanes (runs : Nat → Bool) (r : Nat → BitVec 32) (k : Nat) : Nat → BitVec 32
  | 0 => 0
  | n + 1 => (if runs k then r k else 0) ||| gatherLanes runs r (k + 1) n

theorem gatherLanes_bit (runs : Nat → Bool) (r : Nat → BitVec 32) (b : Nat) :
    ∀ n k, (gatherLanes runs r k n).getLsbD b = (List.range' k n).any (fun i => runs i && (r i).getLsbD b) := by
  intro n
  induction n with
  | zero => intro k; simp [gatherLanes]
  | succ n ih => intro k; cases h : runs k <;> simp [gatherLanes, ih, List.range'_succ, h]

theorem lanesGo_spec (runs : Nat → Bool) (f : Nat → FEnv → Nat × FEnv) (val : Nat → Nat) (r : Nat → BitVec 32) :
    ∀ n k env, (∀ i e, runs i = true → f i e = (val i, { e with aflags := e.aflags ||| r i })) →
      (lanesGo runs f k n env).2 = { env with aflags := env.aflags ||| gatherLanes runs r k n } ∧
      ∀ i, i < n → lget (lanesGo runs f k n env).1 i 0 = if runs (k + i) = true then BitVec.ofNat 32 (val (k + i)) else 0 := by
  intro n
  induction n with
  | zero => intro k env _; exact ⟨(FEnv.or_zero env).symm, fun i hi => absurd hi (by omega)⟩
  | succ n ih =>
    intro k env h
    cases hk : runs k with
    | false =>
      obtain ⟨e1, e2⟩ := ih (k + 1) env h
      refine ⟨?_, ?_⟩
      · simp [lanesGo, hk, e1, gatherLanes]
      · intro i hi
        cases i with
        | zero => simp [lanesGo, hk, lget]
        | succ i =>
          have := e2 i (by omega)
          simp only [lanesGo, hk, Bool.false_eq_true, if_false, lget, List.getElem?_cons_succ] at this ⊢
          rw [this, Nat.add_assoc, Nat.add_comm 1 i]
    | true =>
      have h0 := h k env hk
      obtain ⟨e1, e2⟩ := ih (k + 1) (f k env).2 h
      refine ⟨?_, ?_⟩
      · show (lanesGo runs f (k + 1) n (if runs k then f k env else (0, env)).2).2 = _
        rw [hk, if_pos rfl, e1, h0]; simp [gatherLanes, hk, BitVec.or_assoc]
      · intro i hi
        cases i with
        | zero => simp [lanesGo, hk, lget, h0]
        | succ i =>
          have := e2 i (by omega)
          simp only [lanesGo, hk, if_true, lget, List.getElem?_cons_succ] at this ⊢
          rw [this, Nat.add_assoc, Nat.add_comm 1 i]

/-- The computation of a firing whose lanes only raise flags. -/
theorem State.compute_spec (s : State) (f : Nat → FEnv → Nat × FEnv) (val : Nat → Nat) (r : Nat → BitVec 32) (env : FEnv)
    (h : ∀ i e, s.runs i = true → f i e = (val i, { e with aflags := e.aflags ||| r i })) :
    (s.compute f env).2 = { env with aflags := env.aflags ||| gatherLanes s.runs r 0 8 } ∧
      ∀ k, k < 8 → s.runs k = true → lane (s.compute f env).1 k = BitVec.ofNat 32 (val k) := by
  obtain ⟨e1, e2⟩ := lanesGo_spec s.runs f val r 8 0 env h
  refine ⟨e1, fun k hk hr => ?_⟩
  show lane (ofWords _) k = _
  unfold ofWords
  rw [lane_ofLanes _ _ hk, e2 k hk, Nat.zero_add, if_pos hr]

/-- A firing whose subwords are computed one by one, as the statements say it. -/
theorem State.subwise_fires (i : Instr) (s : State) (o : Op) (src : List Src) (lat w n : Nat) (g : Nat → Nat → FEnv → Nat × FEnv)
    (val : Nat → Nat → Nat) (raised : Nat → Nat → BitVec 32) (hw : w * n = 32)
    (h : exec i s = .next (s.vector o src [] lat (fun k => subsGo w (g k) 0 n)))
    (hg : ∀ k j e, k < 8 → j < n → g k j e = (val k j, { e with aflags := e.aflags ||| raised k j }))
    (hv : ∀ k j, k < 8 → j < n → val k j < 2 ^ w) (lanes : ∀ k, s.runs k = true → k < 8) :
    subwise i s o src w n val raised := by
  have key : ∀ k e, s.runs k = true → subsGo w (g k) 0 n e =
      ((subsGo w (g k) 0 n { aflags := 0, srstate := 0 }).1, { e with aflags := e.aflags ||| gather (raised k) 0 n }) := by
    intro k e hr
    have hk := lanes k hr
    have val_same : ∀ n j (e e' : FEnv), (∀ i x, j ≤ i → i < j + n → g k i x = (val k i, { x with aflags := x.aflags ||| raised k i })) →
        (subsGo w (g k) j n e).1 = (subsGo w (g k) j n e').1 := by
      intro n
      induction n with
      | zero => intros; rfl
      | succ n ih =>
        intro j e e' hh
        show (g k j e).1 % 2 ^ w * 2 ^ (w * j) + (subsGo w (g k) (j + 1) n (g k j e).2).1 = (g k j e').1 % 2 ^ w * 2 ^ (w * j) +
          (subsGo w (g k) (j + 1) n (g k j e').2).1
        rw [hh j e (by omega) (by omega), hh j e' (by omega) (by omega)]
        rw [ih (j + 1) _ { e' with aflags := e'.aflags ||| raised k j } (fun i x hi hj => hh i x (by omega) (by omega))]
    have hh : ∀ i x, 0 ≤ i → i < 0 + n → g k i x = (val k i, { x with aflags := x.aflags ||| raised k i }) :=
      fun i x _ hi => hg k i x hk (by omega)
    refine Prod.ext (val_same n 0 _ _ hh) (subsGo_spec w (g k) (val k) (raised k) n 0 e hh).1
  obtain ⟨c1, c2⟩ := State.compute_spec s (fun k => subsGo w (g k) 0 n) _ _ (s.fenv.psn (src.any (fun x => x.poison))) key
  apply State.vector_fires i s o src [] lat _ _ _ h
  · intro k hk hr j hj
    rw [c2 k hk hr]
    have hh : ∀ i x, 0 ≤ i → i < 0 + n → g k i x = (val k i, { x with aflags := x.aflags ||| raised k i }) :=
      fun i x _ hi => hg k i x hk (by omega)
    obtain ⟨_, q, e1, e2, e3⟩ := subsGo_spec w (g k) (val k) (raised k) n 0 { aflags := 0, srstate := 0 } hh
    rw [e1, Nat.mul_zero, Nat.pow_zero, Nat.mul_one]
    unfold sub
    rw [BitVec.toNat_ofNat, ← hw, Nat.mod_eq_of_lt e2, e3 j hj, Nat.zero_add, Nat.mod_eq_of_lt (hv k j hk hj)]
  · rw [c1]
    refine ⟨fun b => ?_, ?_⟩
    · show (_ ||| gatherLanes _ _ 0 8).getLsbD b = _
      rw [BitVec.getLsbD_or, gatherLanes_bit]
      simp only [gather_bit, List.range_eq_range']
      congr 1
      unfold FEnv.psn FEnv.raiseIf State.fenv FEnv.raise flagPSN
      cases hp : src.any (fun x => x.poison) with
      | false => simp
      | true =>
        simp only [if_true, BitVec.getLsbD_or, Bool.and_true]
        congr 1
        by_cases hb : b = 7
        · subst hb; decide
        · simp only [hb, decide_false]
          by_cases h32 : b < 32
          · have : ∀ b : Fin 32, b.val ≠ 7 → (0x80 : BitVec 32).getLsbD b.val = false := by decide
            exact this ⟨b, h32⟩ hb
          · exact BitVec.getLsbD_of_ge _ _ (by omega)
    · unfold FEnv.psn FEnv.raiseIf; split <;> rfl

end Sys2Proof.Machine
end

