-- ==== Sys2Proof/Laws/Mem.lean ====
section
/-!
SUPPORT. Memory: reading after writing, the canonical form kept by every operation, and reading through the store
port (log 4, log 5).
-/
namespace Sys2Proof.Machine
open Sys2Proof

/-- The canonical form as two plain facts: addresses strictly rising, no zero byte. -/
theorem wf_iff (m : Memory) : Memory.wf m = true ↔ m.Pairwise (fun x y => x.1 < y.1) ∧ ∀ c ∈ m, c.2 ≠ 0 := by
  induction m with
  | nil => simp [Memory.wf]
  | cons x r ih =>
    obtain ⟨j, b⟩ := x
    cases r with
    | nil => simp [Memory.wf]
    | cons y r =>
      obtain ⟨k, c⟩ := y
      simp only [Memory.wf, Bool.and_eq_true, bne_iff_ne, decide_eq_true_eq, ih]
      constructor
      · rintro ⟨⟨hb, hj⟩, hp, hz⟩
        refine ⟨List.pairwise_cons.2 ⟨?_, hp⟩, by simpa using ⟨hb, by simpa using hz⟩⟩
        intro z hzm
        rcases List.mem_cons.1 hzm with rfl | hzr
        · exact hj
        · exact Nat.lt_trans hj ((List.pairwise_cons.1 hp).1 z hzr)
      · rintro ⟨hp, hz⟩
        have h1 := List.pairwise_cons.1 hp
        exact ⟨⟨hz (j, b) (by simp), h1.1 (k, c) (by simp)⟩, h1.2, fun z hm => hz z (by simp [hm])⟩

theorem memGet_none (m : Memory) (a : Nat) (h : ∀ c ∈ m, c.1 ≠ a) : memGet m a = 0 := by
  induction m with
  | nil => rfl
  | cons x r ih =>
    obtain ⟨j, b⟩ := x
    have hj : j ≠ a := h (j, b) (by simp)
    simp only [memGet, hj, if_false]
    exact ih (fun c hc => h c (by simp [hc]))

theorem memGet_filter (m : Memory) (p : Nat → Bool) (a : Nat) :
    memGet (m.filter (fun c => p c.1)) a = if p a then memGet m a else 0 := by
  induction m with
  | nil => simp [memGet]
  | cons x r ih =>
    obtain ⟨j, b⟩ := x
    by_cases hj : p j = true
    · simp only [List.filter_cons, hj, if_true, memGet, ih]
      by_cases ha : j = a
      · subst ha; simp [hj]
      · simp [ha]
    · have hj : p j = false := by simpa using hj
      by_cases ha : j = a
      · subst ha; simp [List.filter_cons, hj, memGet, ih]
      · simp [List.filter_cons, hj, memGet, ih, ha]

theorem memGet_memPut (m : Memory) (a : Nat) (b : Byte) (k : Nat) (hm : m.Pairwise (fun x y => x.1 < y.1)) :
    memGet (memPut m a b) k = if k = a then b else memGet m k := by
  induction m with
  | nil =>
    simp only [memPut, memGet]
    by_cases h : a = k
    · simp [h]
    · simp [h, Ne.symm h]
  | cons x r ih =>
    obtain ⟨j, c⟩ := x
    have hp := List.pairwise_cons.1 hm
    simp only [memPut]
    split
    · simp only [memGet]
      by_cases h : a = k
      · simp [h]
      · simp [h, Ne.symm h]
    · split
      · rename_i h1 h2; subst h2
        simp only [memGet]
        by_cases h : a = k
        · simp [h]
        · simp [h, Ne.symm h]
      · rename_i h1 h2
        simp only [memGet, ih hp.2]
        by_cases h : k = a
        · subst h; simp [Ne.symm h2]
        · simp [h]

/-- What a byte reads as after one byte is written. -/
theorem memGet_memSet (m : Memory) (a : Nat) (b : Byte) (k : Nat) (hm : Memory.wf m = true) :
    memGet (memSet m a b) k = if k = a then b else memGet m k := by
  unfold memSet
  split
  · rename_i hb
    rw [memGet_filter m (fun j => j != a) k]
    by_cases h : k = a <;> simp [h, hb]
  · exact memGet_memPut m a b k ((wf_iff m).1 hm).1

theorem memPut_keys (m : Memory) (a : Nat) (b : Byte) : ∀ c ∈ memPut m a b, c = (a, b) ∨ c ∈ m := by
  induction m with
  | nil => simp [memPut]
  | cons x r ih =>
    obtain ⟨j, c⟩ := x
    simp only [memPut]
    split
    · simp
    · split
      · intro c hc
        rcases List.mem_cons.1 hc with h | h
        · exact .inl h
        · exact .inr (List.mem_cons_of_mem _ h)
      · intro c hc
        rcases List.mem_cons.1 hc with h | h
        · simp [h]
        · rcases ih c h with h | h <;> simp [h]

theorem wf_filter (m : Memory) (p : Host.Cell → Bool) (hm : Memory.wf m = true) : Memory.wf (m.filter p) = true := by
  rw [wf_iff] at hm ⊢
  exact ⟨hm.1.filter p, fun c hc => hm.2 c (List.mem_filter.1 hc).1⟩

theorem wf_memPut (m : Memory) (a : Nat) (b : Byte) (hb : b ≠ 0) (hm : Memory.wf m = true) : Memory.wf (memPut m a b) = true := by
  rw [wf_iff] at hm ⊢
  refine ⟨?_, fun c hc => ?_⟩
  · have hp := hm.1
    clear hm
    induction m with
    | nil => simp [memPut]
    | cons x r ih =>
      obtain ⟨j, c⟩ := x
      have h1 := List.pairwise_cons.1 hp
      simp only [memPut]
      split
      · rename_i hlt
        refine List.pairwise_cons.2 ⟨fun z hz => ?_, hp⟩
        rcases List.mem_cons.1 hz with rfl | hz
        · exact hlt
        · exact Nat.lt_trans hlt (h1.1 z hz)
      · split
        · rename_i h2; subst h2
          exact List.pairwise_cons.2 ⟨h1.1, h1.2⟩
        · rename_i h3 h2
          refine List.pairwise_cons.2 ⟨fun z hz => ?_, ih h1.2⟩
          rcases memPut_keys r a b z hz with rfl | hz
          · show j < a; omega
          · exact h1.1 z hz
  · rcases memPut_keys m a b c hc with rfl | h
    · exact hb
    · exact hm.2 c h

/-- One written byte keeps the canonical form. -/
theorem wf_memSet (m : Memory) (a : Nat) (b : Byte) (hm : Memory.wf m = true) : Memory.wf (memSet m a b) = true := by
  unfold memSet
  split
  · exact wf_filter m _ hm
  · rename_i hb; exact wf_memPut m a b hb hm

/-- Written bytes keep the canonical form. -/
theorem wf_memWrite (m : Memory) (a : Nat) (l : List Byte) (hm : Memory.wf m = true) : Memory.wf (memWrite m a l) = true := by
  induction l generalizing m a with
  | nil => exact hm
  | cons b r ih => exact ih _ _ (wf_memSet m a b hm)

/-- What a byte reads as after consecutive bytes are written. -/
theorem memGet_memWrite (m : Memory) (a : Nat) (l : List Byte) (k : Nat) (hm : Memory.wf m = true) :
    memGet (memWrite m a l) k = if a ≤ k then l[k - a]?.getD (memGet m k) else memGet m k := by
  induction l generalizing m a with
  | nil => simp [memWrite]
  | cons b r ih =>
    simp only [memWrite]
    rw [ih _ _ (wf_memSet m a b hm), memGet_memSet m a b k hm]
    by_cases h : a ≤ k
    · rcases Nat.eq_or_lt_of_le h with rfl | hlt
      · have h6 : ¬ a + 1 ≤ a := by omega
        simp [h6]
      · have h2 : k ≠ a := by omega
        have h3 : k - a = (k - (a + 1)) + 1 := by omega
        have h4 : a + 1 ≤ k := hlt
        rw [h3]; simp [h2, h, h4]
    · have h4 : ¬ a + 1 ≤ k := by omega
      have h5 : k ≠ a := by omega
      simp [h, h4, h5]

/-- A store of the store port keeps the canonical form. -/
theorem wf_apply (m : Memory) (x : Store) (hm : Memory.wf m = true) : Memory.wf (x.apply m) = true := by
  cases x with
  | bytes a l => exact wf_memWrite m a l hm
  | zero a n => exact wf_filter m _ hm

/-- The stores of a step keep the canonical form. -/
theorem wf_drain (m : Memory) (st : List Store) (hm : Memory.wf m = true) : Memory.wf (drain m st) = true := by
  induction st with
  | nil => exact hm
  | cons x r ih => exact wf_apply _ x ih

theorem memGet_apply (m : Memory) (x : Store) (k : Nat) (hm : Memory.wf m = true) :
    memGet (x.apply m) k = (x.at k).getD (memGet m k) := by
  cases x with
  | bytes a l =>
    simp only [Store.apply, Store.at]
    rw [memGet_memWrite m a l k hm]
    split <;> simp
  | zero a n =>
    simp only [Store.apply, Store.at]
    rw [memGet_filter m (fun j => decide (j < a) || decide (a + n ≤ j)) k]
    by_cases h1 : a ≤ k <;> by_cases h2 : k < a + n
    · have h3 : ¬ k < a := by omega
      have h4 : ¬ a + n ≤ k := by omega
      simp [h1, h2, h3, h4]
    · have h4 : a + n ≤ k := by omega
      simp [h2, h4]
    · have h4 : k < a := by omega
      simp [h1, h4]
    · omega

/-- Memory after the stores of a step reads as the store port over memory read during it. -/
theorem memGet_drain (m : Memory) (st : List Store) (k : Nat) (hm : Memory.wf m = true) :
    memGet (drain m st) k = match portGet st k with | some b => b | none => memGet m k := by
  induction st with
  | nil => rfl
  | cons x r ih =>
    simp only [drain, portGet]
    rw [memGet_apply _ x k (wf_drain m r hm)]
    cases h : x.at k with
    | some b => simp
    | none => simpa using ih

/-- Landing the stores changes no byte that a state reads. -/
theorem State.byte_drained (s : State) (k : Nat) (hm : Memory.wf s.mem = true) :
    memGet (drain s.mem s.stores) k = s.byte k := memGet_drain s.mem s.stores k hm

/-- A byte read after bytes are put on the store port. -/
theorem State.byte_put (s : State) (a : Nat) (l : List Byte) (k : Nat) :
    (s.put a l).byte k = if a ≤ k then l[k - a]?.getD (s.byte k) else s.byte k := by
  unfold State.byte State.put
  simp only [portGet, Store.at]
  by_cases h : a ≤ k
  · simp only [h, if_true]
    cases h2 : l[k - a]? <;> simp
  · simp [h]

/-- A byte read after a run of zero bytes is put on the store port. -/
theorem State.byte_putZero (s : State) (a n k : Nat) :
    (s.putZero a n).byte k = if a ≤ k ∧ k < a + n then 0 else s.byte k := by
  unfold State.byte State.putZero
  simp only [portGet, Store.at]
  by_cases h : a ≤ k ∧ k < a + n
  · simp [h]
  · have : (decide (a ≤ k) && decide (k < a + n)) = false := by simpa using h
    simp [this, h]

end Sys2Proof.Machine
end

