-- ==== Sys2Proof/Laws/Pilot.lean ====
section
/-!
SUPPORT. What the shared operations of the pilot do: a register written, the next word, a trap, a return from a trap.
-/
namespace Sys2Proof.Machine
open Sys2Proof Sys2Proof.Claims

@[simp] theorem State.pilot_setPilot_same (s : State) (p : Nat) (v : Pilot) : (s.setPilot p v).pilot p = v := by
  simp [State.pilot]

theorem State.pilot_setPilot_ne (s : State) (p q : Nat) (v : Pilot) (h : q ≠ p) : (s.setPilot p v).pilot q = s.pilot q := by
  simp [State.pilot, tget_tset_ne _ _ _ _ _ h]

@[simp] theorem State.me_setMe (s : State) (v : Pilot) : (s.setMe v).me = v := by
  simp [State.me, State.setMe]

theorem State.onlyPilot_setMe (s : State) (v : Pilot) : onlyPilot s (s.setMe v) :=
  ⟨rfl, fun _ h => State.pilot_setPilot_ne s _ _ v h, fun _ => rfl⟩

@[simp] theorem Pilot.get_zero (p : Pilot) : p.get 0 = 0 := rfl

theorem Pilot.get_set (p : Pilot) (d r : Reg) (v : DWord) :
    (p.set d v).get r = if r = d ∧ d ≠ 0 then v else p.get r := by
  unfold Pilot.get Pilot.set
  by_cases h0 : d = 0
  · subst h0
    simp only [if_true, ne_eq, not_true_eq_false, and_false, if_false]
  · rw [if_neg h0]
    by_cases hr : r = 0
    · subst hr
      rw [if_pos rfl, if_neg (fun h => h0 h.1.symm), if_pos rfl]
    · rw [if_neg hr, if_neg hr]
      by_cases h : r = d
      · subst h
        rw [if_pos ⟨rfl, h0⟩, vg_vs_same _ _ _ _ r.isLt]
      · rw [if_neg (fun x => h x.1), vg_vs_ne _ _ _ _ _ (fun e => h (BitVec.toNat_inj.1 e))]

@[simp] theorem Pilot.get_step (p : Pilot) (r : Reg) : p.step.get r = p.get r := rfl

theorem Pilot.set_eq (p : Pilot) (d : Reg) (v : DWord) : p.set d v = { p with x := (p.set d v).x } := by
  unfold Pilot.set; split <;> rfl

/-- A result written to a register answers a next state and does nothing else. -/
theorem State.result_next (s : State) (d : Reg) (v : DWord) : ∃ t, s.result d v = .next t ∧ wrote s t d v := by
  refine ⟨_, rfl, ?_, ?_, State.onlyPilot_setMe s _⟩
  · intro r; simp [Pilot.get_set]
  · simp only [State.me_setMe, Pilot.step]
    unfold Pilot.set; split <;> rfl

theorem State.done_next (s : State) : ∃ t, s.done = .next t ∧ passed s t :=
  ⟨_, rfl, by simp [Pilot.step], State.onlyPilot_setMe s _⟩

theorem trapStatus_bits (w : DWord) :
    (trapStatus w).getLsbD 0 = false ∧ (trapStatus w).getLsbD 1 = w.getLsbD 0 ∧ (trapStatus w).getLsbD 2 = true ∧
      ∀ k, 3 ≤ k → (trapStatus w).getLsbD k = w.getLsbD k := by
  have small : ∀ n k, n < 8 → 3 ≤ k → Nat.testBit n k = false := fun n k hn hk =>
    Nat.testBit_lt_two_pow (Nat.lt_of_lt_of_le (by simpa using hn : n < 2 ^ 3) (Nat.pow_le_pow_right (by decide) hk))
  refine ⟨?_, ?_, ?_, ?_⟩
  · unfold trapStatus; cases h : w.getLsbD 0 <;> simp
  · unfold trapStatus; cases h : w.getLsbD 0 <;> simp
  · unfold trapStatus; cases h : w.getLsbD 0 <;> simp
  · intro k hk
    by_cases hk' : k < 64
    · unfold trapStatus
      cases h : w.getLsbD 0 <;>
        simp only [BitVec.getLsbD_or, BitVec.getLsbD_and, BitVec.getLsbD_not, BitVec.getLsbD_ofNat, hk', decide_true,
          small 7 k (by decide) hk, small 2 k (by decide) hk, small 4 k (by decide) hk, small 0 k (by decide) hk, if_true, if_false,
          Bool.and_false, Bool.not_false, Bool.and_true, Bool.or_false, Bool.false_eq_true]
    · rw [BitVec.getLsbD_of_ge _ _ (Nat.le_of_not_lt hk'), BitVec.getLsbD_of_ge _ _ (Nat.le_of_not_lt hk')]

/-- A trap taken by the acting pilot does what R317 to R319 say. -/
theorem State.trapped_takeTrap (s : State) (cause sub : Nat) (val resume : DWord) :
    trapped s (s.setMe (s.me.takeTrap cause sub val resume)) cause sub val resume := by
  have hb := trapStatus_bits s.me.pstatus
  by_cases hc : s.me.pstatus.getLsbD 2 = true ∨ s.me.tvec &&& 0xFFFC = 0
  · have he : s.me.takeTrap cause sub val resume = s.me.stop cause sub val resume := by
      unfold Pilot.takeTrap Pilot.th
      rw [if_pos]
      rcases hc with hc | hc
      · rw [hc]; rfl
      · rw [hc]; simp
    refine ⟨?_, ?_, ?_, ?_, ?_, State.onlyPilot_setMe s _, ?_⟩ <;> simp only [State.me_setMe, he, Pilot.stop]
    rw [if_pos hc]
    exact ⟨trivial, trivial, trivial⟩
  · have he : s.me.takeTrap cause sub val resume =
        { s.me with trapcause := BitVec.ofNat 64 (sub * 65536 + cause), trapval := val, trapaddr := resume,
                    pstatus := trapStatus s.me.pstatus, pc := chartBase + (s.me.tvec &&& 0xFFFC), waitSince := none } := by
      unfold Pilot.takeTrap Pilot.th
      have h1 : s.me.pstatus.getLsbD 2 = false := by
        cases h : s.me.pstatus.getLsbD 2
        · rfl
        · exact absurd (Or.inl h) hc
      have h2 : ¬ s.me.tvec &&& 0xFFFC = 0 := fun h => hc (Or.inr h)
      simp only [h1, Bool.false_or]
      rw [if_neg (by simpa using h2)]
    refine ⟨?_, ?_, ?_, ?_, ?_, State.onlyPilot_setMe s _, ?_⟩ <;> simp only [State.me_setMe, he]
    rw [if_neg hc]
    exact ⟨trivial, trivial, hb⟩

theorem State.trap_next (s : State) (cause sub : Nat) (val : DWord) :
    ∃ t, s.trap cause sub val = .next t ∧ trapped s t cause sub val s.me.pc :=
  ⟨_, rfl, State.trapped_takeTrap s cause sub val s.me.pc⟩

/-- A jump answers a next state: the target reached, or the fetch fault. -/
theorem State.jump_next (s : State) (d : Reg) (target : DWord) :
    if isChart target = true then
      ∃ t, s.jump d target = .next t ∧ (∀ r, t.me.get r = if r = d ∧ d ≠ 0 then s.me.pc + 4 else s.me.get r) ∧
        t.me = { s.me with x := t.me.x, pc := target } ∧ onlyPilot s t
    else ∃ t, s.jump d target = .next t ∧ trapped s t 7 0 target s.me.pc := by
  unfold State.jump
  split
  · refine ⟨_, rfl, ?_, ?_, State.onlyPilot_setMe s _⟩
    · intro r
      have : ({ s.me.set d (s.me.pc + 4) with pc := target } : Pilot).get r = (s.me.set d (s.me.pc + 4)).get r := rfl
      simp only [State.me_setMe, this, Pilot.get_set]
    · simp only [State.me_setMe]
      unfold Pilot.set; split <;> rfl
  · exact State.trap_next s 7 0 target

end Sys2Proof.Machine
end

