-- ==== Sys2Proof/Laws/Store.lean ====
section
/-!
SUPPORT. What events, integrity failures, reads and stores of units do to the state (R425, R428, R472, R483).
-/
namespace Sys2Proof.Machine
open Sys2Proof Sys2Proof.Claims

/-- An event changes Voxkan's record only. -/
theorem State.raise_eq (s : State) (src code vd : Nat) (l : List DWord) :
    s.raise src code vd l = { s with vox := (s.raise src code vd l).vox } := by
  unfold State.raise; split <;> rfl

theorem soon_fold_eq (l : List Nat) (s : State) (f : Nat → Instr) (g : Nat → Nat) :
    l.foldl (fun t v => t.soon (f v) v (g v) 0) s =
      { s with agenda := (l.foldl (fun t v => t.soon (f v) v (g v) 0) s).agenda } := by
  induction l generalizing s with
  | nil => rfl
  | cons v r ih => simp only [List.foldl_cons]; rw [ih]; rfl

/-- An integrity event changes Voxkan's record and what comes next, nothing else. -/
theorem State.integrity_eq (s : State) (a level : Nat) :
    s.integrity a level = { s with vox := (s.integrity a level).vox, agenda := (s.integrity a level).agenda } := by
  have h := soon_fold_eq (s.victims (s.frameOf a))
    (s.raise (0x10 + a / 0xC00000000) 0x0010 (if (s.frameOf a).kind = 1 then (s.frameOf a).owner else 255)
      [BitVec.ofNat 64 (a / 0xC00000000), BitVec.ofNat 64 (a / 64), BitVec.ofNat 64 (s.frameOf a).ownerKey, BitVec.ofNat 64 level])
    (fun _ => .quarantine) (fun _ => 1)
  have hv : (s.raise (0x10 + a / 0xC00000000) 0x0010 (if (s.frameOf a).kind = 1 then (s.frameOf a).owner else 255)
      [BitVec.ofNat 64 (a / 0xC00000000), BitVec.ofNat 64 (a / 64), BitVec.ofNat 64 (s.frameOf a).ownerKey, BitVec.ofNat 64 level]).victims
        (s.frameOf a) = s.victims (s.frameOf a) := by
    rw [State.raise_eq]; rfl
  unfold State.integrity
  simp only [hv]
  rw [h, State.raise_eq]

/-- A read that fails its check changes Voxkan's record and what comes next; any other changes nothing. -/
theorem State.afterRead_eq (s : State) (a : Nat) :
    s.afterRead a = { s with vox := (s.afterRead a).vox, agenda := (s.afterRead a).agenda } := by
  unfold State.afterRead
  split
  · exact State.integrity_eq ..
  · rfl

theorem State.afterWalk_eq (s : State) (bad : Nat) :
    s.afterWalk bad = { s with vox := (s.afterWalk bad).vox, agenda := (s.afterWalk bad).agenda } := by
  unfold State.afterWalk
  split
  · rfl
  · exact State.afterRead_eq ..

@[simp] theorem State.afterRead_me (s : State) (a : Nat) : (s.afterRead a).me = s.me := by rw [State.afterRead_eq]; rfl
@[simp] theorem State.afterWalk_me (s : State) (a : Nat) : (s.afterWalk a).me = s.me := by rw [State.afterWalk_eq]; rfl
@[simp] theorem State.afterRead_byte (s : State) (a k : Nat) : (s.afterRead a).byte k = s.byte k := by
  rw [State.afterRead_eq]; rfl
@[simp] theorem State.afterWalk_byte (s : State) (a k : Nat) : (s.afterWalk a).byte k = s.byte k := by
  rw [State.afterWalk_eq]; rfl

/-- A node put in the cache changes the cipher units' record and what comes next, nothing else. -/
theorem State.cacheNode_eq (s : State) (stack key : Nat) :
    s.cacheNode stack key =
      { s with cipher := (s.cacheNode stack key).cipher, agenda := (s.cacheNode stack key).agenda } ∧
      (s.cacheNode stack key).cipher.raw = s.cipher.raw := by
  unfold State.cacheNode
  split
  · exact ⟨rfl, rfl⟩
  · dsimp only
    split
    · exact ⟨rfl, rfl⟩
    · split
      · exact ⟨rfl, rfl⟩
      · exact ⟨rfl, rfl⟩

/-- What a node put in the cache leaves, as some record and some agenda. -/
theorem State.cacheNode_ex (s : State) (stack key : Nat) :
    ∃ c g, s.cacheNode stack key = { s with cipher := c, agenda := g } ∧ c.raw = s.cipher.raw :=
  ⟨_, _, (State.cacheNode_eq s stack key).1, (State.cacheNode_eq s stack key).2⟩

/-- The counter step of a line of a frame with room and no changed line changes the cipher units' record and what comes next only. -/
theorem State.advance_eq (s : State) (a : Nat) (h2 : s.cipher.raw.filter (fun x => x.1 / 4096 = a / 4096) = [])
    (h3 : (tget s.cipher.counters (a / 4096) Counter.zero).major ≠ 2 ^ 64 - 1) :
    ∃ c g, s.advance a = some { s with cipher := c, agenda := g } ∧ ∀ x ∈ c.raw, x ∈ s.cipher.raw := by
  have hf : s.failing (a / 4096) = [] := by
    unfold State.failing
    rw [List.map_eq_nil_iff, List.filter_eq_nil_iff]
    intro x hx hc
    have : x ∈ s.cipher.raw.filter (fun x => x.1 / 4096 = a / 4096) := by
      rw [List.mem_filter]; exact ⟨hx, by simp at hc ⊢; exact hc.1⟩
    rw [h2] at this; cases this
  unfold State.advance
  by_cases h : tget (tget s.cipher.counters (a / 4096) Counter.zero).minors (a / 64 % 64) 0 < 127
  · simp only [h, if_true]
    obtain ⟨c, g, he, hr⟩ := State.cacheNode_ex { s with cipher := { s.cipher with
      counters := tset s.cipher.counters (a / 4096) { tget s.cipher.counters (a / 4096) Counter.zero with
        minors := tset (tget s.cipher.counters (a / 4096) Counter.zero).minors (a / 64 % 64)
          (tget (tget s.cipher.counters (a / 4096) Counter.zero).minors (a / 64 % 64) 0 + 1) } } }
      (a / 0xC00000000) (nodeKey (s.frameOf a).ownerKey 1 (s.frameOf a).num)
    exact ⟨c, g, by rw [he], fun x hx => by rw [hr] at hx; exact hx⟩
  · simp only [h, h3, if_false, hf]
    obtain ⟨c, g, he, hr⟩ := State.cacheNode_ex { s with cipher := { s.cipher with
      counters := tset s.cipher.counters (a / 4096)
        { major := (tget s.cipher.counters (a / 4096) Counter.zero).major + 1, minors := [] } } }
      (a / 0xC00000000) (nodeKey (s.frameOf a).ownerKey 1 (s.frameOf a).num)
    rw [he]
    unfold State.reencrypt
    simp only [List.foldl_nil]
    exact ⟨_, _, rfl, fun x hx => by rw [hr] at hx; exact (List.mem_filter.1 hx).1⟩

/-- A lookup that answers has its entry in the table. -/
theorem tfind_mem {α : Type} (t : Tbl α) (k : Nat) (a : α) (h : tfind t k = some a) : (k, a) ∈ t := by
  induction t with
  | nil => simp [tfind] at h
  | cons x r ih =>
    obtain ⟨j, b⟩ := x
    by_cases hj : j = k
    · simp [tfind, hj] at h; simp [hj, h]
    · simp [tfind, hj] at h; exact List.mem_cons_of_mem _ (ih h)

/-- A line of a healthy frame has no changed form. -/
theorem raw_none (l : Tbl (List (BitVec 128) × BitVec 64)) (a : Nat) (hh : isHbm a = true)
    (h : l.filter (fun x => x.1 / 4096 = a / 4096) = []) (m : Tbl (List (BitVec 128) × BitVec 64)) (hm : ∀ x ∈ m, x ∈ l) :
    tfind m (unitOf a) = none := by
  have hu : unitOf a / 4096 = a / 4096 := by
    unfold unitOf unitSize; simp only [hh, Bool.true_or, if_true]; omega
  cases hc : tfind m (unitOf a) with
  | none => rfl
  | some x =>
    have hx := hm _ (tfind_mem m _ _ hc)
    have : (unitOf a, x) ∈ l.filter (fun x => x.1 / 4096 = a / 4096) := by
      rw [List.mem_filter]; exact ⟨hx, by simp [hu]⟩
    rw [h] at this; cases this

/-- A clean store of bytes to a healthy unit puts them on the store port and cleans the unit; counters, the cache of nodes, what comes
next and host snoops apart, nothing else changes. -/
theorem State.storeUnit_eq (s : State) (a : Nat) (l : List Byte) (h : healthy s a) :
    s.storeUnit a l false =
      { s with stores := .bytes a l :: s.stores, poison := s.poison.filter (· != unitOf a), upsets := tdel s.upsets (unitOf a),
               cipher := (s.storeUnit a l false).cipher, hb := (s.storeUnit a l false).hb,
               agenda := (s.storeUnit a l false).agenda } := by
  have hs : ∃ b, s.snoop a = { s with hb := b } := by
    unfold State.snoop; split
    · exact ⟨_, rfl⟩
    · exact ⟨s.hb, rfl⟩
  obtain ⟨b, hb⟩ := hs
  unfold State.storeUnit
  by_cases hh : isHbm a = true
  · obtain ⟨h1, h2, h3⟩ := h.2 hh
    obtain ⟨c, g, hc, hm⟩ := State.advance_eq { s with hb := b } a h2 h3
    have hn := raw_none _ a hh h2 c.raw hm
    have hf : ({ s with hb := b } : State).check a ≠ .failed := by
      have h0 := raw_none _ a hh h2 s.cipher.raw (fun x hx => hx)
      unfold State.check
      simp only [hh, h1, Bool.and_false, Bool.false_eq_true, if_false, if_true, h0]
      split <;> simp
    simp only [hh, if_true, h1, hb, hc, hn, hf, Option.isSome_none, Bool.false_eq_true, if_false]
    rfl
  · have hh : isHbm a = false := by simpa using hh
    simp only [hh, Bool.false_eq_true, if_false]
    by_cases hr : isRes a = true
    · have : ({ s with hb := b } : State).lost a = false := h.1
      simp only [hr, if_true, hb, this, Bool.false_eq_true, if_false]
      rfl
    · simp only [hr, h.1, Bool.false_eq_true, if_false]
      rfl

theorem State.storeUnit_byte (s : State) (a : Nat) (l : List Byte) (h : healthy s a) (k : Nat) :
    (s.storeUnit a l false).byte k = if a ≤ k then l[k - a]?.getD (s.byte k) else s.byte k := by
  rw [State.storeUnit_eq s a l h]; exact State.byte_put s a l k

theorem toLe_length (n w : Nat) : (toLe n w).length = n := by
  induction n generalizing w with
  | zero => rfl
  | succ n ih => simp [toLe, ih]

theorem toLe_get (n w k : Nat) (h : k < n) : (toLe n w)[k]? = some (BitVec.ofNat 8 (w / 256 ^ k)) := by
  induction n generalizing w k with
  | zero => omega
  | succ n ih =>
    cases k with
    | zero => simp [toLe]
    | succ k =>
      simp only [toLe, List.getElem?_cons_succ]
      rw [ih _ _ (by omega), Nat.div_div_eq_div_mul, Nat.pow_succ, Nat.mul_comm]

theorem wroteBytes_of (s t : State) (a n v : Nat)
    (h : ∀ k, t.byte k = if a ≤ k then (toLe n v)[k - a]?.getD (s.byte k) else s.byte k) : wroteBytes s t a n v := by
  intro k
  rw [h]
  by_cases h1 : a ≤ k
  · by_cases h2 : k < a + n
    · rw [if_pos h1, if_pos ⟨h1, h2⟩, toLe_get _ _ _ (by omega)]; rfl
    · rw [if_pos h1, if_neg (fun x => h2 x.2), List.getElem?_eq_none (by rw [toLe_length]; omega)]; rfl
  · rw [if_neg h1, if_neg (fun x => h1 x.1)]

/-- A clean store of a little-endian number to a healthy unit. -/
theorem State.storeUnit_stored (s : State) (a n v : Nat) (h : healthy s a) :
    wroteBytes s (s.storeUnit a (toLe n v) false) a n v :=
  wroteBytes_of _ _ _ _ _ (State.storeUnit_byte s a _ h)

/-- A number put on the store port. -/
theorem State.put_stored (s : State) (a n v : Nat) : wroteBytes s (s.put a (toLe n v)) a n v :=
  wroteBytes_of _ _ _ _ _ (State.byte_put s a _)

/-- The little-endian number read by `readLe`. -/
theorem State.readLe_number (s : State) (a n : Nat) : s.readLe a n = number s a n := by
  have go : ∀ n a, s.readLe a n = ((List.range n).map (fun k => (s.byte (a + k)).toNat * 256 ^ k)).sum := by
    intro n
    induction n with
    | zero => intro a; rfl
    | succ n ih =>
      intro a
      rw [State.readLe, ih, List.range_succ_eq_map, List.map_cons, List.map_map, List.sum_cons]
      have : ∀ l : List Nat, 256 * (l.map (fun k => (s.byte (a + 1 + k)).toNat * 256 ^ k)).sum =
          (l.map ((fun k => (s.byte (a + k)).toNat * 256 ^ k) ∘ Nat.succ)).sum := by
        intro l
        induction l with
        | nil => rfl
        | cons x r ih2 =>
          simp only [List.map_cons, List.sum_cons, Function.comp, Nat.mul_add]
          rw [← ih2]
          congr 1
          rw [Nat.pow_succ, show a + 1 + x = a + x.succ by omega]
          rw [Nat.mul_comm 256, Nat.mul_assoc]
      rw [this]; simp
  exact go n a

end Sys2Proof.Machine
end

