-- ==== Sys2Proof/Tests/Slice0.lean ====
section
/-!
SUPPORT. The author's own tests: ill-formed instructions refused, words written out from the encoding tables, one step where a
program starts, and for each statement a state and operands that meet its hypotheses.
-/
open Sys2Proof Sys2Proof.Machine Sys2Proof.Claims

namespace Sys2Proof.Tests

/-! ### Words and what they decode to -/

/-- Pilot words laid out from the table's fields (R72 to R77). -/
theorem test_decode_pilot_0 :
    [0x0266E800, 0x0266E801, 0x0266E802, 0x0266E803, 0x0266E804, 0x0266E805, 0x0266E806, 0x0266E807, 0x0266E808,
      0x0266E809].map (decodeTableWord 32)
      = [some (.add 19 6 29), some (.sub 19 6 29), some (.and 19 6 29), some (.or 19 6 29), some (.xor 19 6 29),
      some (.shl 19 6 29), some (.shr 19 6 29), some (.sra 19 6 29), some (.mul 19 6 29),
      some (.mulh 19 6 29)] := by decide

/-- Pilot words laid out from the table's fields (R72 to R77). -/
theorem test_decode_pilot_1 :
    [0x0266E80A, 0x0266E80B, 0x0266E80C, 0x0266E80D, 0x0266E80E, 0x0266E80F, 0x0266E810, 0x0266E811, 0x02660012,
      0x02660013].map (decodeTableWord 32)
      = [some (.divn 19 6 29), some (.rem 19 6 29), some (.remn 19 6 29), some (.slt 19 6 29), some (.div 19 6 29),
      some (.sltn 19 6 29), some (.min 19 6 29), some (.max 19 6 29), some (.clz 19 6),
      some (.popc 19 6)] := by decide

/-- Pilot words laid out from the table's fields (R72 to R77). -/
theorem test_decode_pilot_2 :
    [0x06669234, 0x0A669234, 0x0E669234, 0x12669234, 0x16660029, 0x1A660029, 0x1E660029, 0x22669234, 0x26609234,
      0x42669234].map (decodeTableWord 32)
      = [some (.addi 19 6 37428), some (.andi 19 6 37428), some (.ori 19 6 37428), some (.xori 19 6 37428),
      some (.shli 19 6 41), some (.shri 19 6 41), some (.srai 19 6 41), some (.slti 19 6 37428),
      some (.lui 19 37428), some (.ldN8 19 6 37428)] := by decide

/-- Pilot words laid out from the table's fields (R72 to R77). -/
theorem test_decode_pilot_3 :
    [0x46669234, 0x4A669234, 0x4E669234, 0x52669234, 0x56669234, 0x5A669234, 0x5E669234, 0x62669234, 0x66669234,
      0x6A669234].map (decodeTableWord 32)
      = [some (.ldN16 19 6 37428), some (.ldN32 19 6 37428), some (.ld 19 6 37428), some (.ldS8 19 6 37428),
      some (.ldS16 19 6 37428), some (.ldS32 19 6 37428), some (.ldacq 19 6 37428), some (.stN8 19 6 37428),
      some (.stN16 19 6 37428), some (.stN32 19 6 37428)] := by decide

/-- Pilot words laid out from the table's fields (R72 to R77). -/
theorem test_decode_pilot_4 :
    [0x6E669234, 0x72669234, 0x82669234, 0x86669234, 0x8A669234, 0x8E669234, 0x92669234, 0x96669234, 0x9A345678,
      0x9E669234].map (decodeTableWord 32)
      = [some (.st 19 6 37428), some (.strel 19 6 37428), some (.beq 19 6 37428), some (.bne 19 6 37428),
      some (.blt 19 6 37428), some (.bge 19 6 37428), some (.bltn 19 6 37428), some (.bgen 19 6 37428),
      some (.jal 36984440), some (.jalr 19 6 37428)] := by decide

/-- Pilot words laid out from the table's fields (R72 to R77). -/
theorem test_decode_pilot_5 :
    [0xA013B500, 0xA400B500, 0xA800B500, 0xAE60B500, 0xB266B500, 0xB413B500, 0xB413B501, 0xB413B502, 0xB413B503,
      0xBA60B509].map (decodeTableWord 32)
      = [some (.blkld 19 181), some (.blkgo 181), some (.blkarm 181), some (.blkwait 19 181),
      some (.resteer 19 6 181), some (.cfgwrSw 19 181), some (.cfgwrConst 19 181), some (.cfgwrDiv 19 181),
      some (.cfgwrLoop 19 181), some (.wbrd 19 181 9)] := by decide

/-- Pilot words laid out from the table's fields (R72 to R77). -/
theorem test_decode_pilot_6 :
    [0xBC13B598, 0xBC13B599, 0xBC13B59A, 0xC0000004, 0xC666E804, 0xCA66E819, 0xD0130000, 0xD4130000, 0xD8130000,
      0xDE660000].map (decodeTableWord 32)
      = [some (.injectData 19 181 9 2), some (.injectNull 19 181 9 2), some (.injectMark 19 181 9 2),
      some (.fence 4), some (.waitw 19 6 29 4), some (.atom 19 6 29 1 9), some (.cvjoin 19), some (.cvleave 19),
      some (.cvarrive 19), some (.cvwait 19 6)] := by decide

/-- Pilot words laid out from the table's fields (R72 to R77). -/
theorem test_decode_pilot_7 :
    [0xE0130000, 0xE4130000, 0xEA66E800, 0xEC009234, 0xF26005A3, 0xF41305A3, 0xFA600001, 0xF8000000, 0xF8000002,
      0xF4070022].map (decodeTableWord 32)
      = [some (.winacq 19), some (.winrel 19), some (.cpy 19 6 29), some (.trap 37428), some (.ctlrd 19 1443),
      some (.ctlwr 19 1443), some (.chron 19), some (.eret), some (.park), some (.rgnctlEnd 7)] := by decide

/-- Pilot words laid out from the table's fields (R72 to R77). -/
theorem test_decode_pilot_8 :
    [0xF407002C, 0xF407002D].map (decodeTableWord 32)
      = [some (.sfctlPop 7), some (.sfresume 7)] := by decide

/-- Slots whose operation words are laid out from R79 and R80, under guard word 0x9A4D. -/
theorem test_decode_vector_0 :
    [0x0054C9B29A4D, 0x0154C9B29A4D, 0x0254C9B29A4D, 0x0354C9B29A4D, 0x0454C9B29A4D, 0x0554C9B29A4D, 0x0654C9B29A4D,
      0x0754C9B29A4D, 0x0854C9B29A4D, 0x0954C9B29A4D].map (decodeTableWord 48)
      = [some (.vecAdd ⟨5, 9, 18, 3, 12, true, false⟩), some (.vecSub ⟨5, 9, 18, 3, 12, true, false⟩),
      some (.vecMul ⟨5, 9, 18, 3, 12, true, false⟩), some (.vecMulh ⟨5, 9, 18, 3, 12, true, false⟩),
      some (.vecMad ⟨5, 9, 18, 3, 12, true, false⟩), some (.vecAbs ⟨5, 9, 18, 3, 12, true, false⟩), some (.vecNeg ⟨5,
      9, 18, 3, 12, true, false⟩), some (.vecMin ⟨5, 9, 18, 3, 12, true, false⟩), some (.vecMax ⟨5, 9, 18, 3, 12,
      true, false⟩), some (.vecAnd ⟨5, 9, 18, 3, 12, true, false⟩)] := by decide

/-- Slots whose operation words are laid out from R79 and R80, under guard word 0x9A4D. -/
theorem test_decode_vector_1 :
    [0x0A54C9B29A4D, 0x0B54C9B29A4D, 0x0C54C9B29A4D, 0x0D54C9B29A4D, 0x0E54C9B29A4D, 0x0F54C9B29A4D, 0x1054C9B29A4D,
      0x1154C9B29A4D, 0x1254C9B29A4D, 0x1354C9B29A4D].map (decodeTableWord 48)
      = [some (.vecOr ⟨5, 9, 18, 3, 12, true, false⟩), some (.vecXor ⟨5, 9, 18, 3, 12, true, false⟩),
      some (.vecNot ⟨5, 9, 18, 3, 12, true, false⟩), some (.vecShl ⟨5, 9, 18, 3, 12, true, false⟩), some (.vecShr ⟨5,
      9, 18, 3, 12, true, false⟩), some (.vecSra ⟨5, 9, 18, 3, 12, true, false⟩), some (.vecRot ⟨5, 9, 18, 3, 12,
      true, false⟩), some (.vecClz ⟨5, 9, 18, 3, 12, true, false⟩), some (.vecPopc ⟨5, 9, 18, 3, 12, true, false⟩),
      some (.vecAdds ⟨5, 9, 18, 3, 12, true, false⟩)] := by decide

/-- Slots whose operation words are laid out from R79 and R80, under guard word 0x9A4D. -/
theorem test_decode_vector_2 :
    [0x1454C9B29A4D, 0x1554C9B29A4D, 0x1854C9B29A4D, 0x1954C9B29A4D, 0x1A54C9B29A4D, 0x1B54C9B29A4D, 0x1C54C9B29A4D,
      0x1D54C9B29A4D, 0x1E54C9B29A4D, 0x1F54C9B29A4D].map (decodeTableWord 48)
      = [some (.vecSubs ⟨5, 9, 18, 3, 12, true, false⟩), some (.vecAvg ⟨5, 9, 18, 3, 12, true, false⟩),
      some (.vecFadd ⟨5, 9, 18, 3, 12, true, false⟩), some (.vecFsub ⟨5, 9, 18, 3, 12, true, false⟩),
      some (.vecFmul ⟨5, 9, 18, 3, 12, true, false⟩), some (.vecFma ⟨5, 9, 18, 3, 12, true, false⟩),
      some (.vecFmin ⟨5, 9, 18, 3, 12, true, false⟩), some (.vecFmax ⟨5, 9, 18, 3, 12, true, false⟩),
      some (.vecFabs ⟨5, 9, 18, 3, 12, true, false⟩), some (.vecFneg ⟨5, 9, 18, 3, 12, true, false⟩)] := by decide

/-- Slots whose operation words are laid out from R79 and R80, under guard word 0x9A4D. -/
theorem test_decode_vector_3 :
    [0x2054C9B29A4D, 0x2154C9B29A4D, 0x2254C9B29A4D, 0x2354C9B29A4D, 0x2454C9B29A4D, 0x2854C9B29A4D, 0x2954C9B29A4D,
      0x2A54C9B29A4D, 0x2B54C9B29A4D, 0x2C54C9B29A4D].map (decodeTableWord 48)
      = [some (.vecFcps ⟨5, 9, 18, 3, 12, true, false⟩), some (.vecCmp ⟨5, 9, 18, 3, 12, true, false⟩),
      some (.vecFcmp ⟨5, 9, 18, 3, 12, true, false⟩), some (.vecSel ⟨5, 9, 18, 3, 12, true, false⟩),
      some (.vecClass ⟨5, 9, 18, 3, 12, true, false⟩), some (.vecCvt ⟨5, 9, 18, 3, 12, true, false⟩),
      some (.vecCvtsr ⟨5, 9, 18, 3, 12, true, false⟩), some (.vecPack ⟨5, 9, 18, 3, 12, true, false⟩),
      some (.vecUnpack ⟨5, 9, 18, 3, 12, true, false⟩), some (.vecExp2 ⟨5, 9, 18, 3, 12, true, false⟩)] := by decide

/-- Slots whose operation words are laid out from R79 and R80, under guard word 0x9A4D. -/
theorem test_decode_vector_4 :
    [0x2D54C9B29A4D, 0x2E54C9B29A4D, 0x2F54C9B29A4D, 0x3054C9B29A4D, 0x3154C9B29A4D, 0x3254C9B29A4D, 0x3354C9B29A4D,
      0x3454C9B29A4D, 0x3554C9B29A4D, 0x3654C9B29A4D].map (decodeTableWord 48)
      = [some (.vecLog2 ⟨5, 9, 18, 3, 12, true, false⟩), some (.vecRcp ⟨5, 9, 18, 3, 12, true, false⟩),
      some (.vecRsq ⟨5, 9, 18, 3, 12, true, false⟩), some (.vecSqrt ⟨5, 9, 18, 3, 12, true, false⟩),
      some (.vecSinpi ⟨5, 9, 18, 3, 12, true, false⟩), some (.vecCospi ⟨5, 9, 18, 3, 12, true, false⟩),
      some (.vecLbcast ⟨5, 9, 18, 3, 12, true, false⟩), some (.vecLrot ⟨5, 9, 18, 3, 12, true, false⟩),
      some (.vecLred ⟨5, 9, 18, 3, 12, true, false⟩), some (.vecLscan ⟨5, 9, 18, 3, 12, true, false⟩)] := by decide

/-- Slots whose operation words are laid out from R79 and R80, under guard word 0x9A4D. -/
theorem test_decode_vector_5 :
    [0x3754C9B29A4D, 0x3854C9829A4D, 0x3854C9869A4D, 0x3854C98A9A4D, 0x3854C98E9A4D, 0x3854C9929A4D, 0x3854C9969A4D,
      0x3954C9B29A4D, 0x3A54C9B29A4D, 0x3B54C9B29A4D].map (decodeTableWord 48)
      = [some (.vecLidx ⟨5, 9, 18, 3, 12, true, false⟩), some (.vecMov ⟨5, 9, 18, 3, 0, true, false⟩),
      some (.vecMovRdflags ⟨5, 9, 18, 3, 1, true, false⟩), some (.vecMovRcflags ⟨5, 9, 18, 3, 2, true, false⟩),
      some (.vecMovWrflags ⟨5, 9, 18, 3, 3, true, false⟩), some (.vecMovRdseed ⟨5, 9, 18, 3, 4, true, false⟩),
      some (.vecMovWrseed ⟨5, 9, 18, 3, 5, true, false⟩), some (.vecMovi ⟨5, 9, 18, 3, 12, true, false⟩),
      some (.vecLdc ⟨5, 9, 18, 3, 12, true, false⟩), some (.vecFscale ⟨5, 9, 18, 3, 12, true, false⟩)] := by decide

/-- Slots whose operation words are laid out from R79 and R80, under guard word 0x9A4D. -/
theorem test_decode_vector_6 :
    [0x3C54C9B29A4D].map (decodeTableWord 48)
      = [some (.vecFrexp ⟨5, 9, 18, 3, 12, true, false⟩)] := by decide

/-- Slots of the brick class, laid out from R79 and R82. -/
theorem test_decode_brick_0 :
    [0x40D4C9DA9A4D, 0x46D4C9DA9A4D, 0x4CD4C9DA9A4D, 0x41D4C9DA9A4D, 0x47D4C9DA9A4D, 0x4DD4C9DA9A4D, 0x42D4C9DA9A4D,
      0x48D4C9DA9A4D, 0x4ED4C9DA9A4D, 0x43D4C9DA9A4D].map (decodeTableWord 48)
      = [some (.mac ⟨13, 9, 18, 3, 22, true, false⟩), some (.mulw ⟨13, 9, 18, 3, 22, true, false⟩),
      some (.accmode ⟨13, 9, 18, 3, 22, true, false⟩), some (.dot ⟨13, 9, 18, 3, 22, true, false⟩), some (.mula ⟨13,
      9, 18, 3, 22, true, false⟩), some (.perm ⟨13, 9, 18, 3, 22, true, false⟩), some (.dots ⟨13, 9, 18, 3, 22, true,
      false⟩), some (.accrd ⟨13, 9, 18, 3, 22, true, false⟩), some (.permld ⟨13, 9, 18, 3, 22, true, false⟩),
      some (.dotx ⟨13, 9, 18, 3, 22, true, false⟩)] := by decide

/-- Slots of the brick class, laid out from R79 and R82. -/
theorem test_decode_brick_1 :
    [0x49D4C9DA9A4D, 0x4FD4C9DA9A4D, 0x44D4C9DA9A4D, 0x4AD4C9DA9A4D, 0x50D4C9DA9A4D, 0x45D4C9DA9A4D,
      0x4BD4C9DA9A4D].map (decodeTableWord 48)
      = [some (.accclr ⟨13, 9, 18, 3, 22, true, false⟩), some (.recstep ⟨13, 9, 18, 3, 22, true, false⟩),
      some (.mma ⟨13, 9, 18, 3, 22, true, false⟩), some (.accset ⟨13, 9, 18, 3, 22, true, false⟩), some (.bgate ⟨13,
      9, 18, 3, 22, true, false⟩), some (.wload ⟨13, 9, 18, 3, 22, true, false⟩), some (.accadd ⟨13, 9, 18, 3, 22,
      true, false⟩)] := by decide

/-- Slots of the trigger class and an engine command, laid out from R79, R83 and R85. -/
theorem test_decode_trigger_0 :
    [0x80A4C9B39A4D, 0x86A4C9B39A4D, 0x8CA4C9B39A4D, 0x92A4C9B39A4D, 0x81A4C9B39A4D, 0x87A4C9B39A4D, 0x8DA4C9B39A4D,
      0x93A4C9B39A4D, 0x82A4C9B39A4D, 0x88A4C9B39A4D].map (decodeTableWord 48)
      = [some (.nop ⟨10, 9, 18, 3, 12, true, true⟩), some (.mfwd ⟨10, 9, 18, 3, 12, true, true⟩), some (.lde ⟨10, 9,
      18, 3, 12, true, true⟩), some (.wbk ⟨10, 9, 18, 3, 12, true, true⟩), some (.pset ⟨10, 9, 18, 3, 12, true,
      true⟩), some (.mgen ⟨10, 9, 18, 3, 12, true, true⟩), some (.ste ⟨10, 9, 18, 3, 12, true, true⟩),
      some (.movc ⟨10, 9, 18, 3, 12, true, true⟩), some (.plog ⟨10, 9, 18, 3, 12, true, true⟩), some (.nullt ⟨10, 9,
      18, 3, 12, true, true⟩)] := by decide

/-- Slots of the trigger class and an engine command, laid out from R79, R83 and R85. -/
theorem test_decode_trigger_1 :
    [0x8EA4C9B39A4D, 0x94A4C9B39A4D, 0x83A4C9B39A4D, 0x89A4C9B39A4D, 0x8FA4C9B39A4D, 0x95A4C9B39A4D, 0x84A4C9B39A4D,
      0x8AA4C9B39A4D, 0x90A4C9B39A4D, 0x85A4C9B39A4D].map (decodeTableWord 48)
      = [some (.ldp ⟨10, 9, 18, 3, 12, true, true⟩), some (.yield ⟨10, 9, 18, 3, 12, true, true⟩), some (.send ⟨10,
      9, 18, 3, 12, true, true⟩), some (.loop ⟨10, 9, 18, 3, 12, true, true⟩), some (.stp ⟨10, 9, 18, 3, 12, true,
      true⟩), some (.faulte ⟨10, 9, 18, 3, 12, true, true⟩), some (.deq ⟨10, 9, 18, 3, 12, true, true⟩),
      some (.ldec ⟨10, 9, 18, 3, 12, true, true⟩), some (.cmde ⟨10, 9, 18, 3, 12, true, true⟩), some (.tag ⟨10, 9,
      18, 3, 12, true, true⟩)] := by decide

/-- Slots of the trigger class and an engine command, laid out from R79, R83 and R85. -/
theorem test_decode_trigger_2 :
    [0x8BA4C9B39A4D, 0x91A4C9B39A4D, 0xDDB40B261000].map (decodeTableWord 48)
      = [some (.rep ⟨10, 9, 18, 3, 12, true, true⟩), some (.brtok ⟨10, 9, 18, 3, 12, true, true⟩),
      some (.engineCommandSend 29 ⟨11, 8, 2, 6, 9, true, false⟩)] := by decide

/-- Words that the tables do not assign (R71, R74 to R77, R80, R82, R83, R85). -/
theorem test_decode_unassigned :
    [0x28000000, 0x7C000000, 0xCC000000, 0xFC000000, 0x00000014, 0x14000040, 0x24010000, 0xC0000005, 0xC4000006, 0xC800000A,
      0xB4000004, 0xBC000003, 0xF8000003].map (decodeTableWord 32) = List.replicate 13 none := by decide

/-- Operation words of unassigned opcodes in each class (R80, R82, R83, R85). -/
theorem test_decode_unassigned_slot :
    [0x160000000000, 0x3D0000000000, 0x510000000000, 0x960000000000, 0xDE0000000000].map (decodeTableWord 48) = List.replicate 5 none := by
  decide

/-! ### Ill-formed instructions -/

/-- A mask of zero (R77), a scope, condition or operation outside its limit (R76), and control registers with rows of their own. -/
theorem test_ill_formed_pilot :
    ([.blkld 1 0, .blkgo 0, .blkarm 0, .blkwait 1 0, .resteer 1 2 0, .cfgwrSw 1 0, .cfgwrConst 1 0, .cfgwrDiv 1 0, .cfgwrLoop 1 0,
      .wbrd 1 0 2, .injectData 1 0 0 0, .injectNull 1 0 0 0, .injectMark 1 0 0 0, .fence 5, .waitw 1 2 3 6, .atom 1 2 3 0 10,
      .ctlwr 1 34, .ctlwr 1 44, .ctlwr 1 45] : List Instr).all (fun i => !i.wellFormed) = true := by decide

/-- A variant of `MOV` under another modifier (R265), and an engine opcode that is not assigned (R85). -/
theorem test_ill_formed_slot :
    ([.vecMov ⟨0, 0, 0, 0, 1, false, false⟩, .vecMovRdflags ⟨0, 0, 0, 0, 0, false, false⟩, .vecMovRcflags ⟨0, 0, 0, 0, 1, false, false⟩,
      .vecMovWrflags ⟨0, 0, 0, 0, 2, false, false⟩, .vecMovRdseed ⟨0, 0, 0, 0, 5, false, false⟩,
      .vecMovWrseed ⟨0, 0, 0, 0, 6, false, false⟩, .engineCommandSend 30 ⟨8, 0, 0, 0, 0, false, false⟩] : List Instr).all
        (fun i => !i.wellFormed) = true := by decide

/-! ### One step -/

/-- The first instruction placed after reset: `addi x1, x0, #5` writes 5 to `x1`. -/
theorem test_first_step :
    (match step (State.reset.withFetchWord 32 0x04200005) with
      | .next t => ((t.pilot 0).get 1, (t.pilot 0).pc) | _ => (0, 0)) = (5, chartBase + 4) := by decide

/-- A word that no table assigns traps with cause 1 (R71, R320); without a handler the pilot stops (R319). -/
theorem test_illegal_word_stops :
    (match step (State.reset.withFetchWord 32 0xFFFFFFFF) with
      | .next t => ((t.pilot 0).trapcause, (t.pilot 0).trapval, (t.pilot 0).run) | _ => (0, 0, .idle)) = (1, 0xFFFFFFFF, .stopped) := by
  decide

set_option maxRecDepth 20000 in
/-- A slot placed after reset: `movi v1, #-3` fires in every lane (R266). -/
theorem test_first_firing :
    (match step (State.reset.withFetchWord 48 0x39107FF41000) with
      | .next t => lane (vg (vg (t.elem 0).core.ctx 0 (Ctx.activated 0)).v 1 VReg.zero).val 7 | _ => 0) = 0xFFFFFFFD := by decide


/-! ### States and operands that meet the hypotheses of the statements -/

/-- A one-band region of VD 0 whose block runs, graph 5. -/
def reg0 : Region := { Region.start 0 1 0 5 1 .pilot with running := .running, cur := some (Image.empty.block 0 7) }

/-- VD 0, present and resident, with two tarn layers, a route, and a window whose one frame is its own. -/
def vd0 : Vd := { Vd.absent with
  present := true, resident := true, layers := [0, 1], quarters := [0], routes := [(3, { port := 1, vc := 2, remote := 4 })], guest := 9,
  hdm := 2 ^ 28, root := some 0x100000 }

/-- A state in which pilot 0 of that region runs, holding one translation entry. -/
def base : State :=
  { State.reset with
    agenda := [], regions := [reg0], incs := 8, strips := vs State.reset.strips 0 0, vds := [(0, vd0)],
    pilots := [(0, { Pilot.reset with run := .running, tvec := 0x40, tlb := [{ va := 0x1000, size := 12, pa := 0x8000, w := true }] })],
    cipher := { Cipher.reset with windows := [(0, { ident := 1, opener := 0, members := [], length := 4096, frames := [(5, 0)] })], frames := [(8, { kind := 1, owner := 0, num := 0 })] },
    harvest := 0 }

/-- A register of pilot 0 set. -/
def sr (s : State) (r : Reg) (v : DWord) : State := s.modPilot 0 (fun p => p.set r v)

/-- The region of the state changed. -/
def rg (s : State) (f : Region → Region) : State := s.modRegion 0 f

/-- A load in flight to `x9`. -/
def load0 : PAcc := { kind := .load 8 false false, va := 0x1000, cell := 0x8000, reg := 9, data := 0, fault := false, window := none,
                      tag := 0, te := none, stale := false, args := (0, 0), stamp := 0, pc := chartBase, snap := Vector.replicate 32 0 }

/-- With an access in flight. -/
def busy (s : State) (x : PAcc) : State := s.modPilot 0 (fun p => { p with pend := p.pend ++ [x] })

/-- With a turn first on the agenda. -/
def due (s : State) (t : Turn) : State := { s with agenda := [t] }

/-- With the place of an event. -/
def at3 (s : State) (x y z : Nat) : State := { s with cur := { s.cur with x := x, y := y, z := z } }

/-- Whether a place is a cell, a tarn, a window, the peer range, no window, or a fault. -/
def placeKind : Place → Nat
  | .cell _ _ => 0 | .tarn _ => 1 | .window _ _ => 2 | .peer _ _ => 3 | .noWindow => 4 | .fault _ _ => 5

/-- PilotBranches: equal and unequal operands, and a pilot that has run past its chart memory. -/
theorem test_witness_PilotBranches :
    let s := sr base 1 5; let t := due (base.modPilot 0 (fun p => { p with pc := 0xFFF0000000010000 })) (.pilot 0)
    s.me.get 1 ≠ s.me.get 2 ∧ s.me.get 2 = s.me.get 3 ∧ (s.me.get 2).toInt < (s.me.get 1).toInt ∧
    t.agenda = [.pilot 0] ∧ t.acts 0 = true ∧ (t.pilot 0).run = .running ∧ t.asyncCause 0 = none ∧ (t.pilot 0).waitSince = none ∧
    (t.pilot 0).pend.any PAcc.isLoad = false ∧ isChart (t.pilot 0).pc = false := by decide

/-- PilotLoads and PilotStores: a misaligned address, chart memory, and every place that an address reaches. -/
theorem test_witness_PilotLoads :
    (0x1001#64).toNat % 2 ≠ 0 ∧ isChart 0xFFF000000000FFF8 = true ∧ isChart 0x1000 = false ∧ base.roomInRecord = true ∧
    [0x1008, 0xFF00000000000, 0xFE00000000000, 0xFD30000000000, 0xFE00400000000, 0x1000000000000000].map
      (fun va => placeKind (base.place base.myVd va true true base.me.tlb)) = [0, 1, 2, 3, 4, 5] ∧
    placeKind (base.place base.myVd 0xFD30000000000 false false base.me.tlb) = 5 ∧ base.myUnretired = 0 ∧ base.peerRoom 0 3 = true ∧
    base.tagRoom base.myVd = true ∧ base.mySendInOrder 3 0 = true ∧ base.me.pend = [] := by decide

/-- PilotLoadReturns: a load in flight alone, from a clean unit and from a poisoned one. -/
theorem test_witness_PilotLoadReturns :
    let s := busy base load0; let t := { s with poison := [0x8000] }
    s.acts 0 = true ∧ (s.regionAt 0).map (fun r => r.vd) = some 0 ∧ (s.pilot 0).pend[0]? = some load0 ∧ load0.kind = .load 8 false false ∧
    blockedBy ((s.pilot 0).pend.take 0) 0x8000 = false ∧ s.viewBad 0x8000 = false ∧ t.viewBad 0x8000 = true ∧
    blockedBy (((busy s load0).pilot 0).pend.take 1) 0x8000 = true ∧
    ((t.pilot 0).pend.take 0).any PAcc.isLoad = false ∧ load0.parked = none ∧ load0.window = none ∧
    ({ load0 with parked := some 1 }).parked.isSome = true ∧
    placeKind (s.windowPlace 0 0xFE00000000000) = 2 ∧ placeKind (s.windowPlace 0 0xFE00400000000) = 4 := by decide

/-- PilotTrapsAndReturns: a handler that runs, one that does not, and both asynchronous causes. -/
theorem test_witness_PilotTrapsAndReturns :
    let h := base.modPilot 0 (fun p => { p with pstatus := 4 }); let e := base.modPilot 0 (fun p => { p with pstatus := 0x21 })
    let f := base.modPilot 0 (fun p => { p with pstatus := 0x41 })
    let er := { reg0 with running := .frozen, efrep := some { w0 := 1, w1 := 0 } }
    let fr := { reg0 with sfq := [{ w0 := 1, w1 := 0, w2 := 0, w3 := 0 }] }
    h.me.pstatus.getLsbD 2 = true ∧ base.me.pstatus.getLsbD 2 = false ∧
    (let s := rg e (fun _ => er)
     s.acts 0 = true ∧ s.regionAt 0 = some er ∧ er.lead = 0 ∧ (s.pilot 0).run = .running ∧ (s.pilot 0).pstatus.getLsbD 0 = true ∧
      (s.pilot 0).pstatus.getLsbD 2 = false ∧ (s.pilot 0).pend.any PAcc.isLoad = false ∧ er.rewrites.any (fun x => x.pilot = 0) = false ∧
      (s.pilot 0).pstatus.getLsbD 5 = true ∧ er.running = .frozen ∧ er.efrep.isSome = true) ∧
    (let s := rg f (fun _ => fr)
     s.acts 0 = true ∧ s.regionAt 0 = some fr ∧ (s.pilot 0).pstatus.getLsbD 5 = false ∧ (s.pilot 0).pstatus.getLsbD 6 = true ∧ fr.sfq ≠ []) := by
  decide

/-- PilotControlRegisters: the first and the last listed number, and the numbers beside them. -/
theorem test_witness_PilotControlRegisters :
    (base.myRegion).isSome = true ∧ (0x02D#12 ∈ [0x022#12, 0x02C#12, 0x02D#12]) ∧
    (∀ n ∈ [0x006#12, 0x00B#12, 0x013#12, 0x023#12, 0x02E#12, 0xFFF#12], n ∉ [0x000#12, 0x001#12, 0x002#12, 0x003#12, 0x004#12, 0x005#12,
      0x008#12, 0x009#12, 0x00A#12, 0x010#12, 0x011#12, 0x012#12, 0x020#12, 0x021#12, 0x022#12, 0x028#12, 0x029#12, 0x02A#12, 0x02B#12,
      0x02C#12, 0x02D#12]) := by decide

/-- PilotFencesAndWaits: nothing and something in flight; a word that meets the condition and one that does not; a recheck. -/
theorem test_witness_PilotFencesAndWaits :
    let s := sr (sr base 1 0x1000) 2 3
    let w := (sr (base.modPilot 0 (fun p => { p with pc := chartBase, waitSince := some 0 })) 1 0x1000)
    let w := { w with mem := memWrite [] (chartCell 0 0) (toLe 4 0xC4611000) }
    s.me.pend = [] ∧ s.hostOpen s.myVd = false ∧ s.hb.snoops = [] ∧ s.sendsOpen s.myVd = false ∧ (busy s load0).me.pend ≠ [] ∧
    s.imageLoading = false ∧ (rg s (fun r => { r with shadow := .loading })).imageLoading = true ∧
    (s.me.get 1).toNat % 8 = 0 ∧ placeKind (s.place s.myVd 0x1000 false false s.me.tlb) = 0 ∧ blockedBy s.me.pend 0x8000 = false ∧
    blockedBy (busy s load0).me.pend 0x8000 = true ∧ s.viewBad 0x8000 = false ∧ ({ s with poison := [0x8000] } : State).viewBad 0x8000 = true ∧
    numberOf (s.view 0x8000 8) = 0 ∧ s.me.get 2 ≠ 0 ∧ s.me.get 3 = 0 ∧
    (sr s 1 0x1001 |>.me.get 1).toNat % 8 ≠ 0 ∧
    w.acts 0 = true ∧ (w.pilot 0).run = .running ∧ (w.pilot 0).waitSince.isSome = true ∧
    decodeTableWord 32 (w.atPilot 0).word.toNat = some (.waitw 3 1 2 0) := by decide

/-- PilotAtomics: a word in HBM, clean and poisoned; misaligned, chart and tarn targets; an atomic in flight. -/
theorem test_witness_PilotAtomics :
    let s := sr base 1 0x1000; let bad := { s with poison := [0x8000] }
    (s.me.get 1).toNat % 8 = 0 ∧ isChart (s.me.get 1) = false ∧ placeKind (s.place s.myVd 0x1000 true false s.me.tlb) = 0 ∧ isHbm 0x8000 = true ∧
    blockedBy s.me.pend 0x8000 = false ∧ s.me.pend = [] ∧ s.myUnretired < 8 ∧ s.roomInRecord = true ∧ s.atUnit 0x8000 = [] ∧
    s.me.redo.find? (fun x => x.sameAtom s.me.pc (s.me.get 1)) = none ∧ blockedBy (busy s load0).me.pend 0x8000 = true ∧
    (let t := s.modPilot 0 (fun p => { p with redo := [{ load0 with kind := .atom }] })
     t.me.redo.find? (fun x => x.sameAtom t.me.pc (t.me.get 1)) = some { load0 with kind := .atom }) ∧
    s.myTag.2.lookup s.myTag.1 0x8000 9 = .fresh ∧ s.badAt 0x8000 = false ∧ bad.badAt 0x8000 = true ∧
    (s.cipher.badCounters.contains 8 = false ∧ s.cipher.raw = [] ∧ (tget s.cipher.counters 8 Counter.zero).major ≠ 2 ^ 64 - 1) ∧
    placeKind (s.place s.myVd 0xFF00000000000 true false s.me.tlb) = 1 ∧
    (let t := busy s { load0 with kind := .atom }; t.acts 0 = true ∧ (t.pilot 0).pend[0]?.map (fun x => x.kind) = some .atom) := by decide

/-- PilotCopies: the counts, the alignments, the chart ranges and a granule that moves. -/
theorem test_witness_PilotCopies :
    let s := sr (sr (sr base 1 0x1000) 2 0x1040) 3 64
    base.me.get 3 = 0 ∧ s.me.get 3 ≠ 0 ∧ (0x1001#64).toNat % 32 ≠ 0 ∧ meetsChart (s.me.get 1) 64 = false ∧ meetsChart (s.me.get 2) 64 = false ∧
    meetsChart 0xFFF0000000000000 64 = true ∧ s.me.pend = [] ∧ s.roomInRecord = true ∧ (busy s load0).me.pend ≠ [] ∧
    (match s.granuleAt 0x1040 false with | .ok c => c | _ => 0) = 0x8040 ∧ (match s.granuleAt 0x1000 true with | .ok c => c | _ => 0) = 0x8000 ∧
    s.check 0x8040 = .clean ∧ isHost 0x8000 = false ∧ s.cipher.badCounters.contains 8 = false ∧ s.cipher.raw = [] := by decide

/-- PilotWindows: a handle of the window and one of none; its loads and stores in flight. -/
theorem test_witness_PilotWindows :
    let s := sr base 1 0x100; let w := { load0 with window := some 0 }
    s.handleSlot s.myVd 0x100 = some 0 ∧ s.handleSlot s.myVd 0x101 = none ∧ s.me.pend.any (fun x => x.isLoad && x.window = some 0) = false ∧
    (busy s w).me.pend.any (fun x => x.isLoad && x.window = some 0) = true ∧
    (busy s { w with kind := .store 8 false }).windowOpen 0 0 = true ∧ s.windowOpen 0 0 = false ∧ s.myUnretired < 8 ∧ s.roomInRecord = true ∧
    s.tagRoom s.myVd = true := by decide

/-- PilotBlockControl: the masks, and each pair of states of the table of R330. -/
theorem test_witness_PilotBlockControl :
    let two := { reg0 with bands := 2 }
    base.myRegion = some reg0 ∧ reg0.maskOk 1 true = true ∧ reg0.maskOk 0 true = false ∧ reg0.maskOk 2 true = false ∧ two.maskOk 3 true = true ∧
    two.maskOk 1 true = false ∧ (0x1040#64).toNat % 64 = 0 ∧ (0x1041#64).toNat % 64 ≠ 0 ∧ reg0.lead = base.cur.pilot ∧
    ({ base with regions := [two], cur := { base.cur with pilot := 1 } }).myRegion = some two ∧ base.me.pend = [] ∧ base.roomInRecord = true ∧ (busy base load0).me.pend ≠ [] ∧
    (rg base (fun r => { r with running := .none, shadow := .loaded, shImg := some Image.empty })).myRegion
      = some { reg0 with running := .none, shadow := .loaded, shImg := some Image.empty } := by decide

/-- PilotBlockResults: an empty queue, an entry without and with a status; a frozen block; the parts of R342 to R344. -/
theorem test_witness_PilotBlockResults :
    let c : Comp := { inc := 7, status := none, wbs := [] }
    let q := { reg0 with compQ := [c] }; let f := { q with running := .frozen, efrep := some { w0 := 0x18000000000000, w1 := 0 } }
    reg0.maskOk 1 true = true ∧ reg0.maskOk 2 true = false ∧ reg0.compQ = [] ∧ q.compQ = c :: [] ∧ c.status = none ∧
    ((sr base 1 1).me.get 1).getLsbD 0 = true ∧ f.running = .frozen ∧ f.cur.isSome = true ∧ f.shadow ≠ .swapping ∧ f.compQ[0]? = some c ∧
    c.inc = 7 ∧ (rg base (fun _ => f)).mayEnd f = true ∧ (let g := { f with cur := some ({ Image.empty with flags := 4 }.block 0 7) }
     ({ base with regions := [g], hb := { Harbour.reset with snoops := [3] } } : State).mayEnd g = false) ∧
    bits 0 32 18 = 0 ∧ bits 0x80000000000000 50 5 = 0 ∧ bits 0x100000000 32 18 ≠ 0 ∧ (base.me.get 1).getLsbD 0 = false ∧ (base.me.get 1).getLsbD 55 = false ∧ (0x80000000000000#64).getLsbD 55 = true := by decide

/-- PilotSteering: the masks, the alignment and the chart range, the counts at their limits, and legal and illegal records. -/
theorem test_witness_PilotSteering :
    let s := sr (sr base 1 0xFFF0000000000100) 2 1
    reg0.maskOk 1 false = true ∧ reg0.maskOk 3 false = false ∧ s.rewriting reg0 = false ∧ (s.me.get 1).toNat % 8 = 0 ∧
    isChart (s.me.get 1) = true ∧ (s.me.get 1).toNat % 65536 + 8 * 1 ≤ 65536 ∧ 0xFFF8 + 8 * 2 > 65536 ∧ reg0.running = .running ∧
    reg0.recOk 1 (swRecOf 0) = true ∧ reg0.recOk 1 (swRecOf (8 * 2 ^ 24)) = false ∧ (∀ x ∈ s.chartRecs 0x100 1, reg0.recOk 1 x = true) ∧
    bit 0 49 = false ∧ bits 0 36 6 < 8 * reg0.bands ∧ bit 1 0 = true ∧ bits 16 4 3 ∈ [1, 2, 3, 4] ∧ bits 16 8 56 = 0 ∧ bit 16 7 = false ∧
    loopGap (vs Image.empty.loops 0 1) = false := by decide

/-- PilotInjections: aligned and misaligned addresses, legal and illegal marks, full and free queues. -/
theorem test_witness_PilotInjections :
    let t : Token := { payload := 0, kind := 0, round := 0, tag := 0, poison := false, src := 0 }
    let full := base.modPilot 0 (fun p => { p with injq := Vector.replicate 16 [t, t] })
    reg0.maskOk 1 false = true ∧ reg0.maskOk 2 false = false ∧ (0xFFF0000000000020#64).toNat % 32 = 0 ∧ isChart 0xFFF0000000000020 = true ∧
    (2#256).toNat % 4 = 2 ∧ (3#256).toNat < 4 ∧ (∃ p ∈ reg0.masked 1, 2 ≤ (vg (full.pilot p).injq 15 []).length) ∧
    (∀ p ∈ reg0.masked 1, (vg (base.pilot p).injq 15 []).length < 2) ∧ reg0.masked 1 = [0] := by decide

/-- A convoy of graph 5 and graph 6. -/
def convoy0 : Convoy :=
  { phase := 0, members := [5, 6], later := [5, 6], arrived := [], done := [], here := [], waits := [], held := [], slackOn := false, seeded := false,
    lastDone := 0, period := 0, slacks := [] }

/-- PilotConvoys: no convoy, one with and without the graph, its last member, and arrivals before and after the phase. -/
theorem test_witness_PilotConvoys :
    let c := fun (v : Convoy) => base.modVd 0 (fun d => { d with convoys := [(4, v)] }); let s := c convoy0
    let tg := s.nextTag reg0 reg0.inc (reg0.pilotSource 0) 0
    s.myRegion = some reg0 ∧ s.peerConvoy 0 4 = none ∧ base.convoy 0 4 = none ∧ s.convoy 0 4 = some convoy0 ∧ convoy0.later.contains 5 = true ∧
    convoy0.later.contains 7 = false ∧ reg0.lead = s.cur.pilot ∧ s.myUnretired < 8 ∧ s.roomInRecord = true ∧ s.tagRoom s.myVd = true ∧
    (s.unitHeld (s.homeStack 0) 4).length < 64 ∧ (s.vd 0).endedArrival 4 5 = none ∧
    ((base.modVd 0 (fun d => { d with ended := [(4, 5, 2)] })).vd 0).endedArrival 4 5 = some 2 ∧ tg.2.lookup tg.1 (s.convoyLoc 0 4) 0x50 = .fresh ∧
    tg.2.lookup tg.1 (s.convoyLoc 0 4) 0x51 = .fresh ∧ tg.2.lookup tg.1 (s.convoyLoc 0 4) 0x52 = .fresh ∧ s.released 0 convoy0.remote = true ∧
    convoy0.members.contains 5 = true ∧ convoy0.arrived.contains 5 = false ∧ (∃ g ∈ convoy0.later, g ≠ 5) ∧
    (c { convoy0 with later := [5] }).convoy 0 4 = some { convoy0 with later := [5] } ∧ convoy0.done.find? (fun x => x.1 = 5) = none ∧
    ({ convoy0 with done := [(5, 0)] }).done.find? (fun x => x.1 = 5) = some (5, 0) := by decide


/-- The state in which lanes 0 to 3 of element 0 execute in context 0. -/
def el (f : ElemCore → ElemCore) : State :=
  { base.modElem 0 (fun m => { m with core := f m.core }) with cur := { base.cur with lanes := 0x0F } }

/-- The first context changed. -/
def cx (f : Ctx → Ctx) : State := el (fun k => { k with ctx := vs k.ctx 0 (f (vg k.ctx 0 (Ctx.activated 0))) })

/-- A data token, a null token and a mark. -/
def tok0 : Token := { payload := 5, kind := 0, round := 1, tag := 2, poison := false, src := 0 }
/-- A null token. -/
def tokN : Token := { tok0 with kind := 1 }
/-- An end mark. -/
def tokE : Token := { payload := 1, kind := 2, round := 1, tag := 0, poison := false, src := 0 }

/-- A register that is null. -/
def nullV1 : State := cx (fun c => { c with v := vs c.v 1 { VReg.zero with null := true } })

/-- An operand record of registers. -/
def op (dst : BitVec 4) (a b : BitVec 5) (ty : BitVec 3) (md : BitVec 5) : Op := ⟨dst, a, b, ty, md, false, false⟩

/-- Every firing statement of the vector unit: operands that are not null and one that is, a register and an output destination. -/
theorem test_witness_vector :
    let s := el id
    s.cur.ctx < 8 ∧ (op 7 0 1 0 0).dst.toNat < 12 ∧ (op 11 0 1 0 0).dst.toNat < 12 ∧ (s.opnd 0).null = false ∧ (nullV1.opnd 1).null = true ∧
    s.runs 0 = true ∧ s.runs 7 = false := by decide

/-- VectorFloatArithmetic: each format with its width, a rounding mode and the stochastic one. -/
theorem test_witness_VectorFloatArithmetic :
    (vtFmt 2).width = vtWidth 2 ∧ RMode.ofCode 0 ≠ .sr ∧ RMode.ofCode 3 ≠ .sr ∧ RMode.ofCode 4 = .sr ∧
    ((List.range 8).filter (fun t => (vtFmt t).width = vtWidth t)).length > 1 := by decide

/-- VectorComparesAndSelection: the types and the last code of each compare; null and other operands. -/
theorem test_witness_VectorComparesAndSelection :
    (op 7 0 1 0 5).dst.toNat < 8 ∧ (op 7 0 1 0 5).ty = 0 ∧ (op 7 0 1 1 5).ty = 1 ∧ (op 7 0 1 2 7).md.toNat ≤ 7 ∧ (op 7 0 1 0 5).md.toNat ≤ 5 ∧
    (nullV1.opnd 1).null = true ∧ (nullV1.opnd 0).null = false := by decide

/-- VectorConversions: a listed pair of each kind. -/
theorem test_witness_VectorConversions :
    (∃ t ∈ List.range 8, (cvtDst t 0).isSome = true) ∧ (∃ t ∈ List.range 8, (cvtDst t 1).isSome = true) ∧ (∃ t ∈ List.range 8, (packDst t 0).isSome = true) ∧
    (∃ t ∈ List.range 8, (unpackPair t 0).isSome = true) ∧ RMode.ofCode 1 ≠ .sr ∧ (op 0 1 2 2 0).ty = 2 := by decide

/-- VectorSpecialFunctions and VectorAcrossLanes: each special input, and the types, operations and modes. -/
theorem test_witness_VectorSpecialFunctions :
    (op 0 1 2 2 0).ty = 2 ∧ (op 0 1 2 2 0).md = 0 ∧ (op 0 1 2 2 3).md.toNat < 4 ∧ (decodeF .f32 0x7FC00001).isNaN = true ∧
    (0x80000000 < 0x80000001 ∧ 0xFF800000 ≤ 0xFF800000) ∧ (op 0 1 2 1 7).md.toNat < 8 ∧ (op 0 1 2 1 23).md.toNat / 8 < 3 ∧
    (op 0 1 2 1 0).ty.toNat < 2 ∧ RMode.ofCode ((op 0 1 2 2 3).md.toNat % 8) ≠ .sr := by decide

/-- The state with a fusing entry in the shape table. -/
def shaped (e : BitVec 16) : State := el (fun k => { k with cfg := vs k.cfg 0 { ElemCfg.empty with fuse := Vector.replicate 16 e, width := 4 } })

/-- The brick statements: an integer entry of span 1, one of a larger span, destinations at both ends, null and other operands, a
tile's row, an emission, a head to forward. -/
theorem test_witness_brick :
    let s := shaped 0; let o := op 12 0 1 0 0
    12 ≤ o.dst.toNat ∧ o.dst.toNat < 16 ∧ s.cur.ctx < 8 ∧ (s.shape o).span = 1 ∧ (s.shape o).af < 2 ∧ (s.shape o).bf < 2 ∧
    (s.ctx.getAcc 0).f32 = false ∧ (s.opnd 0).null = false ∧ (nullV1.opnd 1).null = true ∧ s.held = false ∧
    (cx (fun c => { c with outst := [{ dests := [.acc 0], left := 1, group := some 5 }] })).held = true ∧
    1 < ((shaped 0x100).shape o).span ∧
    (let e := op 12 8 16 0 0; e.b.toNat / 16 % 2 = 1 ∧ e.bmd / 8 % 2 = 0) ∧ (let f := op 12 8 0 0 8; f.bmd / 8 % 2 = 1 ∧ f.b.toNat / 16 % 2 = 0) ∧
    (let h := el (fun k => { k with inp := vs k.inp 0 [tok0], cfg := vs k.cfg 0 { ElemCfg.empty with dbind := 0xFFFFFFFF } })
     h.head 0 = some tok0) := by decide

/-- BrickGroupStep: a group of two with one deposit, and with both. -/
theorem test_witness_BrickGroupStep :
    let dep : Nat → Deposit := fun m => { member := m, lanes := 0x0F, totals := [], null := false, poison := 0, left := 1 }
    let e : BitVec 16 := 0x100
    let cfg := { ElemCfg.empty with fuse := Vector.replicate 16 e, slots := [0x40C004001000] }
    let st := fun l => el (fun k => { k with cfg := vs k.cfg 0 cfg, group := [(0, l)] })
    (match cfg.instr 0 with | some (.mac o) => 12 ≤ o.dst.toNat && decide ((Shape.of (vg cfg.fuse o.shape 0)).span = 2) | _ => false) = true ∧
    tget ((st [dep 0]).elem 0).core.group 0 [] = [dep 0] ∧ (∃ m, m < 2 ∧ [dep 0].filter (fun x => decide (x.member = m)) = []) ∧
    (∀ m ∈ List.range 2, [dep 0, dep 1].filter (fun x => decide (x.member = m)) ≠ []) ∧ (∀ x ∈ [dep 0, dep 1], x.member < 2) ∧
    (let l : List Outst := [{ dests := [.acc 0], left := 1, group := some 5 }, { dests := [.acc 0], left := 1, group := some 0 }]
     (l.takeWhile (fun x => x.group != some 0)).any (fun x => x.group.isSome) = true ∧ (∃ x ∈ l, x.group = some 0) ∧
     (∀ x ∈ l, x.effs = [])) := by decide

/-- BrickAccumulatorWrites, BrickLoadsAndDots and BrickReadsAndPermutations: each kind, both modes, the register forms. -/
theorem test_witness_brick_kinds :
    let f := cx (fun c => { c with acc := Vector.replicate 4 { Acc.zero with f32 := true } })
    (f.ctx.getAcc 3).f32 = true ∧ ((el id).ctx.getAcc 3).f32 = false ∧
    (op 15 0 1 0 0).bmd / 4 = 0 ∧ (op 15 0 1 0 4).bmd / 4 = 1 ∧ (op 15 13 1 0 8).bmd / 4 = 2 ∧ (op 15 13 1 0 12).bmd / 4 = 3 ∧
    (op 7 15 1 0 0).dst.toNat < 8 ∧ 12 ≤ (op 7 15 1 0 0).a.toNat ∧ (op 7 15 1 0 0).a.toNat < 16 ∧ (op 11 0 1 0 5).bmd < 8 ∧
    (op 11 0 1 0 5).bmd / 2 ≠ 3 := by decide

/-- A running block of incarnation 7 that writes register 3 back, taken as the block of element 0. -/
def blk0 : Block := Image.empty.block 0 7

/-- The element as one of that block. -/
def own (f : Block → Block) : State :=
  rg (el (fun k => { k with cfg := vs k.cfg 0 { ElemCfg.empty with loaded := true, inc := 7 } })) (fun r => { r with cur := some (f blk0) })

/-- TriggerPredicatesAndLoops and TriggerChannels: modes, operations, heads, ports and control tokens. -/
theorem test_witness_trigger :
    let h := el (fun k => { k with inp := Vector.replicate 4 [tok0], qin := Vector.replicate 2 [true] })
    (op 7 0 0 0 0).imm / 2048 < 3 ∧ (op 7 0 0 0 7).md.toNat < 8 ∧ (op 8 0 0 0 0).imm / 4096 % 2 = 0 ∧ (op 8 0 16 0 0).imm / 4096 % 2 = 1 ∧
    vg h.core.qin 1 [] = true :: [] ∧ h.head 3 = some tok0 ∧ tok0.kind ≠ 1 ∧ 8 ≤ (op 11 8 9 0 0).dst.toNat ∧ (op 11 8 9 0 0).dst.toNat < 12 := by
  decide

/-- TriggerChannels (`DEQ` of an end mark at the sink) and TriggerMarks: an end mark and a round mark at a head, a mask, both kinds. -/
theorem test_witness_TriggerMarks :
    let h := el (fun k => { k with inp := Vector.replicate 4 [tokE] }); let o : Op := ⟨8, 11, 0, 0, 31, true, false⟩
    8 ≤ o.a.toNat ∧ o.a.toNat < 12 ∧ h.head 3 = some tokE ∧ tokE.kind = 2 ∧ tokE.payload.toNat % 4 = 1 ∧ ({ tokE with payload := 0 }).payload.toNat % 4 = 0 ∧
    o.md.toNat % 16 ≠ 0 ∧ o.dqb = false ∧ o.dqa = true ∧ o.md.toNat / 16 % 2 = 1 ∧ (op 11 0 0 0 1).md.toNat < 2 ∧ (op 11 0 0 0 0).md.toNat < 2 := by
  decide

/-- TriggerPondMemory: offsets that are and are not multiples of 32, a null operand, a base register. -/
theorem test_witness_TriggerPondMemory :
    let odd := cx (fun c => { c with v := vs c.v 1 { VReg.zero with val := 4097 } })
    ((lane (odd.opnd 1).val 0).toNat % 4096 + 32 * ((op 9 1 0 0 1).imm % 128)) % 4096 % 32 ≠ 0 ∧
    ((lane (odd.opnd 0).val 0).toNat % 4096 + 32 * ((op 9 0 0 3 31).imm % 128)) % 4096 % 32 = 0 ∧ (odd.opnd 1).null = false ∧
    (nullV1.opnd 1).null = true ∧ (odd.regionOfElem 0).map (fun r => r.lead) = some 0 ∧ (op 9 1 0 0 1).dst.toNat / 8 = 1 ∧
    (op 1 1 0 0 1).dst.toNat / 8 = 0 := by decide

/-- TriggerRequests and TriggerBlockReports: output destinations, a block without and with a branch token, write-backs declared, written
and not declared, null and poisoned operands. -/
theorem test_witness_TriggerBlockReports :
    let w := own (fun b => { b with img := { b.img with wbMask := 8 } })
    8 ≤ (op 11 0 1 0 0).dst.toNat ∧ w.cur.ctx < 8 ∧ w.cur.elem < 49152 ∧ (w.regionOfElem 0).isSome = true ∧
    w.blockOf 0 0 = some { blk0 with img := { Image.empty with wbMask := 8 } } ∧ blk0.branch = none ∧
    (own (fun b => { b with branch := some 1 })).blockOf 0 0 = some { blk0 with branch := some 1 } ∧ (w.opnd 0).null = false ∧
    8 / 2 ^ 3 % 2 = 1 ∧ tfind blk0.wbs 3 = none ∧ 8 / 2 ^ 4 % 2 = 0 ∧ (nullV1.opnd 1).null = true := by decide


/-! ### Switches and regions -/

/-- The configuration of element 0 with the switch words given in its first registers. -/
def swd (l : List (BitVec 16)) (f : Elem → Elem) : State :=
  (el id).modElem 0 (fun m => f { m with core := { m.core with
    cfg := vs m.core.cfg 0 { ElemCfg.empty with sw := (List.range l.length).foldl (fun v k => vs v k (lget l k 0)) (Vector.replicate 16 0) } } })

/-- FabricFlow, a result that completes at output 0, whose place is the first that is not ready. -/
theorem test_witness_FabricFlow_result :
    let x : Outst := { dests := [.out 0], left := 0, group := none }
    let q : OutTok := { tok := { tok0 with src := 1 }, ready := false, counts := none }
    let s := at3 (el (fun k => { k with out := vs k.out 0 [q], ctx := vs k.ctx 0 { Ctx.activated 0 with outst := [x] } })) 0 0 0
    (vg (s.elem 0).core.ctx 0 (Ctx.activated 0)).outst = [x] ∧ x.left = 0 ∧ x.group = none ∧ x.dests = [.out 0] ∧
    vg (s.elem 0).core.out 0 [] = [] ++ q :: [] ∧ q.ready = false ∧ q.tok.src % 2 ^ 24 = 1 + (0 * 8 + 0) * 4 + 0 ∧
    4 ≤ ((el (fun k => { k with idle := 4 })).elem 0).core.idle := by decide

/-- FabricFlow, a token taken from a link and from an output: by its only destination, by the last of two, and by the first of two. -/
theorem test_witness_FabricFlow_taken :
    let ins := fun (tk : List Nat) (l : List (BitVec 16)) => at3 (swd l (fun m => { m with
      router := { m.router with rin := vs m.router.rin 0 [tok0], offers := vs m.router.offers 0 [4], taken := vs m.router.taken 0 tk } })) 0 0 4
    let out := at3 (swd [0x1200] (fun m => { m with
      core := { m.core with out := vs m.core.out 0 [{ tok := tok0, ready := true, counts := none }] },
      router := { m.router with offers := vs m.router.offers 4 [4] } })) 0 4 4
    (∀ s ∈ [ins [] [0x1000], ins [5] [0x1000, 0x1400], ins [] [0x1000, 0x1400]], s.routes 0 = true ∧ s.feeder 0 4 = some (.src 0) ∧
      (vg (s.elem 0).router.offers 0 []).contains 4 = true ∧ s.srcHead 0 0 = some tok0 ∧ tok0.kind < 2 ∧
      (s.elem 0).core.blocked = false ∧ vg (s.elem 0).router.hold 4 0 ≤ s.cycle ∧ 4 ∉ vg (s.elem 0).router.taken 0 [] ∧
      (s.elem 0).swapIn.getLsbD 0 = false ∧ (s.elem 0).tideClosed.getLsbD 0 = false ∧ (s.elem 0).snap = none ∧
      (vg (s.elem 0).core.inp 0 []).length < 4 ∧ (s.targets 0 0).filter (fun d => !(vg (s.elem 0).router.taken 0 []).contains d) ≠ []) ∧
    (ins [] [0x1000]).targets 0 0 = [4] ∧ (ins [5] [0x1000, 0x1400]).targets 0 0 = [4, 5] ∧
    out.routes 0 = true ∧ out.feeder 0 4 = some (.src 4) ∧ out.srcHead 0 4 = some tok0 := by decide

/-- FabricFlow, a delay node whose token is due at input 0. -/
theorem test_witness_FabricFlow_delay :
    let s := at3 (swd [0x5002] (fun m => { m with router := { m.router with delay := [(0, [(tok0, 0)])] } })) 0 0 0
    swDst (s.swWord 0 0) = 4 ∧ s.routes 0 = true ∧ s.feeder 0 4 = some (.delay 0) ∧ tget (s.elem 0).router.delay 0 [] = (tok0, 0) :: [] ∧
    0 ≤ s.cycle ∧ tok0.kind < 2 := by decide

/-- A region of bands 8 and 9, at the west edge of die 1, whose element 8192 holds an inbound channel node of key 7 toward the east. -/
def westEnd (key : Nat) : State :=
  let img := { Image.empty with chans := [{ port := 0, dir := 1, edge := 0, key := 7 }] }
  { (base.modElem 8192 (fun m => { m with core := { m.core with
        cfg := vs m.core.cfg 0 { ElemCfg.empty with inc := 7, sw := vs ElemCfg.empty.sw 0 0x6048 } } })) with
    regions := [{ reg0 with lead := 8, bands := 2, cur := some (img.block 8 7) }],
    fifos := [(0, { toks := [{ tok := tok0, due := 0, vd := 0, key := key }], next := 0 })] }

/-- FabricFlow, a channel node whose FIFO holds a token of its own key, and one of another. -/
theorem test_witness_FabricFlow_channel :
    ∀ p ∈ [(westEnd 7, 7), (westEnd 6, 6)], p.1.routes 8192 = true ∧ p.1.feeder 8192 1 = some (.chan 0) ∧ swSide (p.1.swWord 8192 0) = 1 ∧
      (p.1.chanHead 8192 (p.1.swWord 8192 0)).map (fun x => (x.tok, x.key)) = some (tok0, p.2) ∧
      p.1.chanKey 8192 (p.1.swWord 8192 0) = some 7 ∧ (p.1.regionOfElem 8192).isSome = true ∧ p.1.tiding 8192 = false ∧
      tok0.malformed = false ∧ neighbourOf 8192 1 = some 8320 ∧ p.1.linkReady 8320 (facing 1) = true := by decide

/-- FabricFlow, a control token at a link, offered to the element. -/
theorem test_witness_FabricFlow_control :
    let s := at3 (swd [] (fun m => { m with router := { m.router with rcin := vs m.router.rcin 0 [true], offers := vs m.router.offers 0 [68] } })) 0 8 4
    s.routes 0 = true ∧ (vg (s.elem 0).router.offers 0 []).contains (64 + 4) = true ∧ s.ctlHead 0 0 = some true ∧
    (vg (s.elem 0).core.qin 0 []).length < 4 ∧ (s.elem 0).core.blocked = false ∧ vg (s.elem 0).router.chold 4 0 ≤ s.cycle := by decide

/-- FabricFlow, a slot and a switch register with a wrong parity bit, and sound ones. -/
theorem test_witness_FabricFlow_parity :
    let s := swd [0x1000] (fun m => { m with core := { m.core with parity := [3, 32] } })
    s.badParity 0 false 3 = true ∧ s.badParity 0 false 4 = false ∧ s.badParity 0 true 0 = true ∧ s.badParity 0 true 1 = false ∧
    (s.regionOfElem 0).all (fun r => s.fires r && s.alive r) = true ∧ (s.regionOfElem 0).isSome = true ∧ (s.elem 0).core.blocked = false := by decide

/-- FabricFlow, a hot link that waits, faults of an element, and a die link with a region on each side. -/
theorem test_witness_FabricFlow_rest :
    let h := { (swd [] (fun m => { m with router := { m.router with hold := vs m.router.hold 3 5 } })) with hot := BitVec.allOnes 96 }
    let d := { base with regions := [{ reg0 with lead := 7, bands := 2 }] }
    h.isHot 0 = true ∧ h.cycle < vg (h.elem 0).router.hold 3 0 ∧ (h.regionOfElem 0).isSome = true ∧ h.vox.events.length < 1024 ∧
    (d.regionAt 7).isSome = true ∧ (d.regionAt 8).isSome = true ∧ 8 * 4 + 8 < 48 ∧ (63 : Nat) < 64 := by decide

/-- The region of the state with its shadow, and element 0 as one of a block that swaps. -/
def swp (f : Region → Region) (g : Elem → Elem) : State := (rg (el id) f).modElem 0 g

/-- FabricSwaps, an element that passes to the slot of a block that is being swapped in, and the first of an armed one. -/
theorem test_witness_FabricSwaps_element :
    let a := swp (fun r => { r with shadow := .swapping }) id
    let b := swp (fun r => { r with shadow := .armed, shImg := some Image.empty }) (fun m => { m with core := { m.core with
      cfg := vs m.core.cfg 1 { ElemCfg.empty with slots := [0] } } })
    (∀ s ∈ [{ a with chron := 1 }, { b with chron := 1 }], (s.region 0).all (fun r => s.elemCycle r 0 && !s.slackHolds r 0 &&
        decide (r.armedAt < s.cycle) && decide (r.newInc ≠ some 0)) = true ∧ (s.elem 0).core.blocked = false ∧
      (s.elem 0).snap = none ∧ (s.elem 0).swapReady = true ∧ (s.elem 0).core.active = 0) ∧
    (a.region 0).all (fun r => !a.swapsNow r 0) = true ∧
    a.regionOfElem 0 = a.region 0 ∧ (a.region 0).map (fun r => r.shadow) = some .swapping ∧
    (b.region 0).all (fun r => r.shadow = .armed && r.shImg.isSome) = true := by decide

/-- FabricSwaps, a router whose element is in the other slot. -/
theorem test_witness_FabricSwaps_router :
    let s := swp (fun r => { r with shadow := .swapping }) (fun m => { m with core := { m.core with active := 1 } })
    (s.elem 0).core.active ≠ (s.elem 0).router.rset ∧ s.routes 0 = true ∧ (s.elem 0).mayChange (s.swWords 0) = true := by decide

/-- A load binding at column 0, side 0, that has sent its swap mark. -/
def sent : BindSt :=
  { BindSt.start { base := 0, target := 0, dir := 0, lsid := 0, mode := 0, bufs := 0, col := 0, side := 0, gen := 0, depth := 0, fmt := 0,
                   strides := Vector.replicate 4 0 } with swapped := true }

set_option maxRecDepth 20000 in
/-- FabricSwaps, a column end of a region all of whose elements have swapped, and one of a predecessor whose binding there has. -/
theorem test_witness_FabricSwaps_end :
    let all := (rg base (fun r => { r with shadow := .swapping, cur := some { blk0 with inc := 0 } })).modEdge 0 (fun g => { g with endInc := 3 })
    let one := (rg base (fun r => { r with succ := some { blk0 with inc := 8 }, cur := some { blk0 with binds := [sent] } })).modEdge 0
      (fun g => { g with endInc := 7 })
    (all.region 0).all (fun r => decide (r.newInc = some 0) && r.hasEnd 0 && all.allSwapped r 0) = true ∧ (all.edge 0).endInc ≠ 0 ∧
    (one.region 0).all (fun r => decide (r.newInc = some 8) && r.hasEnd 0 &&
      decide ((r.blockOf (one.edge 0).endInc).map (fun o => o.bindsAt 0 0) = some [sent])) = true ∧ (one.edge 0).endInc = 7 ∧
    sent.swapped = true := by decide

/-- A block image of one node with one slot, `add.i32 v0, v0, v0`, at the first byte of the tarn window: its bytes that are not zero, by R87's
fields, with the check that CRC-32C gives. -/
def imageBytes : List (Nat × Byte) :=
  [(0, 67), (1, 75), (2, 66), (3, 57), (4, 1), (8, 1), (9, 1), (10, 1), (24, 192), (25, 1), (28, 128), (32, 128), (36,
      128), (44, 128), (52, 160), (53, 1), (56, 200), (57, 84), (58, 37), (59, 117), (132, 1), (416, 1), (417, 1), (418, 1),
      (419, 1), (420, 1), (421, 1), (422, 1), (423, 1), (424, 1), (425, 1), (426, 1), (427, 1), (428, 1), (429, 1), (430, 1),
      (431, 1)]

/-- A state with that image in the first tarn layer. -/
def imaged (s : State) : State := { s with mem := imageBytes.map (fun x => (2 ^ 46 + x.1, x.2)) }

/-- A table that holds one value under every key of a list gives that value wherever it is read. -/
theorem tget_const {α : Type} (l : List Nat) (g : Nat → α) (c : α) (k : Nat) (h : ∀ e, g e = c) : tget (l.map (fun e => (e, g e))) k c = c := by
  induction l with
  | nil => rfl
  | cons a r ih => simp only [List.map_cons, tget, h]; split <;> simp_all

/-- The fabric of an image without switch words whose nodes bind nothing: no words, nothing bound. -/
theorem plain_fabric (m : Image) (lead bands : Nat) (hs : m.sws = []) (hn : ∀ n ∈ m.nodes, n.dbind = 0 ∧ n.cbind = 0) (e : Nat) :
    (m.fabric lead bands).words e = List.replicate 16 0 ∧ tget (m.fabric lead bands).dbind e 0 = 0 ∧ tget (m.fabric lead bands).cbind e 0 = 0 := by
  have hm : ∀ c y n, m.nodeOf c y = some n → n.dbind = 0 ∧ n.cbind = 0 := fun c y n h => hn n (List.mem_of_find?_eq_some h)
  refine ⟨?_, ?_, ?_⟩
  · simp only [Fabric.words, Image.fabric, Image.setOf, hs, writeRecs, List.foldl_nil]
    rw [tget_const _ _ _ _ (fun _ => rfl)]; decide
  · refine tget_const _ _ _ _ (fun x => ?_)
    split
    · rename_i n h; rw [(hm _ _ n h).1]; decide
    · rfl
  · refine tget_const _ _ _ _ (fun x => ?_)
    split
    · rename_i n h; rw [(hm _ _ n h).2]; decide
    · rfl

/-- Such a fabric keeps every rule. -/
theorem plain_firstBad (m : Image) (lead bands : Nat) (join : Nat → Bool) (hs : m.sws = []) (hn : ∀ n ∈ m.nodes, n.dbind = 0 ∧ n.cbind = 0) :
    (m.fabric lead bands).firstBad join = none := by
  simp only [Fabric.firstBad, List.find?_eq_none]
  intro e _
  obtain ⟨hw, hd, hc⟩ := plain_fabric m lead bands hs hn e
  simp only [Fabric.routerOk, Fabric.setOk, hw, hd, hc]
  have : ∀ x ∈ List.replicate 16 0, (m.fabric lead bands).wordOk join e x = true := by
    intro x hx; rw [(List.mem_replicate.1 hx).2]; rfl
  rw [List.all_eq_true.2 this]; decide

/-- Its channel words match an image without channel records. -/
theorem plain_chans (m : Image) (lead bands : Nat) (hs : m.sws = []) (hn : ∀ n ∈ m.nodes, n.dbind = 0 ∧ n.cbind = 0) (hc : m.chans = []) :
    m.chansMatch (m.fabric lead bands) = true := by
  have : ∀ l : List Nat, (l.flatMap (fun e => (((m.fabric lead bands).words e).filter (fun w => w != 0 && swKind w = 3)).map
      (fun w => (swPort w, b2n (swIn w), b2n (decide (dieCol e = 63)))))) = [] := by
    intro l; simp [fun e => (plain_fabric m lead bands hs hn e).1]
  simp only [Image.chansMatch, hc, this]; rfl

/-- The bytes of that image. -/
def imageList : List Byte := (List.range 448).map (fun k => tget imageBytes k 0)
/-- What a fetch gives where it does not fail. -/
def fetched (x : Except (Nat × Nat) (List Byte)) : Option (List Byte) :=
  match x with
  | .ok l => some l
  | .error _ => none

/-- A fetch that gives bytes succeeds with them. -/
theorem of_fetched {x : Except (Nat × Nat) (List Byte)} {l : List Byte} (h : fetched x = some l) : x = .ok l := by
  cases x <;> simp_all [fetched]

/-- A fetched image without switch words, channel records or bound ports that passes every other check is loaded. -/
theorem plain_load (s : State) (vd lead bands addr : Nat) (l : List Byte) (hf : fetched (s.fetch vd addr 4) = some (l.take 128))
    (hl : fetched (s.fetch vd addr (rd (l.take 128) 0x18 4 / 32)) = some l) (hh : lowestFail (headerFails (l.take 128) bands) = none)
    (hg : headerFails l bands = []) (hm : (Image.read addr l).sws = [] ∧ (∀ n ∈ (Image.read addr l).nodes, n.dbind = 0 ∧ n.cbind = 0) ∧
      (Image.read addr l).chans = [] ∧ (Image.read addr l).streams = [])
    (hb : checkOk l = true ∧ (Image.read addr l).fuse.toList.any (fun e => !fuseOk e.toNat) = false ∧ loopGap (Image.read addr l).loops = false ∧
      anyMeet (Image.read addr l).nodes = false ∧ (Image.read addr l).div.toList.any (fun d => decide (d = 0) || decide (d > 4)) = false ∧
      rd l 0x30 2 = 0 ∧ (List.range (Image.read addr l).nodes.length).all (fun k => nodeOk l (rd l 0x20 4 + 288 * k) bands &&
        slackOk l (rd l 0x20 4 + 288 * k) && (((Image.read addr l).slotEnv (nodeRecAt l (rd l 0x20 4 + 288 * k))).nodeFail
          (nodeRecAt l (rd l 0x20 4 + 288 * k)).rfree).isNone) = true) :
    s.loadImage vd lead bands addr = .image (Image.read addr l) := by
  obtain ⟨h1, h2, h3, h4⟩ := hm
  obtain ⟨b1, b2, b3, b4, b5, b6, b7⟩ := hb
  have hx : s.bodyFails vd lead bands l (Image.read addr l) = [] := by
    have hn : ∀ k ∈ List.range (Image.read addr l).nodes.length, nodeOk l (rd l 0x20 4 + 288 * k) bands = true ∧
        slackOk l (rd l 0x20 4 + 288 * k) = true ∧ ((Image.read addr l).slotEnv (nodeRecAt l (rd l 0x20 4 + 288 * k))).nodeFail
          (nodeRecAt l (rd l 0x20 4 + 288 * k)).rfree = none := by
      intro k hk; simpa [and_assoc] using List.all_eq_true.1 b7 k hk
    have hn1 : (List.range (Image.read addr l).nodes.length).any (fun k => !nodeOk l (rd l 0x20 4 + 288 * k) bands) = false := by
      rw [List.any_eq_false]; intro k hk; simp [(hn k hk).1]
    simp only [State.bodyFails, plain_firstBad _ _ _ _ h1 h2, plain_chans _ _ _ h1 h2 h3, h1, h3, h4, b1, b2, b3, b4, b5, hn1, List.any_nil,
      anyClash, List.length_nil, List.range_zero]
    simp
    intro k hk; simp [(hn k (List.mem_range.2 hk)).2.2, (hn k (List.mem_range.2 hk)).2.1]
  simp only [State.loadImage, of_fetched hf, hh, Option.filter_none, of_fetched hl, State.checkImage, hg, hx, List.append_nil, lowestFail]

set_option maxRecDepth 100000 in
/-- The image of `imageBytes` loads at band 0 where it is fetched. -/
theorem image_loads (s : State) (h : fetched (s.fetch 0 tarnWindow 4) = some (imageList.take 128))
    (hl : fetched (s.fetch 0 tarnWindow 14) = some imageList) :
    s.loadImage 0 0 1 tarnWindow = .image (Image.read tarnWindow imageList) := by
  have : rd (imageList.take 128) 0x18 4 / 32 = 14 := by decide
  refine plain_load _ _ _ _ _ _ h (by rw [this]; exact hl) ?_ ?_ ?_ ?_ <;> decide +kernel

set_option maxRecDepth 20000
/-- A rewrite of pilot 0, issued at cycle 0, that writes a word in register 0 of the router of element 0. -/
def rewr (w : Nat) : Rewrite :=
  { pilot := 0, recs := [{ word := w, reg := 0, col0 := 0, row0 := 0, w := 1, h := 1 }], banks := [(0, 0)], issued := 0 }

/-- What holds of every entry and of the default holds of what is read. -/
theorem tget_all {α : Type} (P : α → Prop) (l : List Nat) (g : Nat → α) (c : α) (k : Nat) (h : ∀ e, P (g e)) (hc : P c) :
    P (tget (l.map (fun e => (e, g e))) k c) := by
  induction l with
  | nil => exact hc
  | cons a r ih => simp only [List.map_cons, tget]; split <;> simp_all

/-- A ready-delay word of 1 at the north port of element 0 is a legal rewrite of a region that binds nothing. -/
theorem rewrite_legal (s : State) (r : Region) (he : s.elems = []) (h0 : r.lead = 0) : s.rewriteBad r (rewr 0x8010) = none := by
  have hz : ∀ e b, (vg (s.elem e).core.cfg b ElemCfg.empty) = ElemCfg.empty := by
    intro e b
    have : s.elem e = Elem.reset := by simp [State.elem, he, tget]
    rw [this]
    show (Vector.replicate 2 ElemCfg.empty)[b]?.getD ElemCfg.empty = _
    rw [Vector.getElem?_replicate]; split <;> rfl
  have hs : ∀ e, (s.rewritten r (rewr 0x8010)).words e = List.replicate 16 0 ∨
      (s.rewritten r (rewr 0x8010)).words e = 0x8010 :: List.replicate 15 0 := by
    intro e
    have := tget_all (fun v : Vector (BitVec 16) 16 => v = Vector.replicate 16 0 ∨ v = vs (Vector.replicate 16 0) 0 0x8010) r.elems
      (fun e => writeRecs (rewr 0x8010).recs (colOf e - r.col0) (rowOf e)
        (vg (s.elem e).core.cfg ((rewr 0x8010).bank e (s.elem e).core.active) ElemCfg.empty).sw) (Vector.replicate 16 0) e
      (by intro x; rw [hz]; simp only [rewr, writeRecs, List.foldl_cons, List.foldl_nil]; split
          · right; rfl
          · left; rfl) (by left; rfl)
    rcases this with h | h
    · left; simp only [Fabric.words, State.rewritten, h]; decide
    · right; simp only [Fabric.words, State.rewritten, h]; decide
  have hd : ∀ e, tget (s.rewritten r (rewr 0x8010)).dbind e 0 = 0 := by
    intro e; refine tget_const _ _ _ _ (fun x => ?_); simp only [hz]; decide
  have hc : ∀ e, tget (s.rewritten r (rewr 0x8010)).cbind e 0 = 0 := by
    intro e; refine tget_const _ _ _ _ (fun x => ?_); simp only [hz]; decide
  have hw : ∀ e, (s.rewritten r (rewr 0x8010)).wordOk s.joined e 0 = true ∧ (s.rewritten r (rewr 0x8010)).wordOk s.joined e 0x8010 = true := by
    intro e; exact ⟨rfl, rfl⟩
  have hr : ∀ e, (s.rewritten r (rewr 0x8010)).routerOk s.joined e = true := by
    intro e
    have ha : ((s.rewritten r (rewr 0x8010)).words e).all ((s.rewritten r (rewr 0x8010)).wordOk s.joined e) = true := by
      rcases hs e with h | h <;> rw [h] <;> simp [(hw e).1, (hw e).2]
    simp only [Fabric.routerOk, ha, Fabric.setOk, hd, hc]
    rcases hs e with h | h <;> rw [h] <;> decide
  have hl : s.recLegal (s.rewritten r (rewr 0x8010)) (rewr 0x8010) { word := 0x8010, reg := 0, col0 := 0, row0 := 0, w := 1, h := 1 } 0 = true := by
    simp only [State.recLegal, hz, (hw 0).2]
    rcases hs 0 with h | h <;> rw [h] <;> decide
  have hp : (rewr 0x8010).recs.flatMap (fun c => (c.routers r.lead).map (fun e => (c, e))) =
      [({ word := 0x8010, reg := 0, col0 := 0, row0 := 0, w := 1, h := 1 }, 0)] := by rw [h0]; decide
  have hf : (s.rewritten r (rewr 0x8010)).firstBad s.joined = none := by
    simp [Fabric.firstBad, hr]
  simp only [State.rewriteBad, hp, hf, List.find?, hl, hr, Bool.not_true]

/-- FabricSwaps, a rewrite issued 16 cycles ago, legal and illegal. -/
theorem test_witness_FabricSwaps_rewrite :
    let s := fun w => { (rg base (fun r => { r with rewrites := [rewr w], lastRewrite := 15 })) with chron := 8 }
    (∀ w ∈ [0x8010, 0xFFFF], ((s w).region 0).all (fun r => decide (r.rewrites = rewr w :: []) && decide ((rewr w).issued + 16 ≤ (s w).cycle) &&
      decide (r.lastRewrite < (s w).cycle) && !(s w).gated r && (s w).linesEmpty r (rewr w)) = true) ∧
    (rewr 0x8010).banks.filter (fun x => x.1 = 0) = [(0, 0)] ∧ (∀ r, (s 0x8010).region 0 = some r → (s 0x8010).rewriteBad r (rewr 0x8010) = none) ∧
    ((s 0xFFFF).region 0).map (fun r => (s 0xFFFF).rewriteBad r (rewr 0xFFFF)) = some (some (0, 0xFFFF)) := by
  refine ⟨by decide, by decide, fun r h => rewrite_legal _ _ rfl ?_, by decide⟩
  rw [← Option.some.inj h]; rfl

/-- RegionBlocks, a load whose image is legal, and one that reads zeros. -/
theorem test_witness_RegionBlocks_load :
    let s := rg (imaged base) (fun r => { r with shadow := .loading, loadAddr := tarnWindow })
    let z := rg base (fun r => { r with shadow := .loading, loadAddr := tarnWindow })
    (∀ r, s.region 0 = some r → r.shadow = .loading ∧ s.gated r = false ∧ (s.elem 0).core.active < 2 ∧
      s.loadImage r.vd r.lead r.bands r.loadAddr = .image (Image.read tarnWindow imageList)) ∧
    (z.region 0).all (fun r => decide (z.loadImage r.vd r.lead r.bands r.loadAddr = .fail { code := 1, col := 0, row := 0 })) = true := by
  refine ⟨fun r h => ?_, by decide +kernel⟩
  rw [← Option.some.inj h]
  exact ⟨by decide, by decide, by decide, image_loads _ (by decide +kernel) (by decide +kernel)⟩

/-- RegionBlocks, a block that may commit, beside a shadow that is empty and one that is being swapped in. -/
theorem test_witness_RegionBlocks_commit :
    let f := fun (r : Region) => { r with cur := some { blk0 with branch := some 3 }, ending := true }
    let a := rg base f
    let b := rg base (fun r => { f r with shadow := .swapping, succ := some { blk0 with inc := 8 } })
    (∀ s ∈ [a, b], (s.region 0).all (fun r => !s.gated r && decide (r.running = .running) && decide (r.cur = some { blk0 with branch := some 3 }) &&
        decide (r.faults = []) && r.ends.all (fun g => (s.edge g).cmds.isEmpty)) = true ∧ (s.vd 0).cxlq = []) ∧
    blk0.img.storeMask = 0 ∧ blk0.img.wbMask = 0 ∧ blk0.img.flags / 4 % 2 = 0 ∧ reg0.ending = false ∧
    (let c := { blk0 with sinks := [3], sunk := [3] }; c.sinks ≠ [] ∧ (∀ k ∈ c.sinks, k ∈ c.sunk) ∧ c.branch = none) ∧ blk0.sinks = [] ∧ (a.region 0).map (fun r => r.shadow) = some .empty ∧
    (b.region 0).map (fun r => (r.shadow, b.allSwapped r 8)) = some (.swapping, false) := by decide

/-- RegionBlocks, a block fault and an element fault, with and without `EFE`. -/
theorem test_witness_RegionBlocks_fault :
    let ev : FaultEv := { cause := 4, elem := none, ctx := 0, slot := 0, bank := 0, detail := 0 }
    let e := rg base (fun r => { r with faults := [{ ev with cause := 0x10, elem := some 0 }] })
    let g := e.modPilot 0 (fun p => { p with pstatus := BitVec.allOnes 64 })
    (((rg base (fun r => { r with faults := [ev] })).region 0).map (fun r => (r.running, r.cur, r.blockFault, r.shadow)) =
      some (.running, some blk0, some 4, .empty)) ∧ 0x10 ≤ ({ ev with cause := 0x10 }).cause ∧ (e.pilot 0).efe = false ∧ (g.pilot 0).efe = true ∧
    e.snaps = [] ∧ (e.region 0).all (fun r => e.mayEnd r && decide (r.faultAt ≤ e.cycle)) = true ∧
    (rg e (fun r => { r with faultAt := 1 })).cycle < 1 ∧ (e.region 0).map (fun r => (r.faults.length, r.cur, r.shadow)) = some (1, some blk0, .empty) := by decide

/-! ### The Helm -/

/-- The bytes of fields (offset, size, value) from an address, those that are not zero. -/
def flds (a : Nat) (l : List (Nat × Nat × Nat)) : List Host.Cell :=
  l.flatMap (fun f => ((toLe f.2.1 f.2.2).mapIdx (fun k b => (a + f.1 + k, b))).filter (fun x => x.2 != 0))

/-- A graph at the node at the first byte of window 0. -/
def g0 : Graph := { Graph.accept 1 0 aperture 1 0 with started := true }

/-- The fields of that node and of what follows it, in the window's frame 5; the tables that map pages 0x2000 and 0x3000 to the first pages of host
memory and of the first reservoir; the graph changed. -/
def hl (l : List (Nat × Nat × Nat)) (f : Graph → Graph) : State :=
  at3 { base with
    vox := { base.vox with devstate := 2 }, vds := [(0, { vd0 with graphs := [f g0], nextGraph := 2, hostRanges := [(0, (0, 0x1000))] })],
    cipher := { base.cipher with frames := (List.range 4).map (fun k => (0x100 + k, { kind := 1, owner := 0, num := k })) },
    mem := flds 0x5000 l ++ flds 0x100000 [(0, 8, 0x101001), (0x1000, 8, 0x102001), (0x2000, 8, 0x103001), (0x3010, 8, 0x200000000013), (0x3018, 8, 0x10000000013)] } 0 1 0

/-- The line of the node. -/
def lineOf (s : State) : List Byte := ((s.helmRead 0 aperture 64).1).getD []

/-- Whether a node of a kind begins. -/
def begins (s : State) (kind : Nat) (x : Graph) : Bool :=
  decide (s.graph s.cur.x s.cur.y = some x ∧ s.vox.devstate = 2 ∧ (s.vd s.cur.x).present = true ∧ x.started = true ∧ x.state = .begin ∧
    (s.vd s.cur.x).quarantined = false ∧ (∀ f ∈ x.stack, f.addr ≠ x.node) ∧
    (s.helmRead s.cur.x x.node 64).1 = some (lineOf s) ∧ rd (lineOf s) 0 1 = kind ∧ nodeFault (lineOf s) = none)

/-- It is what the statements ask. -/
theorem begins_iff (s : State) (kind : Nat) (x : Graph) : begins s kind x = true ↔ nodeBegins s kind x (lineOf s) := decide_eq_true_iff

/-- Whether a node of a kind is in progress. -/
def runs (s : State) (kind : Nat) (x : Graph) (g : GState) : Bool :=
  decide (s.graph s.cur.x s.cur.y = some x ∧ s.vox.devstate = 2 ∧ (s.vd s.cur.x).present = true ∧ x.started = true ∧ x.state = g ∧
    rd x.line 0 1 = kind)

/-- It is what the statements ask. -/
theorem runs_iff (s : State) (kind : Nat) (x : Graph) (g : GState) : runs s kind x g = true ↔ nodeRuns s kind x g := decide_eq_true_iff

/-- The graph in hand, its line that of the node. -/
def held (l : List (Nat × Nat × Nat)) (st : GState) : Graph := { g0 with state := st, line := lineOf (hl l id) }

/-- A node of a kind: its first doubleword, its next address, a word address at 0x10. -/
def nk (kind flags : Nat) (r : List (Nat × Nat × Nat)) : List (Nat × Nat × Nat) :=
  [(0, 8, kind + 256 * flags), (8, 8, if kind = 12 then 0 else aperture + 0x80), (0x10, 8, aperture + 0x48)] ++ r

/-- HelmControlNodes: a condition that holds and one that does not, and a choice. -/
theorem test_witness_HelmControlNodes_choose :
    let c := fun w => hl (nk 4 0 [(0x18, 8, 5), (0x20, 8, 0xFF), (0x30, 8, aperture + 0xC0), (0x48, 8, w)]) id
    let k := fun w => hl (nk 6 0 [(0x20, 8, aperture + 0xC0), (0x38, 8, aperture + 0x100), (0x48, 8, w)]) id
    let b := fun s => begun s g0 (lineOf s)
    (∀ w ∈ [5, 6], begins (c w) 4 g0 = true ∧ ((b (c w)).helmWord 0 (rd (lineOf (c w)) 0x10 8)).1 = some (BitVec.ofNat 64 w) ∧
      ((b (c w)).vd 0).cxlq = []) ∧
    nodeCond (lineOf (c 5)) 5 = true ∧ nodeCond (lineOf (c 6)) 6 = false ∧
    (∀ w ∈ [3, 4], begins (k w) 6 g0 = true ∧ ((b (k w)).helmWord 0 (rd (lineOf (k w)) 0x10 8)).1 = some (BitVec.ofNat 64 w) ∧
      ((b (k w)).vd 0).cxlq = []) := by decide

/-- HelmControlNodes: a wait that ends at once, one that goes on, one that is read again, and one whose time is over. -/
theorem test_witness_HelmControlNodes_wait :
    let f := fun w t => nk 7 0 [(0x18, 8, 5), (0x20, 8, 0xFF), (0x30, 8, t), (0x48, 8, w)]
    let a := fun w => hl (f w 0) id
    let x := fun w t => held (f w t) .waiting
    let r := fun w t => { hl (f w t) (fun _ => x w t) with chron := 9 }
    (∀ w ∈ [5, 6], begins (a w) 7 g0 = true ∧
      ((begun (a w) g0 (lineOf (a w))).helmWord 0 (rd (lineOf (a w)) 0x10 8)).1 = some (BitVec.ofNat 64 w)) ∧
    nodeCond (lineOf (a 5)) 5 = true ∧ nodeCond (lineOf (a 6)) 6 = false ∧ rd (lineOf (a 6)) 0x30 8 = 0 ∧
    runs (r 5 0) 7 (x 5 0) .waiting = true ∧ ((r 5 0).helmWord 0 (rd (x 5 0).line 0x10 8)).1 = some 5 ∧ nodeCond (x 5 0).line 5 = true ∧
    runs (r 6 9) 7 (x 6 9) .waiting = true ∧ nodeCond (x 6 9).line 6 = false ∧ rd (x 6 9).line 0x30 8 ≠ 0 ∧
    rd (x 6 9).line 0x30 8 ≤ (r 6 9).chron.toNat - (x 6 9).since := by decide

/-- A loop on the stack, in a pass. -/
def pass (addr n count : Nat) : LoopSt := { addr := addr, pass := n, count := count, body := aperture + 0xC0, next := aperture + 0x80, iter := 0 }

/-- HelmControlNodes: a loop of no passes, one too deep, one that starts, the last of its passes and one before. -/
theorem test_witness_HelmControlNodes_loop :
    let n := fun c => [(0, 8, 5), (8, 8, aperture + 0x80), (0x10, 8, aperture + 0xC0), (0x18, 4, c)]
    let s := fun c k => hl (n c) (fun g => { g with stack := List.replicate k (pass 0 0 2) })
    let x := fun k => { g0 with stack := List.replicate k (pass 0 0 2) }
    let y := fun p => { held (n 2) .begin with stack := [pass 0 0 2, pass aperture p 2] }
    (∀ p ∈ [(0, 0), (2, 8), (2, 7)], begins (s p.1 p.2) 5 (x p.2) = true ∧ rd (lineOf (s p.1 p.2)) 1 1 = 0 ∧
      rd (lineOf (s p.1 p.2)) 0x18 4 = p.1 ∧ rd (lineOf (s p.1 p.2)) 0x20 8 = 0) ∧
    (∀ p ∈ [0, 1], runs (hl (n 2) (fun _ => y p)) (rd (y p).line 0 1) (y p) .begin = true ∧
      (y p).stack.dropWhile (fun f => f.addr != (y p).node) = [pass aperture p 2]) := by decide

/-- HelmControlNodes: a signal that stores, one that adds, a note to host memory and one elsewhere, and an end. -/
theorem test_witness_HelmControlNodes_signal :
    let g := fun k => hl (nk 8 k [(0x18, 8, 7)]) id
    let m := fun a => hl [(0, 8, 9), (8, 8, aperture + 0x80), (0x10, 8, a), (0x18, 8, 7), (0x20, 2, 3)] id
    let z := hl [(0, 8, 12)] id
    let b := fun s => begun s g0 (lineOf s)
    let cell := fun s => match (b s).helmCell 0 (rd (lineOf s) 0x10 8) true with | .ok c => some c | .error _ => none
    (∀ k ∈ [0, 1], begins (g k) 8 g0 = true ∧ rd (lineOf (g k)) 1 1 = k ∧ cell (g k) = some 0x5048 ∧ ((b (g k)).liveTags 0) = [] ∧
      (b (g k)).badAt 0x5048 = false ∧ ((b (g k)).vd 0).supp = []) ∧
    begins (m 0x2008) 9 g0 = true ∧ cell (m 0x2008) = some 0x200000000008 ∧ (b (m 0x2008)).sysReady 0 = true ∧ isHost 0x200000000008 = true ∧
    begins (m (aperture + 0x48)) 9 g0 = true ∧ cell (m (aperture + 0x48)) = some 0x5048 ∧ (b (m (aperture + 0x48))).sysReady 0 = true ∧
    ((b (m (aperture + 0x48))).storeUnit 0x5048 (toLe 8 7) false).sysReady 0 = true ∧
    begins z 12 g0 = true ∧ rd (lineOf z) 0x10 8 = 0 ∧ ((b z).vd 0).cxlq = [] ∧ isHbm 0x5048 = true ∧
    (b (g 0)).cipher.badCounters = [] ∧ (b (g 0)).cipher.raw = [] := by decide

/-- The fields of a `BLOCK` node, of a `PILOT` node, of a `COPY` node and of a `PREEMPT` node. -/
def blkL : List (Nat × Nat × Nat) :=
  [(0, 8, 1), (8, 8, aperture + 0x80), (0x10, 8, tarnWindow), (0x18, 8, 0x3000), (0x20, 8, 1), (0x28, 8, aperture + 0xC0)]
/-- A `PILOT` node. -/
def pilL : List (Nat × Nat × Nat) :=
  [(0, 8, 2), (8, 8, aperture + 0x80), (0x10, 8, aperture + 0x100), (0x18, 4, 8), (0x1C, 4, 4), (0x20, 8, 1), (0x28, 8, 77)]
/-- A `COPY` node. -/
def cpyL (d : Nat) : List (Nat × Nat × Nat) :=
  [(0, 8, 3), (8, 8, aperture + 0x80), (0x10, 8, d), (0x18, 8, aperture + 0x200), (0x20, 8, 64)]
/-- A `PREEMPT` node, with a list of one handle at its descriptor. -/
def preL (k : Nat) : List (Nat × Nat × Nat) :=
  [(0, 8, 10), (8, 8, aperture + 0x80), (0x10, 1, k), (0x11, 1, 15), (0x18, 8, aperture + 0x100), (0x100, 8, 1), (0x108, 8, 0x700000002)]
/-- A `BLOCK` node whose region's block has ended with a status. -/
def endS (v : BitVec 34) : State :=
  { hl blkL (fun _ => held blkL .placed) with
    regions := [{ Region.start 0 1 0 1 1 .block with compQ := [{ inc := 7, status := some v, wbs := [] }] }] }
/-- A `PILOT` node whose lead pilot has parked. -/
def parkS : State :=
  { (hl pilL (fun _ => held pilL .placed)).modPilot 0 (fun p => { p with run := .parked }) with regions := [Region.start 0 1 0 1 1 .block] }
/-- A launch that waits for a band, with the block image in the tarn window. -/
def launchS (l : List (Nat × Nat × Nat)) : State :=
  let h := hl l (fun _ => held l .placing)
  { h with regions := [], mem := h.mem ++ imageBytes.map (fun x => (2 ^ 46 + x.1, x.2)), cur := { h.cur with x := 0 } }

/-- HelmLaunchNodes: launching nodes that begin, copies of ranges that overlap and that do not, and `PREEMPT` nodes. -/
theorem test_witness_HelmLaunchNodes_begin :
    let b := fun s => begun s g0 (lineOf s)
    begins (hl blkL id) 1 g0 = true ∧ begins (hl pilL id) 2 g0 = true ∧ begins (hl (cpyL (aperture + 0x220)) id) 3 g0 = true ∧
    begins (hl (cpyL (aperture + 0x240)) id) 3 g0 = true ∧
    (∀ k ∈ [0, 1, 2, 3], begins (hl (preL k) id) 10 g0 = true ∧ rd (lineOf (hl (preL k) id)) 0x10 1 = k ∧
      (match (b (hl (preL k) id)).helmCell 0 (rd (lineOf (hl (preL k) id)) 0x18 8) true with | .ok c => c | .error _ => 0) = 0x5100 ∧
      ((b (hl (preL k) id)).handles 0 (rd (lineOf (hl (preL k) id)) 0x18 8)).1 = some (some [(7, 0x20000)])) := by decide +kernel

/-- The statuses of a commit by the default branch, of one by branch 1, and of a fault. -/
def stat (k : Nat) : BitVec 34 := match k with | 0 => 1 | 1 => 0x100000001 | _ => 0x80000004

/-- HelmLaunchNodes: a block that has committed by its default branch and by branch 1, one that has failed, and a lead pilot that has parked. -/
theorem test_witness_HelmLaunchNodes_end :
    (∀ k ∈ [0, 1, 2], runs (endS (stat k)) 1 (held blkL .placed) .placed = true ∧ ((endS (stat k)).graphRegion 0 1).map (fun q =>
        (q.running, q.compQ.getLast?.map (fun c => c.status), q.actImg)) = some (.none, some (some (stat k)), none) ∧
      (let l := if (stat k).toNat % 2 ^ 32 = 1 then recordStores 0 ((stat k).toNat / 2 ^ 32) [] else []
       let va := rd (held blkL .placed).line 0x18 8
       (∀ w ∈ l ++ [(0, [])], (match (endS (stat k)).helmCell 0 (va + w.1) true with | .ok _ => true | .error _ => false) = true) ∧
       ((((endS (stat k)).writeRecord 0 va l).2).writeRecord 0 va [(0, toLe 4 ((stat k).toNat % 2 ^ 32))]).1 = true)) ∧
    rd (held blkL .placed).line 0x28 8 ≠ 0 ∧
    (let o := { endS (stat 1) with hb := { Harbour.reset with snoops := [3] } }; (o.writeRecord 0 (rd (held blkL .placed).line 0x18 8)
      (recordStores 0 1 [])).2.sysReady 0 = false) ∧ ({ Image.empty with flags := 4 }).flags / 4 % 2 = 1 ∧
    runs parkS 2 (held pilL .placed) .placed = true ∧ (parkS.graphRegion 0 1).map (fun q => (q.lead, q.bands, q.running)) = some (0, 1, .none) ∧
    parkS.snaps = [] ∧ parkS.stoppedPilot (Region.start 0 1 0 1 1 .block) = none ∧ (parkS.pilot 0).run = .parked ∧
    (parkS.pilot 0).pend = [] := by decide

/-- HelmLaunchNodes: a copy under way, before a granule and after the last. -/
theorem test_witness_HelmLaunchNodes_copy :
    let s := fun n => hl (cpyL (aperture + 0x240)) (fun _ => held (cpyL (aperture + 0x240)) (.copying n false false))
    let cell := fun v w => match (s 0).copyCell 0 v w with | .ok c => c | .error _ => 0
    (∀ n ∈ [0, 64], runs (s n) 3 (held (cpyL (aperture + 0x240)) (.copying n false false)) (.copying n false false) = true) ∧ ((s 0).vd 0).resident = true ∧
    rd (held (cpyL (aperture + 0x240)) (.copying 0 false false)).line 0x20 8 = 64 ∧ cell (aperture + 0x200) false = 0x5200 ∧ cell (aperture + 0x240) true = 0x5240 ∧
    isHost 0x5200 = false ∧ (s 0).viewBad 0x5200 = false ∧ (s 0).cipher.badCounters = [] ∧ (s 0).cipher.raw = [] ∧ (s 0).sysReady 0 = true := by
  decide +kernel

/-- HelmLaunchNodes: `PREEMPT` nodes that are done, and one whose command has failed. -/
theorem test_witness_HelmLaunchNodes_preempt :
    let x := fun k t a => { held (preL k) .waiting with todo := t, answer := a }
    let s := fun y => hl (preL 0) (fun _ => y)
    (∀ k ∈ [0, 1, 2, 3], ∀ y ∈ [x k [] none, x k [(7, 0)] (some (0x12, 0))], runs (s y) 10 y .waiting = true ∧ rd y.line 0x10 1 = k ∧
      (s y).snaps = [] ∧ ((s y).vd 0).cxlq = []) := by decide +kernel

/-- HelmLaunchNodes: a launch that the Helm places at band 0, of pilots and of the block of `imageBytes`. -/
theorem test_witness_HelmLaunchNodes_place :
    (∀ l ∈ [pilL, blkL], (launchS l).vox.devstate = 2 ∧ ((launchS l).launches 0).find? (fun (x : Nat × Graph) => !x.2.tried && (launchS l).neverFits x.1 x.2.bands x.2.mask) = none ∧
      (let u := (launchS l).markTried 0; let y := { held l .placing with tried := true }
       u.nextLaunch 0 = some (0, y) ∧ u.fitMask 0 y.bands y.mask = some 0 ∧ u.graph 0 1 = some y)) ∧
    rd (held pilL .placing).line 0 1 = 2 ∧ (((launchS pilL).markTried 0).chartImage 0 (rd (held pilL .placing).line 0x10 8) (rd (held pilL .placing).line 0x18 4)).1.isSome = true ∧
    rd (held blkL .placing).line 0 1 = 1 ∧ rd (held blkL .placing).line 0x10 8 = tarnWindow ∧ ((launchS blkL).markTried 0).warmImage 0 0 1 tarnWindow = none ∧
    ((launchS blkL).markTried 0).loadImage 0 0 1 tarnWindow = .image (Image.read tarnWindow imageList) := by
  refine ⟨by decide +kernel, by decide +kernel, by decide +kernel, by decide +kernel, by decide +kernel, by decide +kernel, ?_⟩
  exact image_loads _ (by decide +kernel) (by decide +kernel)

/-- VD 0 with its Helm page changed, and a launch word for queue 0 in host memory. -/
def page (w : Nat) (f : HelmPage → HelmPage) : State :=
  let h := hl [] id
  { h with mem := h.mem ++ flds 0x200000000000 [(0, 8, w)] }.modVd 0 (fun d => { d with helm := f { d.helm with hwatch := 0x2005 } })

/-- HelmPagesAndSharing: launch words of a number already accepted and of a new one: for an open queue, malformed, for a paused queue; the
queue's line has been taken. -/
theorem test_witness_HelmPagesAndSharing_launch :
    let s := fun w q => at3 (page w (fun h => { h with taken := Vector.replicate 4 true })) 0 q 0
    (∀ w ∈ [0x2040, 0x0010000000002040, 0x0010000000002041], (s w 0).vox.devstate = 2 ∧ ((s w 0).vd 0).helm.enabled = true ∧
      (((s w 0).vd 0).graphs.filter (fun g => g.queue = 0)).length < 64 ∧ (s w 0).sysReady 0 = true ∧ ((s w 0).vd 0).helm.owed = [] ∧ (s w 0).watchCell 0 0 = some 0x200000000000 ∧
      fromLe ((s w 0).view 0x200000000000 8) = w ∧ vg ((s w 0).vd 0).helm.taken 0 false = true ∧ vg ((s w 0).vd 0).helm.accepts 0 0 = 0) ∧
    isHost 0x200000000008 = true ∧ (s 0 1).watchCell 0 1 = some 0x200000000040 ∧ ((s 0 1).vd 0).helm.hwatch.getLsbD (1 + 1) = true ∧
    ((s 0 1).vd 0).helm.hwatch.getLsbD (1 + 0) = false := by decide

/-- HelmPagesAndSharing: requests that fit and one that does not, a request before its broadcast and after it has drained, and lines at host
memory and elsewhere. -/
theorem test_witness_HelmPagesAndSharing_page :
    let q := (0x4000, 2, 5, aperture + 0x40)
    let s := fun n d => page 0 (fun h => { h with invq := List.replicate n q, draining := d })
    ((s 7 false).vd 0).helm.invq.length < 8 ∧ 8 ≤ ((s 8 false).vd 0).helm.invq.length ∧ ((s 1 false).vd 0).helm.invq = q :: [] ∧
    ((s 1 true).vd 0).helm.draining = true ∧ (s 1 true).drainedOld 0 ((s 1 true).vd 0).helm.drainFrom = true ∧
    (busy (s 1 true) { load0 with stale := true }).drainedOld 0 0 = false ∧
    (match (s 1 true).helmCell 0 (aperture + 0x40) true with | .ok c => c | .error _ => 0) = 0x5040 ∧ isHost 0x5040 = false ∧
    (s 1 true).cipher.badCounters = [] ∧ (s 1 true).cipher.raw = [] ∧
    (page 0 id).watchCell 0 0 = some 0x200000000000 ∧ (page 0 (fun h => { h with hwatch := 1 })).watchCell 0 0 = none := by decide

/-- HelmPagesAndSharing: a quota used up, a waiting VD whose turn comes, and one that can be seated. -/
theorem test_witness_HelmPagesAndSharing_sharing :
    let w := { vd0 with resident := false, layers := [], graphs := [{ g0 with state := .placing }], q := { Quotas.zero with tarns := 16 } }
    let a := at3 { hl [] id with vds := [(0, { vd0 with q := { Quotas.zero with bricks := 4 }, charge := 4 }), (1, w)] } 0 1 0
    let b := at3 { hl [] id with vds := [(1, w)], regions := [] } 0 0 0
    (a.vd 0).present = true ∧ (a.vd 0).exhausted = false ∧ (a.vd 0).q.bricks ≠ 0 ∧ (a.vd 0).q.bricks ≤ (a.vd 0).charge ∧
    (let c := { a with vds := [(0, { vd0 with layers := List.range 16 }), (1, w)] }
     (a.waiting 0).head? = some 1 ∧ (a.allocation 1).isSome = true ∧ (∀ k ∈ a.residents 0, (a.vd k).switching = false) ∧
     (c.waiting 0).head? = some 1 ∧ c.allocation 1 = none ∧ (∀ k ∈ c.residents 0, (c.vd k).switching = false) ∧ c.victim 0 = some 0) ∧
    b.vox.devstate = 2 ∧ b.regions = [] ∧ (∀ k ∈ b.vds, k.2.part = 0 → k.2.switching = false) ∧
    (b.waiting 0).findSome? (fun v => (b.allocation v).map (fun a => (v, a))) = some (1, ([0], [])) := by decide

/-! ### The edge units -/

/-- A packet with the words given in its lanes. -/
def pk (l : List Nat) : Token := { tok0 with payload := ofLanes (fun k => BitVec.ofNat 32 (lget l k 0)), tag := 0 }

/-- Command 5 of edge unit 0 with those words. -/
def cm (l : List Nat) : Cmd := mkCmd 5 0 0 7 (pk l) none

/-- Edge unit 0, which serves the running block, with commands and changed; the event names command 5. -/
def ed (cs : List Cmd) (f : Edge → Edge) : State := at3 (base.modEdge 0 (fun x => f { x with endInc := 7, cmds := cs })) 0 5 0

/-- Whether a command's range reads. -/
def readable (s : State) (r : Region) (c : Cmd) (second : Bool) (kind a n : Nat) : Bool :=
  n != 0 && (match s.spot r.vd s.cur.x kind a false false (s.entryOf s.cur.x c second) with | .cell _ => true | _ => false) &&
    (match s.cellsOf r.vd s.cur.x kind false (s.entryOf s.cur.x c second) (pieces a n) with | .ok _ => true | _ => false)

/-- Then some bytes are what it reads. -/
theorem readable_reads {s : State} {r : Region} {c : Cmd} {second : Bool} {kind a n : Nat} (h : readable s r c second kind a n = true) :
    ∃ data bad, readsRange s r c second kind a n data bad := by
  simp only [readable, Bool.and_eq_true, bne_iff_ne] at h
  obtain ⟨⟨h1, h2⟩, h3⟩ := h
  split at h2
  · rename_i p hp
    split at h3
    · rename_i l hl; exact ⟨_, _, h1, p, l, hp, hl, rfl, rfl⟩
    · cases h3
  · cases h2

/-- The command words of class 3, with an opcode and low bits. -/
def c3 (op low : Nat) : Nat := 3 * 2 ^ 30 + op * 2 ^ 24 + low

/-- EdgeCommands: the watch commands and `XSCALE`, with a scale of 255 and one that is not; `XSPLIT` before a scale token and before a block;
`CVTIN` without a scale and with each kind of one. -/
theorem test_witness_EdgeCommands :
    let rdy := fun (op : Nat) (c : Cmd) => (ed [c] id).readyOp op = some (reg0, c)
    let inn := fun (op : Nat) (c : Cmd) => (ed [c] id).readyIn op = some (reg0, c)
    let sp := fun p => { cm [0, 0, 64, 0, 16, 0, 0x11, c3 0 0] with pos := p }
    let cv := fun m => cm [0x40, 0, 0, 0, 16, 0, 0x11 + m * 2 ^ 16, c3 6 0]
    rdy 3 (cm [0, 0x400, 0, 0, 0, 0, 0, c3 3 0x80]) ∧ rdy 4 (cm [0, 0, 0, 0, 0, 0, 0, c3 4 0x180]) ∧ rdy 5 (cm [0, 0, 0, 0, 0, 0, 0, c3 5 0x200]) ∧
    rdy 2 (cm [1, 2, 3, 4, 0xFF7F, 0x7F7F, 1, c3 2 0x80]) ∧ (cm [1, 2, 3, 4, 0xFF7F, 0x7F7F, 1, c3 2 0x80]).tok.w 4 / 2 ^ 8 % 256 = 255 ∧
    (∀ p ∈ [0, 1], inn 0 (sp p) ∧ readable (ed [sp p] id) reg0 (sp p) (p = 0) 1 (if p = 0 then 64 else 0) (if p = 0 then 8 else 16) = true) ∧
    (∀ m ∈ [0, 1, 2], inn 6 (cv m) ∧ readable (ed [cv m] id) reg0 (cv m) false 1 0 1 = true ∧
      (m ≠ 0 → readable (ed [cv m] id) reg0 (cv m) true 1 0x40 (if m = 2 then 2 else 1) = true)) := by decide

/-- EdgeCommands: an `LDE`, and an `STE` with and without `.resp`, of tarn granules. -/
theorem test_witness_EdgeCommands_request :
    let c := fun (op resp : Nat) => { cm [0x60, 0, 0, 0, 0, 0, 0, 2 * 2 ^ 30 + op * 2 ^ 24 + 0x80 + resp * 0x200] with data := some tok0 }
    (∀ p ∈ [(12, 0), (13, 0), (13, 1)], let s := ed [c p.1 p.2] id
      s.cmdReady 0 5 = some (reg0, c p.1 p.2) ∧ (c p.1 p.2).op = 52 + p.1 ∧ (c p.1 p.2).begun = false ∧ (c p.1 p.2).tok.w 7 / 2 ^ 7 % 4 = 1 ∧
      s.spot 0 0 1 0x60 (decide (p.1 = 13)) (decide (p.1 = 13)) (s.entryOf 0 (c p.1 p.2) false) = .cell (2 ^ 46 + 0x60) ∧
      isHost (2 ^ 46 + 0x60) = false ∧ isHbm (2 ^ 46 + 0x60) = false) ∧
    (c 13 0).tok.returns = false ∧ (c 13 1).tok.returns = true ∧ (c 13 0).data = some tok0 ∧ tok0.poison = false := by decide

/-- EdgeLinks: transforms to open, a token for an open one, one whose group holds a null token, one to write. -/
theorem test_witness_EdgeLinks_transforms :
    let xj := { cm [0, 0, 64, 0, 2, 0, 0x111, c3 1 0] with begun := true }
    let o := fun l => ({ id := 5, tag := 1, taken := l.length, group := l } : XOut)
    let full := fun (x : Edge) (o : XOut) => match x.find o.id with
      | some c => if c.op = 1 then decide (o.group.length = 4) else decide ((cvtoutSpan (cvtoutWidth c.tok.sub3) c.pos).2 < o.taken)
      | none => false
    let s := fun l => ed [xj] (fun x => { x with opens := [o l], xhand := [{ tok0 with tag := 1 }] })
    let u := s (List.replicate 4 tok0)
    (∀ op ∈ [1, 7], let c := cm [0, 0, 64, 0, 2, 0, 0x111, c3 op 0]
      (ed [c] id).cur.y = 5 ∧ ((ed [c] id).edge 0).find 5 = some c ∧ c.begun = false ∧ c.op = op) ∧
    ((s [tok0]).edge 0).opens.find? (full ((s [tok0]).edge 0)) = none ∧ ((s [tok0]).edge 0).xhand = { tok0 with tag := 1 } :: [] ∧
    ((s [tok0]).edge 0).openOn 1 = some (o [tok0]) ∧ xj.part = 0 ∧ u.lost (2 ^ 46 + 64) = false ∧ u.lost (2 ^ 46) = false ∧
    (let n := s [tok0, tokN, tok0, tok0]; (n.edge 0).opens.find? (full (n.edge 0)) = some (o [tok0, tokN, tok0, tok0]) ∧
      n.cmdReady 0 5 = some (reg0, xj) ∧ tokN.kind = 1 ∧ xj.pos + 1 ≠ xj.tok.w 4) ∧
    (u.edge 0).opens.find? (full (u.edge 0)) = some (o (List.replicate 4 tok0)) ∧ u.cmdReady 0 5 = some (reg0, xj) ∧ xj.op = 1 ∧ tok0.kind = 0 ∧
    tok0.poison = false ∧ isAffine xj.tok.sub3 = false ∧ xj.tok.w 6 / 2 ^ 4 % 16 = 1 ∧ xj.tok.w 6 % 16 = 1 ∧
    u.spot 0 0 1 64 true false (u.entryOf 0 xj true) = .cell (2 ^ 46 + 64) ∧ u.spot 0 0 1 0 true false (u.entryOf 0 xj false) = .cell (2 ^ 46) ∧
    (match u.cellsOf 0 0 1 true (u.entryOf 0 xj true) (pieces 64 1), u.cellsOf 0 0 1 true (u.entryOf 0 xj false) (pieces 0 (blockBytes 0)) with
      | .ok a, .ok b => (a, b) | _, _ => ([], [])) = ([(2 ^ 46 + 64, 1)], [(2 ^ 46, blockBytes 0)]) := by decide

/-- Element 0 with a token on its south link, offered to edge unit 0. -/
def offer (t : Token) : State :=
  let s := swd [0x100] (fun m => { m with router := { m.router with rin := vs m.router.rin 2 [t], offers := vs m.router.offers 2 [0] } })
  at3 (s.modEdge 0 (fun x => { x with endInc := 7 })) 0 0 0

/-- EdgeLinks: a mark, a token that nothing claims, and a packet, offered to an edge unit. -/
theorem test_witness_EdgeLinks_outbound :
    let cmd := pk [1, 2, 3, 4, 0x7F7F7F7F, 0, 1, c3 2 0]
    (∀ t ∈ [tokE, { tok0 with tag := 3 }, cmd], (offer t).incoming (endRouter 0) (endLink 0) = some (.src 2, t) ∧ ((offer t).edge 0).outClosed = false ∧
      ((offer t).edge 0).halfSte = none ∧ ((offer t).edge 0).openOn 3 = none ∧ ((offer t).edge 0).hold ≤ (offer t).cycle ∧ ((offer t).endRegion 0).isSome = true ∧ (offer t).recordFull 0 = false ∧
      ((offer t).endBlock 0).map (fun p => p.2) = some blk0) ∧
    tokE.kind = 2 ∧ tokE.payload.toNat % 4 < 2 ∧ tok0.kind < 2 ∧ blk0.binds = [] ∧ cmd.kind = 0 ∧ cmd.poison = false ∧ cmd.tag = 0 ∧ cmd.cls = 3 ∧
    cmd.opc ≤ 0x1D ∧ cmd.classI1 = false ∧ (offer cmd).engineOk 0 0 0 Image.empty cmd = true ∧ (offer cmd).roomFor 0 cmd = true ∧ cmd.listAtPort = false ∧ (offer cmd).hostTarget 0 0 cmd = false ∧ cmd.returns = true ∧
    ((offer cmd).regionAt 0).map (fun r => decide ((offer cmd).recorded r < 1024)) = some true := by decide

/-- EdgeLinks: each source of inbound tokens in turn. -/
theorem test_witness_EdgeLinks_inbound :
    let s := fun (f : Edge → Edge) => at3 ((swd [0x1000] id).modEdge 0 (fun x => f { x with endInc := 7 })) 0 0 0
    let a := s (fun x => { x with rsps := [{ id := 1, tok := some tok0, tag := 0, orig := none }] })
    let b := s (fun x => { x with xouts := [(tok0, none)] })
    let c := s (fun x => { x with springs := [tok0] })
    (∀ p ∈ [(a, 4), (b, 5), (c, 6)], p.1.routes 0 = true ∧ p.1.linkReady 0 0 = true ∧ (p.1.swWords 0).any (swTakes 0) = true ∧
      (p.1.edge 0).marks = [] ∧ (p.1.edge 0).inClosed = false ∧ (p.1.edge 0).rr = 0 ∧
      ((List.range 8).map (fun i => (0 + 1 + i) % 8)).find? (fun k => (p.1.inboundHead 0 k).isSome) = some p.2 ∧
      p.1.inboundHead 0 p.2 = some tok0) ∧ tok0.malformed = false := by decide

/-- EdgeLinks: watches of both directions, in their first round, and in a later one whose sum is not finite. -/
theorem test_witness_EdgeLinks_rounds :
    let s := ed [] (fun x => { x with crossings := [(1, 9)], watches := (vs (vs x.watches 1 { Watch.zero with armed := true, outward := true }) 2
      { Watch.zero with armed := true, outward := true, rounds := 1, s := 0x7F800000 }) })
    (s.edge 0).crossings = (1, 9) :: [] ∧ (vg (s.edge 0).watches 0 Watch.zero).armed = false ∧
    (vg (s.edge 0).watches 1 Watch.zero).armed = true ∧ b2n (vg (s.edge 0).watches 1 Watch.zero).outward = 1 ∧
    (vg (s.edge 0).watches 1 Watch.zero).rounds = 0 ∧ (vg (s.edge 0).watches 2 Watch.zero).rounds ≠ 0 ∧
    notFinite (vg (s.edge 0).watches 2 Watch.zero).s.toNat = true := by decide

/-! ### Stream engines -/

/-- A binding record at column 0, side 0: target, direction, mode; one buffer; a base. -/
def brec (target dir mode base : Nat) : BindRec :=
  { base := base, target := target, dir := dir, lsid := 3, mode := mode, bufs := 1, col := 0, side := 0, gen := 1, depth := 0, fmt := 0,
    strides := Vector.replicate 4 0 }

/-- The state in which the running block has that binding, at its place. -/
def bnd (b : BindRec) (f : BindSt → BindSt) : State :=
  at3 (rg base (fun r => { r with cur := some { blk0 with binds := [f (BindSt.start b)] } })) 0 0 0

/-- The region of such a state. -/
def bndReg (b : BindRec) (f : BindSt → BindSt) : Region := { reg0 with cur := some { blk0 with binds := [f (BindSt.start b)] } }

/-- StreamBindings: an iteration of a load binding and of a store binding of every target and mode, whose place is reached. -/
theorem test_witness_StreamBindings_iteration :
    let e : TEntry := { va := 0, size := 12, pa := 0x8000, w := true }
    let f := fun (dir k : Nat) (x : BindSt) => { x with gens := [0], filled := 1 - k, te := some e, takeq := if dir = 1 then [tok0] else [] }
    (∀ dir ∈ [0, 1], ∀ p ∈ [(0, 0, 0), (1, 0, 0), (1, 1, dir), (1, 2, 0), (2, 0, 0)],
      let b := brec p.1 dir p.2.1 0; let s := bnd b (f dir p.2.2); let x := f dir p.2.2 (BindSt.start b)
      s.curBinding = some (bndReg b (f dir p.2.2), { blk0 with binds := [x] }, x) ∧ s.alive (bndReg b (f dir p.2.2)) = true ∧ x.park = none ∧
      s.walks = [] ∧ s.cur.y ≠ 2 ∧ blk0.img.item x.it = .token 0 ∧ x.stageRoom = true ∧ (s.edge 0).inClosed = false ∧
      s.spot 0 0 p.1 0 (decide (dir ≠ 0)) (decide (dir ≠ 0)) x.te = .cell (if p.1 = 0 then 0x8000 else if p.1 = 1 then 2 ^ 46 else resBase) ∧
      (x.gens = [0] ∧ (dir = 1 → x.takeq = [tok0] ∧ x.unperformed = 0 ∧ x.it = 0)) ∧ blk0.img.endsLevel3 0 = true) ∧
    tok0.kind ≠ 1 ∧ tok0.poison = false ∧ tokN.kind = 1 ∧ isHost 0x8000 = false ∧ isHost resBase = false := by decide

/-- StreamBindings: a buffer to hand over, and a store binding whose end counts. -/
theorem test_witness_StreamBindings_end :
    let a := bnd (brec 1 0 0 0) id
    let b := bnd (brec 1 1 0 0) (fun x => { x with endTaken := true })
    a.curBinding.map (fun p => p.2.2.softs) = some [0] ∧
    b.curBinding.map (fun p => (p.2.2.br.dir, p.2.2.endTaken, p.2.2.takeq, p.2.2.unperformed, p.2.2.counted)) = some (1, true, [], 0, false) := by
  decide

/-- A walk of that binding, in a state whose tables map page 0x3000. -/
def walking (va : Nat) : State :=
  { hl [] id with regions := [bndReg (brec 0 0 0 0) id], cur := { base.cur with x := 0, y := 0, z := 0 },
                  walks := [{ who := .binding 0 0 0, second := false, va := va, write := false }] }

/-- StreamBindings: a walk that ends with an entry, one that does not, with room for its report and without. -/
theorem test_witness_StreamBindings_walk :
    (walking 0x3000).curBinding.isSome = true ∧ (walking 0x3000).walks.length = 1 ∧
    (match (walking 0x3000).walk 0 0x3000 false with | .ok e => e.pa | .error _ => 0) = resBase ∧
    (match (walking 0x9000).walk 0 0x9000 false with | .ok _ => (0, 0) | .error c => c) = (1, 0) ∧
    (bndReg (brec 0 0 0 0) id).sfq.length < 16 ∧
    16 ≤ ({ bndReg (brec 0 0 0 0) id with sfq := List.replicate 16 { w0 := 0, w1 := 0, w2 := 0, w3 := 0 } }).sfq.length := by decide

/-- StreamBindings: a window store that has not applied, new and sent again. -/
theorem test_witness_StreamBindings_window :
    let s := bnd (brec 0 1 0 aperture) (fun x => { x with takeq := [tok0], unperformed := 5 })
    let sup : Supp := { tag := 5, loc := locOf 0x5000, op := 0x40, result := 0, status := 0, flags := 0 }
    let u := s.modVd 0 (fun d => { d with supp := [sup] })
    s.curBinding.map (fun p => (p.2.2.takeq, p.2.2.unperformed, s.windowPlace 0 (p.2.2.address p.2.1.img p.2.2.it).2)) =
      some ([tok0], 5, .window 0 0x5000) ∧ s.unitFree 0x5000 = true ∧ u.unitFree 0x5000 = true ∧
    (s.modEdge 0 (fun x => { x with cmds := [{ cm [0] with unit := some (1, 0x5008) }] })).unitFree 0x5000 = false ∧ s.lookup 5 (locOf 0x5000) 0x40 = .fresh ∧ u.lookup 5 (locOf 0x5000) 0x40 = .again sup ∧
    tok0.poison = false ∧ s.cipher.badCounters = [] ∧ s.cipher.raw = [] := by decide

/-- StreamBindings: a tarn granule whose bank has seven corrections within a second, and none; a storage to clear. -/
theorem test_witness_StreamBindings_storage :
    let a := at3 { base with upsets := [(2 ^ 46, 2)] } (2 ^ 46) 1 1
    let e := at3 { base with upsets := [(2 ^ 46, 3)] } (2 ^ 46) 1 1
    let b := { a with banks := [(storageOf (2 ^ 46) * 16 + 1, List.replicate 7 0)] }
    let d := at3 { base with dirty := [(storageKey 0 3, 0)], lastVd := [(storageKey 0 3, 0)] } 0 3 0
    isSram (2 ^ 46) = true ∧ isTarn (2 ^ 46) = true ∧ a.poisonedAt (2 ^ 46) = false ∧ a.lost (2 ^ 46) = false ∧ a.bankErrors (2 ^ 46) = [1] ∧
    e.lost (2 ^ 46) = true ∧ base.bankErrors (2 ^ 46) = [] ∧ base.lost (2 ^ 46) = false ∧ isSram 0x8000 = false ∧ (d.vd 0).spill = false ∧ a.vox.events.length < 1023 ∧
    ((tget a.banks (storageOf (2 ^ 46) * 16 + 1) []).filter (fun u => a.chron.toNat < u + 1000000000) ++ [a.chron.toNat]).length < 8 ∧
    8 ≤ ((tget b.banks (storageOf (2 ^ 46) * 16 + 1) []).filter (fun u => b.chron.toNat < u + 1000000000) ++ [b.chron.toNat]).length ∧
    (tfind d.dirty (storageKey 0 3)).isSome = true ∧ tfind d.lastVd (storageKey 0 3) = some 0 ∧ (d.vd 0).spilled = [] ∧
    (d.vd 0).spilledBad = [] ∧ (d.vd 0).spilledEdges = [] := by decide

/-- The same block's state with stream commands in hand at edge unit 0. -/
def strm (b : BindRec) (f : BindSt → BindSt) (cs : List Cmd) : State :=
  at3 ((bnd b f).modEdge 0 (fun x => { x with endInc := 7, cmds := cs })) 0 5 0

/-- StreamCommands: a copy and a clear, before a granule and after the last, and a gather and a scatter. -/
theorem test_witness_StreamCommands_move :
    let c := fun op k => { cm [0x100, 0, 0x200, 0, if op < 14 then 64 else 0x300, 2, 0x11, c3 op 0x200] with pos := k, begun := true }
    let s := fun op k => strm (brec 1 0 0 0) id [c op k]
    (∀ op ∈ [10, 13, 14, 15], ∀ k ∈ [0, 2], (s op k).readyStream op = some (bndReg (brec 1 0 0 0) id, c op k) ∧ (c op k).peerDst = false ∧
      (c op k).hand = false ∧ (c op k).seen = [] ∧ (c op k).te = none ∧ (c op k).te2 = none) ∧
    (c 10 0).tok.w 4 / 32 = 2 ∧ (c 14 0).tok.w 5 = 2 ∧ (c 10 0).tok.listed = false ∧ listOk 1 0x200 ((s 14 0).listNow 0 0 (c 14 0).tok) = true ∧
    listOk 1 0x100 ((s 15 0).listNow 0 0 (c 15 0).tok) = true ∧ (c 14 0).tok.listed = true ∧ (c 14 0).list = none ∧
    (∀ k ∈ [0, 2], (let d := { c 14 k with list := some [(0, false), (0, false)] }; (strm (brec 1 0 0 0) id [d]).readyStream 14 = some (bndReg (brec 1 0 0 0) id, d) ∧
      d.list ≠ none ∧ (∀ e, d.list.bind (fun l => l[0]?) = some e → e = (signed (number (s 14 0) (2 ^ 46 + 0x300) 4) 32, false)))) ∧
    (∀ a ∈ [0x100, 0x200, 0x300], (s 10 0).spot 0 0 1 a false false none = .cell (2 ^ 46 + a) ∧
      (s 10 0).spot 0 0 1 a true false none = .cell (2 ^ 46 + a) ∧ isHost (2 ^ 46 + a) = false ∧ isHbm (2 ^ 46 + a) = false ∧
      (s 10 0).badAt (2 ^ 46 + a) = false) ∧
    ({ s 10 0 with poison := [2 ^ 46 + 0x200] }).badAt (2 ^ 46 + 0x200) = true ∧
    indexed 1 0x200 0 = some 0x200 ∧ indexed 1 0x100 0 = some 0x100 ∧ (0x100 + 32 * 2 ≤ 0x200) := by decide

/-- StreamCommands: a copy and a clear to the peer range, and lists whose first index lies outside the tarn. -/
theorem test_witness_StreamCommands_peer :
    let c := fun op => { cm [0, 0xFD300, 0x200, 0, 64, 2, 0x10, c3 op 0x200] with begun := true }
    let s := fun op => strm (brec 1 0 0 0) id [c op]
    let l := fun op => { cm [0x3FFE0, 0, 0x3FFE0, 0, 0x300, 2, 0x11, c3 op 0x200] with begun := true }
    let t := fun op => { strm (brec 1 0 0 0) id [l op] with mem := [(2 ^ 46 + 0x300, 1)] }
    (∀ op ∈ [10, 13], (s op).readyStream op = some (bndReg (brec 1 0 0 0) id, c op) ∧ (c op).peerDst = true ∧
      placeKind ((s op).peerPlace 0 0xFD30000000000 true) = 3 ∧ (s op).peerRoom 0 3 = true) ∧
    readable (s 10) (bndReg (brec 1 0 0 0) id) (c 10) false 1 0x200 64 = true ∧
    (let h := { cm [0x100, 0, 0x200, 0, 64, 0, 0x11, c3 10 0x100] with begun := true, pos := 2 }; let u := strm (brec 1 0 0 0) id [h]
     let r := bndReg (brec 1 0 0 0) id
     u.readyStream 10 = some (r, h) ∧ h.hand = true ∧ h.softReady r = true ∧ (u.edge 0).heldUp h = false ∧ h.peerDst = false ∧ h.pos = h.tok.w 4 / 32) ∧
    listOk 1 0x3FFE0 ((t 14).listNow 0 0 (l 14).tok) = false ∧ indexed 1 0x3FFE0 1 = none ∧
    (t 14).readyStream 14 = some (bndReg (brec 1 0 0 0) id, l 14) ∧ (t 15).readyStream 15 = some (bndReg (brec 1 0 0 0) id, l 15) ∧
    number (t 15) (2 ^ 46 + 0x300) 4 = 1 ∧ (s 10).sendInOrder 0 ((bndReg (brec 1 0 0 0) id).endSource 0) 3 0 64 = true ∧ (s 10).sendDone (c 10).tag = true := by decide

/-- StreamCommands: a fill and a drain of a ring of each mode, a hand-over, and an advance before and after its iteration has begun. -/
theorem test_witness_StreamCommands_rings :
    let c := fun op k => { cm [0x100, 0, 0x200, 0, 64, 0, 0x11, c3 op 0] with pos := k, begun := true }
    let f := fun (x : BindSt) => { x with filled := 1 }
    let s := fun op k m => strm (brec 1 0 m 0) f [c op k]
    (∀ m ∈ [1, 2], ∀ op ∈ [11, 12], ∀ k ∈ [0, 2], (s op k m).readyStream op = some (bndReg (brec 1 0 m 0) f, c op k) ∧
      (c op k).binding (bndReg (brec 1 0 m 0) f) = some (f (BindSt.start (brec 1 0 m 0))) ∧
      (s op k m).region 0 = some (bndReg (brec 1 0 m 0) f) ∧ ((s op k m).edge 0).heldUp (c op k) = false ∧ (c op k).hand = false ∧
      (f (BindSt.start (brec 1 0 m 0))).removed < 1) ∧
    (s 11 0 1).spot 0 0 1 32 true false none = .cell (2 ^ 46 + 32) ∧ (s 12 0 1).spot 0 0 1 0 false false none = .cell (2 ^ 46) ∧
    32 * (1 - 0) < 0x40000 ∧
    (s 9 0 0).readyStream 9 = some (bndReg (brec 1 0 0 0) f, c 9 0) ∧ (f (BindSt.start (brec 1 0 0 0))).softs ≠ [] ∧
    (∀ k ∈ [0, 1], let g := fun (x : BindSt) => { x with it := k }; let t := strm (brec 0 1 0 0) g [cm [8, 0, 0, 0, 0, 0, 0, c3 8 0]]
      let d := { cm [8, 0, 0, 0, 0, 0, 0, c3 8 0] with begun := true }; let r := bndReg (brec 0 1 0 0) g
      t.readyStream 8 = some (r, d) ∧ r.blockOf d.inc = r.cur ∧ d.hand = false ∧ d.binding r = some (g (BindSt.start (brec 0 1 0 0))) ∧
      t.hasBegun r d (g (BindSt.start (brec 0 1 0 0))) { blk0 with binds := [g (BindSt.start (brec 0 1 0 0))] } 0 = decide (k = 1)) := by decide

/-- StreamCommands: responses due, asked for and not. -/
theorem test_witness_StreamCommands_response :
    let c := fun resp => { cm [0x100, 0, 0x200, 0, 64, 0, 0x11, c3 10 resp] with ended := some 0, poisoned := 1, firstPoison := some 0x2000000020 }
    (∀ p ∈ [0, 0x200], ((strm (brec 1 0 0 0) id [c p]).edge 0).find (strm (brec 1 0 0 0) id [c p]).cur.y = some (c p) ∧ (c p).ended = some 0) ∧
    (c 0).tok.returns = false ∧ (c 0x200).tok.returns = true := by decide

/-! ### Eddy units and spring decoders -/

/-- An atomic of type `ty` at address 0x40 of page 0, which edge unit 0 holds an entry for, with the original value returned or not. -/
def atm (op ty quiet : Nat) : Cmd := { cm [7, 0, 5, 0, 0x40, 0, 0xFFFF0000 + quiet, c3 op (ty * 0x100)] with tag := 5 }

/-- The state with that command, the poison marks and the entries of the suppression table. -/
def eddy (c : Cmd) (p : List Nat) (l : List Supp) : State :=
  { (ed [c] (fun x => { x with entries := [(2 ^ 24, { va := 0, size := 12, pa := 0x8000, w := true })] })).modVd 0 (fun d => { d with supp := l }) with
    poison := p }

/-- FabricAtomics: every atomic of every type at a fresh tag, clean and poisoned; a tag sent again and one that does not match;
`EFLUSH`. -/
theorem test_witness_FabricAtomics :
    let sup := fun op => ({ tag := 5, loc := 0x8040, op := op, result := 9, status := 0, flags := 0 } : Supp)
    (∀ op ∈ (List.range 11).map (0x10 + ·), ∀ q ∈ [0, 1], let c := atm op (if op = 0x1A then 0 else 3 * (1 - q)) q; let s := eddy c [] []
      s.readyOp op = some (reg0, c) ∧ s.spot 0 0 0 0x40 true false (s.entryOf 0 c false) = .cell 0x8040 ∧
      c.unit = none ∧ (s.atUnit 0x8040).length < 64 ∧ (let d := { c with begun := true, unit := some (9, 0x8040) }
        (eddy d [] []).readyOp op = some (reg0, d) ∧ (eddy d [] []).firstAt 9 0x8040 = true) ∧
      s.lookup c.tag 0x8040 (op * 4 + c.tok.w 7 / 2 ^ 8 % 4 + 0x100) = .fresh ∧ c.tok.returns = decide (q = 0)) ∧
    (eddy (atm 16 0 0) [] []).check 0x8040 = .clean ∧ (eddy (atm 16 0 0) [0x8040] []).check 0x8040 = .poisoned ∧ isHbm 0x8040 = true ∧
    (eddy (atm 16 0 0) [] []).cipher.badCounters = [] ∧ (eddy (atm 16 0 0) [] []).cipher.raw = [] ∧
    (eddy (atm 16 0 0) [] [sup (0x10 * 4 + 0x100)]).lookup 5 0x8040 (0x10 * 4 + 0x100) = .again (sup (0x10 * 4 + 0x100)) ∧
    (eddy (atm 16 0 0) [] [sup 0x150]).lookup 5 0x8040 (0x10 * 4 + 0x100) = .mismatch ∧
    (let y := { atm 16 0 0 with id := 6, unit := some (8, 0x8048) }
     (ed [y] id).firstAt 9 0x8040 = false ∧ 64 ≤ ((ed (List.replicate 64 y) id).atUnit 0x8040).length) ∧
    isHbm (2 ^ 46) = false ∧ isRes (2 ^ 46) = false ∧
    (let f := cm [0, 0, 0, 0, 0, 0, 0, c3 0x1B 0]; (ed [f] id).readyOp 0x1B = some (reg0, f)) := by decide

/-- EddyAndSpringUnits: tags to retire, of no peer send and of one that has completed; a convoy all of whose members have arrived. -/
theorem test_witness_EddyAndSpringUnits_tables :
    let o : PeerOut := { module := 4, vc := 2, tag := 5, status := 0, flit := Flit.blank }
    let a := at3 base 0 5 0
    let b := { a with hb := { a.hb with unretired := [o], ports := [(1, { Port.down with up := true, far := 4 })] } }
    let v := { convoy0 with arrived := [5, 6] }
    a.hb.unretired.find? (fun e => decide (e.tag = 5) && e.status != 255) = none ∧
    b.hb.unretired.find? (fun e => decide (e.tag = 5) && e.status != 255) = some o ∧ b.portTo 0 2 4 = some 1 ∧
    (at3 (base.modVd 0 (fun d => { d with convoys := [(4, v)] })) 0 4 0).convoy 0 4 = some v ∧ (∀ m ∈ v.members, m ∈ v.arrived) := by decide

/-- A spring command of two blocks of one token each, from tarn byte 0x200. -/
def spr (op low : Nat) (f : Cmd → Cmd) : Cmd := f (cm [0x100, 0, 0x200, 0, 2, 7, 0x10111, c3 op low])

/-- A state with that command and a stored block of 32 zero bytes at its source, with a sequence number and a check. -/
def sprS (c : Cmd) (seq check : Nat) (p : List Nat) : State :=
  { ed [c] id with mem := flds (2 ^ 46 + 0x200) [(0, 8, 0x0020002000025053), (8, 4, check), (12, 4, seq)], poison := p }

set_option maxRecDepth 20000 in
/-- EddyAndSpringUnits: a command that begins; one whose next block is right, or kept as decoded, out of sequence, fails its check, or holds poison; one that has
failed; and responses. -/
theorem test_witness_EddyAndSpringUnits_spring :
    let run := fun op k => spr op 0x200 (fun c => { c with begun := true, pos := k })
    let hd := fun (s : State) => s.view (2 ^ 46 + 0x200) 32
    let code := fun (x : Except Nat SpHead) => match x with | .ok h => h.granules | .error f => 100 + f
    let dec := fun (s : State) => match spHead (hd s) 7 1 with
      | .ok h => (match spDecode h (s.view (2 ^ 46 + 0x220) 32) with | .ok b => 32 - b.length | .error f => f) | .error _ => 99
    (∀ op ∈ [0x1C, 0x1D], (sprS (spr op 0 id) 7 0 []).readySpring (some op) = some (reg0, spr op 0 id) ∧ (spr op 0 id).begun = false ∧
      (sprS (run op 0) 7 0x8A9136AA []).readySpring none = some (reg0, run op 0) ∧ (run op 0).op = op ∧ (run op 0).pos < (run op 0).tok.w 4 ∧
      (run op 0).tok.w 6 / 2 ^ 16 % 256 = 1 ∧ ((sprS (run op 0) 7 0 []).edge 0).springs = [] ∧ (run op 0).failed = none ∧ (run op 0).block = none ∧ (run op 0).part = 0 ∧
      (let k := spr op 0x200 (fun c => { c with begun := true, block := some (List.replicate 32 1, false, 32) })
       (sprS k 7 0 []).readySpring none = some (reg0, k) ∧ k.failed = none ∧ k.part = 0) ∧
      ((sprS (run op 2) 7 0 []).edge 0).find 5 = some (run op 2) ∧ (run op 2).tok.w 4 ≤ (run op 2).pos) ∧
    (run 0x1C 0).tok.returns = true ∧ (spr 0x1C 0 id).tok.returns = false ∧
    (let s := sprS (run 0x1C 0) 7 0x8A9136AA []
     s.spot 0 0 1 0x200 false false none = .cell (2 ^ 46 + 0x200) ∧ s.spot 0 0 1 0x100 true false none = .cell (2 ^ 46 + 0x100) ∧
     (match s.cellsOf 0 0 1 false none (pieces 0x220 32), s.cellsOf 0 0 1 true none (pieces 0x100 32) with | .ok a, .ok b => (a, b) | _, _ => ([], [])) =
      ([(2 ^ 46 + 0x220, 32)], [(2 ^ 46 + 0x100, 32)]) ∧ s.viewBad (2 ^ 46 + 0x200) = false ∧ code (spHead (hd s) 7 1) = 2 ∧ dec s = 0) ∧
    code (spHead (hd (sprS (run 0x1C 0) 8 0x8A9136AA [])) 7 1) = 102 ∧ dec (sprS (run 0x1C 0) 7 1 []) = 6 ∧
    (sprS (run 0x1C 0) 7 0x8A9136AA [2 ^ 46 + 0x220]).viewBad (2 ^ 46 + 0x220) = true := by decide

/-! ### The anchor engine -/

/-- The state with an anchor command of the mailbox: its first doubleword by bytes, the incarnation, the offset; and VD 0 changed. -/
def anc (bytes : List Nat) (inc off : Nat) (f : Vd → Vd) : State :=
  at3 { base with
    vox := { base.vox with busy := true, devstate := 2, latched := some 0x21, record :=
      [(1, BitVec.ofNat 64 ((List.range bytes.length).map (fun k => lget bytes k 0 * 256 ^ k)).sum), (2, BitVec.ofNat 64 inc), (3, BitVec.ofNat 64 off)] },
    vds := [(0, f { vd0 with saveSize := 2 ^ 28 })] } 0 0 0

/-- A record of the region at offset 0x20000. -/
def rec0 : SaveRec :=
  { off := 0x20000, inc := 1, bands := 1, lead := 0, kind := 1, unrestartable := false, faultFrozen := false, snapNo := 0, graph := 5, time := 0,
    damaged := false, byHelm := false, region := reg0, elems := [], pilots := [], edges := [], entries := [], bytes := [], bad := [] }

/-- AnchorCommands: each command with a field out of its limits, and of a VD that does not exist; `CTXSIZE` of both kinds. -/
theorem test_witness_AnchorCommands_codes :
    (∀ k ∈ [1, 2, 3, 4, 5, 6], ∀ p ∈ [(anc [k, 0, 0, if k = 1 then 1 else 0, 0, 9] 0 0 id, false), (anc [k, b2n (k = 1), 1, b2n (k = 1)] 0 0 id, true)],
      p.1.vox.busy = true ∧ p.1.vox.devstate = 2 ∧ p.1.vox.latched = some 0x21 ∧ p.1.vox.field 8 1 = k ∧ p.1.snaps = [] ∧ p.1.vox.anchorOk = p.2) ∧
    ((anc [1, 1, 1, 1] 0 0 id).vd 1).present = false ∧ (anc [1, 0, 0, 48] 0 0 id).vox.anchorOk = true ∧ (anc [1, 0, 0, 48] 0 0 id).vox.field 9 1 = 0 ∧
    (anc [1, 1, 0, 48] 0 0 id).vox.anchorOk = true ∧ ((anc [1, 1, 0, 48] 0 0 id).vd 0).present = true := by decide

/-- AnchorCommands: an incarnation of no region and of one, with room for a record and without. -/
theorem test_witness_AnchorCommands_begin :
    (∀ k ∈ [2, 3, 4], (anc [k] 99 0 id).vox.anchorOk = true ∧ (anc [k] 99 0 id).vox.field 8 1 = k ∧ (anc [k] 99 0 id).regionNamed 0 99 = none ∧
      (anc [k] 1 0 id).vox.anchorOk = true ∧ (anc [k] 1 0 id).regionNamed 0 1 = some reg0 ∧ (anc [k] 1 0 id).isFrozen reg0 = false ∧
      (anc [k] 1 0 id).snapOf reg0 = none ∧ ((anc [k] 1 0 id).allocRecord 0 1).isSome = true) ∧
    reg0.shadow ≠ .loading ∧ (anc [2] 1 0 (fun d => { d with saveSize := 0 })).allocRecord 0 1 = none ∧ (anc [3, 1] 1 0 id).vox.anchorOk = true ∧
    (anc [3, 1] 1 0 id).vox.field 9 1 = 1 ∧ (anc [3] 1 0 id).vox.field 9 1 = 0 := by decide

set_option maxRecDepth 20000 in
/-- AnchorCommands: a running region that a tide can cross, since no element of it holds a node. -/
theorem test_witness_AnchorCommands_tideable : reg0.running = .running ∧ (anc [2] 1 0 id).tideable reg0 = true := by decide +kernel

/-- AnchorCommands: `DISCARD` and `RESTORE` of no record and of one; a record that is damaged, cannot be restarted, has no place, has its own
place, or holds a channel node and has another. -/
theorem test_witness_AnchorCommands_records :
    let s := fun k x y r => { anc [k, 0, 0, x, y] 0 0x20000 (fun d => { d with saves := r }) with regions := [] }
    let chan := { rec0 with lead := 3, elems := [(0, { Elem.reset with core := { ElemCore.reset with
      cfg := vs ElemCore.reset.cfg 0 { ElemCfg.empty with sw := vs ElemCfg.empty.sw 0 0x6048 } } })] }
    (∀ k ∈ [5, 6], ∀ r ∈ [[], [rec0]], (s k 0 0 r).vox.anchorOk = true ∧ (s k 0 0 r).vox.field 8 1 = k ∧ (s k 0 0 r).vox.field 0x18 8 = 0x20000 ∧
      ((s k 0 0 r).vd 0).saves = r ∧ (s k 0 0 r).snaps = []) ∧ rec0.off = 0x20000 ∧
    rec0.damaged = false ∧ rec0.unrestartable = false ∧ ({ rec0 with damaged := true }).damaged = true ∧
    (s 5 0 0 [rec0]).restorePlace 0 1 ((s 5 0 0 [rec0]).vox.field 0xB 1) ((s 5 0 0 [rec0]).vox.field 0xC 1) = some 0 ∧
    (s 5 1 0 [rec0]).vox.anchorOk = true ∧ (s 5 1 0 [rec0]).restorePlace 0 1 ((s 5 1 0 [rec0]).vox.field 0xB 1) 0 = none ∧ chan.hasChannel = true ∧
    (0 ≠ chan.lead) := by decide

/-- AnchorCommands: `RESTORE` of a record whose lines are sound and of one of which a line fails its check; a record moved to another band, whose
bindings reach tarns there and do not; a restore with an entry to issue again and without. -/
theorem test_witness_AnchorCommands_lines :
    let s := fun r => { anc [5] 0 0x20000 (fun d => { d with saves := [r] }) with regions := [] }
    let far := { rec0 with lead := 3 }
    let deep := { reg0 with cur := some ({ Image.empty with streams := [{ brec 1 0 0 0 with depth := 5 }] }.block 0 7) }
    let bad := { s rec0 with cipher := { base.cipher with badCounters := [0x20] } }
    let o : SnapOp := { SnapOp.start .mailbox reg0 0 with restore := true, gated := true }
    let u := fun q => at3 { anc [5] 0 0x20000 (fun d => { d with saves := [rec0] }) with snaps := [q] } 1 0 0
    (s rec0).recordBad 0 rec0 = [] ∧ bad.recordBad 0 rec0 ≠ [] ∧ ({ rec0 with unrestartable := true }).unrestartable = true ∧
    (s far).recordBad 0 far = [] ∧ (s far).restorePlace 0 1 0 0 = some 0 ∧ far.lead ≠ 0 ∧ far.hasChannel = false ∧
    ((s far).moved 0 3 0 reg0).isSome = true ∧ ((s far).moved 0 3 0 deep).isSome = false ∧ rec0.bad = [] ∧ rec0.region.bands = 1 ∧
    (let own := { s rec0 with lastVd := [(storageKey 2 0, 0)] }; tfind own.lastVd (storageKey 2 (0 + 0)) = some 0 ∧ tfind own.dirty (storageKey 2 (0 + 0)) = none) ∧
    (∀ q ∈ [{ o with todo := [(0, 0)] }, o], (u q).region 0 = some reg0 ∧ (u q).snapOf reg0 = some q ∧ q.restore = true) ∧
    ((u o).vd 0).saves.find? (fun k => k.off = 0x20000) = some rec0 := by decide

/-- AnchorCommands: a snapshot and a freeze that are complete, and a restore. -/
theorem test_witness_AnchorCommands_end :
    let o : SnapOp := { SnapOp.start .mailbox reg0 0 with save := true }
    let s := fun r q => at3 { anc [2] 1 0 id with regions := [r], snaps := [q] } 1 0 0
    let idle := { reg0 with running := .none }
    let fz := { o with freeze := true, gated := true }
    (s idle o).region 0 = some idle ∧ (s idle o).snapOf idle = some o ∧ (s idle o).snapDone idle o = true ∧ (s reg0 fz).snapOf reg0 = some fz ∧
    (s reg0 fz).snapDone reg0 fz = true ∧ (s reg0 { fz with gated := false }).snapDone reg0 { fz with gated := false } = false ∧ o.who = .mailbox ∧
    (let d := s idle o; let d := { d with vox := { d.vox with devstate := 3 } }
     d.vox.devstate = 3 ∧ d.region 0 = some idle ∧ d.snapOf idle = some o) := by decide

/-- Element 0 with its first input bound, a token offered there, and a snapshot of it or none. -/
def tided (t : Token) (k : Option ElemCore) (n : Nat) : State :=
  let s := swd [0x1000] (fun m => { m with
    core := { m.core with cfg := vs m.core.cfg 0 { vg m.core.cfg 0 ElemCfg.empty with dbind := 1 } },
    router := { m.router with rin := vs m.router.rin 0 [t], offers := vs m.router.offers 0 [4] },
    snap := k, caught := List.replicate n (0, tok0) })
  at3 { s with snaps := [SnapOp.start .mailbox reg0 0] } 0 0 0

/-- AnchorCommands: a tide mark that an element meets first and after its snapshot, and tokens that a saved element catches. -/
theorem test_witness_AnchorCommands_elements :
    let core := { ElemCore.reset with cfg := vs ElemCore.reset.cfg 0 { ElemCfg.empty with dbind := 1 } }
    (∀ k ∈ [none, some core], (tided (tideMark 3) k 0).tideAt 0 0 = some (.src 0, tideMark 3) ∧ ((tided (tideMark 3) k 0).elem 0).snap = k ∧
      ((tided (tideMark 3) k 0).elem 0).tideClosed.getLsbD 0 = false ∧ ((tided (tideMark 3) k 0).elem 0).core.blocked = false ∧
      ((tided (tideMark 3) k 0).elem 0).last ≠ (tided (tideMark 3) k 0).cycle + 1 ∧ ({ (tided (tideMark 3) k 0).elem 0 with last := 1 }).last = 0 + 1 ∧
      (let c := (k.getD ((tided (tideMark 3) k 0).elem 0).core); (vg c.cfg c.active ElemCfg.empty).bound / 2 ^ 0 % 2 = 1)) ∧
    (∀ n ∈ [15, 16], (tided tok0 (some core) n).incoming 0 (4 + 0) = some (.src 0, tok0) ∧ ((tided tok0 (some core) n).elem 0).caught.length = n ∧
      ((tided tok0 (some core) n).regionOfElem 0).isSome = true) ∧ (tok0.isMark && decide (tok0.mark = 2)) = false := by decide

/-- AnchorCommands: a freeze whose gate may close, saving and not, and a tide whose time is over. -/
theorem test_witness_AnchorCommands_time :
    let o := SnapOp.start .mailbox reg0 0
    (∀ q ∈ [{ o with freeze := true }, { o with freeze := true, save := true }, o], let s := { tided tok0 none 0 with snaps := [q], chron := 10000 }
      (s.region 0).isSome = true ∧ s.marksMissing reg0 = true ∧ s.snapOf reg0 = some q ∧ q.gated = false ∧ q.restore = false ∧ q.at0 + 20000 ≤ s.cycle) ∧
    o.freeze = false ∧ base.marksMissing { reg0 with running := .none } = false ∧ o.who = .mailbox := by decide

/-! ### Cipher units, windows and the Harbour -/

/-- CipherUnits: a line whose check fails, of a VD's frame, and one that reads; writes with a whole and an empty mask, as a poisoned line, over a
damaged line, and in a frame whose counters fail. -/
theorem test_witness_CipherUnits_lines :
    let s := fun (y : Nat) (d b : List Nat) => at3 { base with cipher := { base.cipher with
      raw := d.map (fun a => (a, ([], 0))), badCounters := b, frames := [(5, { kind := 1, owner := 0, num := 0 })], counters := [(5, { major := 4, minors := [(0, 127)] })] } } 0x5000 y 0
    (s 0 [] []).check 0x5000 ≠ .failed ∧ (s 0 [0x5000] []).check 0x5000 = .failed ∧ (s 0 [] [5]).check 0x5000 = .failed ∧
    ((s 0 [0x5000] []).frameOf 0x5000).kind = 1 ∧ (s 0 [0x5000] []).vox.events.length < 1024 ∧ unitOf 0x5000 = 0x5000 ∧ isHbm 0x5000 = true ∧
    (tget (s 0 [] []).cipher.counters 5 Counter.zero).major ≠ 2 ^ 64 - 1 ∧ tget (tget (s 0 [] []).cipher.counters 5 Counter.zero).minors 0 0 = 127 ∧
    (s 0 [] []).cur.y ≠ 1 ∧ (s 1 [] []).cur.y = 1 ∧ (BitVec.allOnes 64 : BitVec 64) ≠ 0 ∧ (s 0 [0x5040] []).check 0x5040 = .failed ∧
    tget (tget (s 0 [] []).cipher.counters 5 Counter.zero).minors 1 0 < 127 ∧ 5 ∈ (s 0 [] [5]).cipher.badCounters ∧
    (s 0 [] []).cipher.raw = [] ∧ (s 0 [] []).frameOf 0x9000 = Frame.unowned ∧ 5 ∉ (s 0 [] []).cipher.badCounters := by decide

/-- CipherUnits: nodes of the lowest and of the highest level to write back, with a counter that has room and one that has not. -/
theorem test_witness_CipherUnits_nodes :
    (∀ l ∈ [1, 5], ∀ n ∈ [126, 127], let s := at3 { base with cipher := { base.cipher with
        cached := [cacheKey 0 (nodeKey 0 l 64)], nodes := [(nodeKey 0 (l + 1) 1, { major := 2, minors := [(0, n)] })] } } 0 l 64
      cacheKey (s.cur.z / 2 ^ 30) (nodeKey s.cur.x s.cur.y (s.cur.z % 2 ^ 30)) ∈ s.cipher.cached ∧ 1 ≤ s.cur.y ∧ s.cur.y ≤ 5 ∧
      tget (tget s.cipher.nodes (nodeKey 0 (l + 1) 1) Counter.zero).minors (64 % 64) 0 = n ∧ s.vox.events.length < 1024 ∧
      (tget s.cipher.nodes (nodeKey 0 (l + 1) 1) Counter.zero).major ≠ 2 ^ 64 - 1) ∧
    (let c : Counter := { major := 2 ^ 64 - 1, minors := [(0, 127)] }; c.major = 2 ^ 64 - 1 ∧ 127 ≤ tget c.minors 0 0) := by decide

/-- A window operation of the mailbox: operation, handle address, base, length, members. VD 1 exists; page 0x4000 is VD 0's own frame 6; in the
reservoir page a member list stands at 0x3000 and the handle of window 0 at 0x3010. -/
def win (op h b n m : Nat) : State :=
  let s := hl [] id
  at3 { s with
    vox := { s.vox with busy := true, latched := some 0x22, record := [(1, 0), (2, BitVec.ofNat 64 op), (3, BitVec.ofNat 64 h), (4, BitVec.ofNat 64 b),
      (5, BitVec.ofNat 64 n), (6, BitVec.ofNat 64 m)] },
    vds := s.vds ++ [(1, vd0)],
    cipher := { s.cipher with frames := s.cipher.frames ++ [(6, { kind := 1, owner := 0, num := 9 })] },
    mem := s.mem ++ flds 0x103020 [(0, 8, 0x6013)] ++ flds resBase [(0, 2, 1), (2, 2, 1), (0x10, 8, 0x100)] } 255 0 0

/-- What a check of the window operation gives: the frames converted, or 100 and the code. -/
def winAns (s : State) : List Nat :=
  match (s.winCheck (s.vox.field 8 1) (winOpOf s.vox.field)).1 with
  | .ok p => p.frames.map (fun f => f.1)
  | .error c => [100, c]

/-- CipherUnits: each window operation as it passes its checks and as it fails one, and an operation that does not exist. -/
theorem test_witness_CipherUnits_windows :
    let ok := [win 0 0x3018 0x4000 0x1000 0x3000, win 1 0x3010 0 0 0x3000, win 2 0x3010 0 0 0]
    (∀ s ∈ ok ++ [win 0 0x3018 0x9000 0x1000 0x3000, win 1 0x3018 0 0 0x3000, win 2 0x3018 0 0 0, win 3 0 0 0 0], s.vox.busy = true ∧
      s.vox.devstate = 2 ∧ s.vox.latched = some 0x22 ∧ s.cur.x = 255) ∧
    ok.map (fun s => (winOpOf s.vox.field).op) = [0, 1, 2] ∧ ok.map winAns = [[6], [5], [5]] ∧
    [win 0 0x3018 0x9000 0x1000 0x3000, win 1 0x3018 0 0 0x3000, win 2 0x3018 0 0 0].map winAns = [[100, 2], [100, 5], [100, 5]] ∧
    2 < (winOpOf (win 3 0 0 0 0).vox.field).op ∧ (∀ s ∈ ok, s.cipher.badCounters = [] ∧ s.cipher.raw = [] ∧ s.pilots.all (fun x => x.2.pend.isEmpty) ∧
      s.cipher.winq = [] ∧ (s.vd 0).present = true) := by
  decide

/-- CipherUnits: an operation with its plan made that may go and one that waits for a load of the window, and one that stands behind another. -/
theorem test_witness_CipherUnits_order :
    let w : Window := { ident := 1, opener := 0, members := [], length := 4096, frames := [(5, 0)] }
    let q := fun (l : List (Nat × Nat × Option WinPlan)) => let s := win 2 0x3010 0 0 0; { s with cipher := { s.cipher with winq := l } }
    let line := fun (s : State) => s.cipher.winq.filter (fun e => (e.1 = 255 && e.2.1 = 0) || s.winStands e.1 e.2.1)
    let g := (q [(0, 1, none), (255, 0, none)]).modVd 0 (fun d => { d with graphs := [held (nk 11 0 []) .waiting] })
    line (q [(255, 0, some (.close 0 w))]) = [(255, 0, some (.close 0 w))] ∧ line (q [(0, 1, none), (255, 0, none)]) = [(255, 0, none)] ∧
    line g = [(0, 1, none), (255, 0, none)] ∧ (q []).winQuiet (.close 0 w) = true ∧
    (busy (q []) { load0 with cell := 0x5000, window := some 0 }).winQuiet (.close 0 w) = false ∧ (w.frames.map (fun f => f.1)).Nodup := by decide

/-- HarbourUnits: a host read and write of a reservoir page and of an HBM page, and of an address that no page maps; a line to give up. -/
theorem test_witness_HarbourUnits_host :
    let s := fun off => at3 (win 0 0 0 0 0) 0 off 0
    let cell := fun off w => match (s off).place 0 (off - off % 64) w false ((s off).hostEntries 0) with | .cell c _ => some c | .fault k 0 => some (100 + k) | _ => none
    (∀ off ∈ [0x3048, 0x4040, 0x9000, 0x2048], (s off).inHdm 0 (off - off % 64) = true) ∧ cell 0x3048 false = some (resBase + 0x40) ∧
    cell 0x4040 false = some 0x6040 ∧ cell 0x4040 true = some 0x6040 ∧ isHbm 0x6040 = true ∧ cell 0x9000 true = some 101 ∧ cell 0x2048 true = some 0x200000000040 ∧ isHost 0x200000000040 = true ∧ isHbm 0x200000000040 = false ∧
    (s 0x9000).vox.events.length < 1024 ∧ ((0x6044 : Nat) - 0x6044 % 64) ∈ ({ (s 0).hb with snoops := [0x6040] } : Harbour).snoops := by decide

/-- HarbourUnits: requests of two VDs, the last of which was served, with and without a deficit, and one to complete. -/
theorem test_witness_HarbourUnits_cxl :
    let q : CxlReq := { addr := 0x200000000000, data := [some 7, none], poison := false, sent := false, stamp := 2 }
    let s := fun d => { base with vds := [(0, { vd0 with cxlq := [{ q with sent := true, stamp := 1 }, q], cxlDeficit := d }), (1, { vd0 with cxlq := [q] })] }
    (∀ d ∈ [(1 : Int), 0], ((s d).vds.filter (fun x => x.2.cxlWaiting)).map (fun x => x.1) = [0, 1] ∧ (s d).hb.lastCxl = 0 ∧
      ((s d).vd 0).cxlDeficit = d ∧ ((s d).vd 0).cxlq = [{ q with sent := true, stamp := 1 }] ++ q :: [] ∧
      (s d).olderCxl { q with sent := true, stamp := 1 } = false ∧ (s d).olderCxl q = true) ∧ nextAfter [0, 1] 0 96 = some 1 ∧
    q.sent = false ∧ isHbm q.addr = false ∧ base.lost q.addr = false ∧ q.poison = false := by decide

/-- A port that is up, to module 4. -/
def port0 : Port := { Port.down with up := true, far := 4 }

/-- The state with that port 1, changed; the event names it. -/
def prt (f : Port → Port) (y : Nat) : State :=
  let s := at3 (win 0 0 0 0 0) 1 y 9
  { s with hb := { s.hb with ports := [(1, f port0)] } }

/-- HarbourUnits: flits that a port takes and does not, a replay that is due, ports that train and fail, and the choice among channels. -/
theorem test_witness_HarbourUnits_ports :
    let old : Flit := { Flit.blank with typ := 1, vc := 2, seq := 3 }
    Flit.blank.typ = 0 ∧
    ({ port0 with replay := [old] }).replay ≠ [] ∧ port0.lastAck + 2000 ≤ ({ base with chron := 2000 }).chron.toNat ∧
    ((prt id 0).port 1) = port0 ∧ ((prt (fun _ => Port.down) 6).port 1).up = false ∧ (prt id 6).vox.devstate = 2 ∧ (prt id 0).vox.events.length < 1024 ∧
    8 ≤ ({ port0 with retries := 8 }).retries ∧ ({ port0 with resend := [old] }).resend = old :: [] ∧
    (let w := { port0 with queues := [(24, [old]), (25, [old]), (2, [old]), (5, [old])], last := 2, deficits := [(2, 1)] }
     w.ready 24 = true ∧ w.inBudget 24 = true ∧ w.resend = [] ∧ w.replay.length < 512 ∧ w.askRetry = false) ∧
    (let w := { port0 with queues := [(25, [old])] }; w.ready 24 = false ∧ w.ready 25 = true ∧ w.inBudget 25 = true) ∧
    (let w := { port0 with queues := [(2, [old]), (5, [old])], last := 2, deficits := [(2, 1)] }
     w.ready 24 = false ∧ w.ready 25 = false ∧ (List.range 24).filter w.ready = [2, 5] ∧ 0 < tget w.deficits 2 0 ∧ nextAfter [2, 5] 2 24 = some 5) := by
  decide

/-- A send of one granule to offset 0x40 of VD 0's receive range, and convoy and completion records of tag 5. -/
def send0 : Flit := flitSealed { Flit.blank with typ := 1, vc := 2, tag := 5, off := 0x40, grans := [7], masks := [0xF] }
/-- A flit with one record. -/
def rec1 (typ op step phase : Nat) : Flit := flitSealed { Flit.blank with typ := typ, vc := 24, recs := [{ tag := 5, op := op, step := step, phase := phase }] }

/-- HarbourUnits: a port takes sends, completions, retires and every convoy record, and none whose CRC, reserved fields or form is wrong. -/
theorem test_witness_HarbourUnits_flits :
    port0.accepts Flit.blank = true ∧ port0.accepts { Flit.blank with seq := 7 } = false ∧ port0.accepts send0 = true ∧ port0.accepts (rec1 2 0 0 0) = true ∧ port0.accepts (rec1 4 0 0 0) = true ∧
    (∀ n ∈ [1, 6], port0.accepts (rec1 3 n 1 4) = true) ∧ port0.accepts { send0 with crc := 0 } = false ∧
    port0.accepts { send0 with rest := 1 } = false ∧ port0.accepts (rec1 3 7 0 0) = false ∧ port0.accepts (rec1 2 0 1 0) = false ∧
    ({ port0 with up := false }).accepts send0 = false ∧ ({ port0 with owed := [(2, 32)] }).accepts send0 = false := by decide +kernel

/-- HarbourUnits: sends that are new, known, and turned away; completions and retires; convoy requests in every case of the statement. -/
theorem test_witness_HarbourUnits_peers :
    let r := (prt id 0).modVd 0 (fun d => { d with recvBase := 0x4000, recvPages := 1, routes := [(3, { port := 1, vc := 2, remote := 4 })] })
    let k : PeerSupp := { module := 4, vc := 2, tag := 5, status := 0 }
    let o : PeerOut := { module := 4, vc := 2, tag := 5, status := 255, flit := Flit.blank }
    let m := remoteMember 4 5
    let v := { convoy0 with members := [m], later := [m], done := [(m, 0)] }
    r.rejects 1 send0 = 0 ∧ (prt id 0).rejects 1 send0 ≠ 0 ∧ r.hb.received = [] ∧
    [k].find? (fun e => decide (e.module = 4) && decide (e.vc = send0.vc) && decide (e.tag = send0.tag)) = some k ∧ send0.masks = [0xF] ∧ (0xF : BitVec 32) ≠ 0 ∧
    (match r.place 0 (0x4000 + 0x40) true false [] with | .cell c _ => c | _ => 0) = 0x6040 ∧ isHost 0x6040 = false ∧ r.cipher.badCounters = [] ∧ r.cipher.raw = [] ∧
    (∃ e ∈ [o], e.module = 4 ∧ e.tag = 5 ∧ e.status = 255) ∧
    r.sharesChannel 0 4 4 = true ∧ r.sharesChannel 0 4 5 = false ∧ r.cur.y ≠ 1 ∧ (r.vd 0).present = true ∧ r.convoy 0 4 = none ∧
    (r.vd 0).convoys.length < 256 ∧ m ∉ convoy0.later ∧ convoy0.later.length < 4096 ∧ m ∈ v.later ∧ m ∈ v.members ∧ m ∉ v.arrived ∧
    v.done.find? (fun x => x.1 = m) = some (m, 0) ∧ v.phase = 0 ∧ ({ v with phase := 1 }).phase ≠ 0 ∧ v.waits = [] := by decide

/-- HarbourUnits: a known convoy record, repeated and not matching; a release for an operation of this module, whose convoy has a step in force
or none; a send to a receive range in host memory; an arrival at a phase that has ended; a port that owes a retry request and one that has 512 flits out. -/
theorem test_witness_HarbourUnits_answers :
    let e : PeerSupp := { module := 4, vc := 24, tag := 5, status := 6, what := convoyWhat 2 4 }
    let o : PeerOut := { module := 4, vc := 24, tag := 5, status := 255, flit := rec1 3 2 0 4, va := 4 }
    let r := (prt id 0).modVd 0 (fun d => { d with recvBase := 0x2000, recvPages := 1, ended := [(4, remoteMember 4 5, 7)] })
    [e].find? (fun e => decide (e.module = 4) && decide (e.vc = 24) && decide (e.tag = 5)) = some e ∧ e.what ≠ convoyWhat 3 4 ∧
    [o].find? (fun e => decide (e.module = 4) && decide (e.tag = 5) && decide (e.vc = 24)) = some o ∧ (∃ x, o.flit.recs = [x]) ∧
    tget (r.vd 0).steps (farConvoy o.va) (0, 0) = (0, 0) ∧ tget [(farConvoy o.va, (2, 5))] (farConvoy o.va) (0, 0) = (2, 4 + 1) ∧
    (match r.place 0 (0x2000 + 0x40) true false [] with | .cell c _ => c | _ => 0) = 0x200000000040 ∧ isHost 0x200000000040 = true ∧
    (r.vd 0).endedArrival 4 (remoteMember 4 5) = some 7 ∧
    (let q := { port0 with askRetry := true }; q.resend = [] ∧ q.replay.length < 512 ∧ 0 < q.credit 25) ∧
    ({ port0 with credits := [(25, 0)] }).credit 25 = 0 ∧ 512 ≤ ({ port0 with replay := List.replicate 512 Flit.blank }).replay.length := by
  refine ⟨rfl, by decide, rfl, ⟨_, rfl⟩, by decide, by decide, by decide, by decide, by decide, by decide, by decide, ?_⟩
  exact (List.length_replicate (n := 512) (a := Flit.blank)).symm ▸ Nat.le_refl 512

/-- The check value that the CRC catalogue gives for CRC-64/ECMA-182 over the digits 1 to 9 (R448). -/
theorem test_crc64 : crc64 ((List.range 9).map (fun i => BitVec.ofNat 8 (0x31 + i))) = 0x6C40DF5F0B497347 := by decide +kernel

/-- A flit is 256 bytes, with the CRC at 0xF8 (R448). -/
theorem test_flit_layout : (flitBytes send0).length = 256 ∧ ((flitBytes send0).drop 0x20).take 1 = [7] ∧
    ((flitBytes send0).drop 0xE0).take 1 = [0xF] ∧ ((flitBytes send0).drop 0x14).take 1 = [0x40] ∧
    flitOk { send0 with recs := [{ tag := 5, op := 0, step := 0, phase := 0 }] } = false := by decide +kernel

/-! ### The Voxkan controller -/

/-- A mailbox command with its record's doublewords, in a state with VDs 0 and 1, changed. -/
def mbx (op : Nat) (r : List (Nat × DWord)) (f : State → State) : State :=
  let s := win 0 0 0 0 0
  f { s with vox := { s.vox with latched := some op, record := r } }

/-- The doublewords of a quota block with a share and tarns. -/
def quo (share tarns : Nat) : List (Nat × DWord) :=
  [(4, BitVec.ofNat 64 (100 + share * 2 ^ 32 + 2 ^ 40 + 2 ^ 48)), (5, BitVec.ofNat 64 tarns)]

/-- ManagementCommands: each command is taken by the mailbox. -/
theorem test_witness_ManagementCommands_given :
    (∀ op ∈ [1, 2, 3, 4, 0x10, 0x11, 0x12, 0x13, 0x14, 0x15, 0x16, 0x17, 0x18, 0x19, 0x1A, 0x1B, 0x1C, 0x20, 0x23, 0x30, 0x31, 0x32, 0x33, 0x34],
      (mbx op [] id).vox.busy = true ∧ (mbx op [] id).vox.latched = some op ∧ (mbx op [] id).vox.devstate ≠ 3) := by decide

/-- ManagementCommands: `ATTEST` of a number that is none, of an absent VD, of a quarantined one, of a VD and of the module; images out of
host memory and in it; an image staged and none. Whether a signature verifies is an open function of Config, so that only one of the two is
true of the bytes here. -/
theorem test_witness_ManagementCommands_firmware :
    let a := fun v => (mbx 2 [(5, v)] (fun s => s.modVd 1 (fun d => { d with quarantined := true }))); let im := mbx 3 [(2, 0), (3, 16)] id
    (∀ v ∈ [96, 2, 1, 0, 255], (a (BitVec.ofNat 64 v)).vox.field 0x28 1 = v) ∧ ((a 2).vd 2).present = false ∧ ((a 1).vd 1).present = true ∧
    ((a 1).vd 1).quarantined = true ∧ ((a 0).vd 0).present = true ∧ ((a 0).vd 0).quarantined = false ∧
    2 ^ 45 < (mbx 3 [(2, 2 ^ 45), (3, 1)] id).vox.field 0x10 8 + (mbx 3 [(2, 2 ^ 45), (3, 1)] id).vox.field 0x18 4 ∧
    im.vox.field 0x10 8 + im.vox.field 0x18 4 ≤ 2 ^ 45 ∧
    (Config.rsaVerify (im.bytes hostBase 16) (Config.sha512 (im.bytes hostBase 16)) = false ∨
      Config.rsaVerify (im.bytes hostBase 16) (Config.sha512 (im.bytes hostBase 16)) = true) ∧ (mbx 4 [] id).vox.fw.staged = none ∧
    (mbx 4 [] (fun s => { s with vox := { s.vox with fw := { s.vox.fw with staged := some (0, 1, 2) } } })).vox.fw.staged ≠ none := by
  refine ⟨by decide, by decide, by decide, by decide, by decide, by decide, by decide, by decide, ?_, by decide, by decide⟩
  cases Config.rsaVerify _ _ <;> simp

/-- ManagementCommands: `VDCREATE` while a change of partitions runs, with a field out of its limits, without room for the share or the save area, and
with all that it asks. -/
theorem test_witness_ManagementCommands_create :
    let s := fun (w size : Nat) share f => mbx 0x10 ([(1, BitVec.ofNat 64 w), (2, BitVec.ofNat 64 size)] ++ quo share 0) f
    let ok := s (2 + 2 ^ 17 + 2 ^ 32) 0x10000 0 id
    (s 2 0 0 (fun s => { s with change := some ([], [], []) })).change ≠ none ∧ ok.change = none ∧ 24 ≤ (s (2 + 24 * 256) 0 0 id).vox.field 9 1 ∧
    ok.vox.field 8 1 = 2 ∧ ok.vox.field 9 1 = 0 ∧ ok.partOf 0 = 0 ∧ ok.vox.field 0xA 1 = 2 ∧ ok.vox.field 0xC 4 = 1 ∧ ok.vox.field 0x10 8 % 0x10000 = 0 ∧
    (ok.partStrips 0).length = 1 ∧ ok.vox.quotas.ok 1 = true ∧ ok.quotaRoom 0 2 ok.vox.quotas = true ∧
    (areaPlace (ok.partStrips 0) 0x10000 ok.hbmTaken).isSome = true ∧
    (let t := s (2 + 2 ^ 17 + 2 ^ 32) 0x10000 100 (fun s => s.modVd 0 (fun d => { d with q := { d.q with share := 200 } }))
     t.quotaRoom 0 2 t.vox.quotas = false ∧ t.vox.quotas.ok 1 = true) ∧ 0x10000 < areaSize 2 false 0 0 ∧
    areaSize 2 false 0 0 ≤ areaSize 2 false 0 0 := by decide

/-- ManagementCommands: quotas that are illegal, that VD 0's frames or the partition's shares exceed, and that fit; roots out of place and in place. -/
theorem test_witness_ManagementCommands_quota :
    let s := fun (q : List (Nat × DWord)) share => mbx 0x12 ([(1, 0)] ++ q) (fun s => s.modVd 1 (fun d => { d with q := { d.q with share := share } }))
    let n := fun (t : State) => t.vox.quotas.ok (t.partStrips (t.vd 0).part).length
    n (s [] 0) = false ∧ n (s (quo 100 32) 200) = true ∧ (s (quo 100 32) 200).quotaRoom 0 0 (s (quo 100 32) 200).vox.quotas = false ∧
    n (s (quo 0 32) 0) = true ∧ (s (quo 0 32) 0).quotaRoom 0 0 (s (quo 0 32) 0).vox.quotas = true ∧
    ((s (quo 0 32) 0).framesOf 0).length ≤ (s (quo 0 32) 0).vox.quotas.frames ∧ ((s (quo 0 (32 + 65536)) 0).vd 0).quarters.length ≤ (s (quo 0 (32 + 65536)) 0).vox.quotas.quarters ∧
    n (s (quo 0 (32 + 65536)) 0) = true ∧ (s (quo 0 (32 + 65536)) 0).quotaRoom 0 0 (s (quo 0 (32 + 65536)) 0).vox.quotas = true ∧
    16 * 1 * ((s (quo 0 32) 0).vd 0).layers.length ≤ (s (quo 0 32) 0).vox.quotas.tarns ∧
    (mbx 0x13 [(2, 1)] id).vox.field 0x10 8 % 65536 ≠ 0 ∧ (mbx 0x13 [(2, 0x10000)] id).vox.field 0x10 8 = 0x10000 ∧ isHbm 0x10000 = true ∧
    (let t := (mbx 0x13 [(2, 0x10000)] id).invalidate 0 0 (2 ^ 52); t.drainedOld 0 t.cmdNo = true) := by decide

/-- ManagementCommands: frames granted and released, and each refusal. -/
theorem test_witness_ManagementCommands_frames :
    let s := fun k first n => mbx 0x14 [(1, BitVec.ofNat 64 (k * 256)), (2, BitVec.ofNat 64 first), (3, BitVec.ofNat 64 n)]
      (fun s => (s.modVd 0 (fun d => { d with saveBase := 2 ^ 30, q := { d.q with frames := 100 } })).modVd 1 (fun d => { d with saveBase := 2 ^ 30 }))
    let kind := fun (t : State) f => ((tget t.cipher.frames f Frame.unowned).kind, (tget t.cipher.frames f Frame.unowned).owner)
    (s 0 0x10 2).vox.field 9 1 = 0 ∧ 0x10 + 2 ≤ hbmEnd / 4096 ∧ (∀ k ∈ [0x10, 0x11], (s 0 0x10 2).frameIn 0 k = true ∧ kind (s 0 0x10 2) k = (0, 0)) ∧
    ((s 0 0x10 2).framesOf 0).length + 2 ≤ ((s 0 0x10 2).vd 0).q.frames ∧ hbmEnd / 4096 < (s 0 0x9000000 2).vox.field 0x10 8 + 2 ∧
    kind (s 0 6 1) 6 = (1, 0) ∧ (s 0 6 1).frameIn 0 6 = true ∧ (s 1 6 1).vox.field 9 1 = 1 ∧ kind (s 1 6 1) 6 = (1, 0) ∧ kind (s 1 0x10 1) 0x10 = (0, 0) ∧
    1 < (s 2 0 0).vox.field 9 1 ∧ (mbx 0x14 [] id).frameIn 0 0x10 = false := by decide

/-- ManagementCommands: ranges, routes, receive ranges and peer convoys with a field out of its limits, set and cleared; dump keys. -/
theorem test_witness_ManagementCommands_tables :
    let m := fun op (w : Nat) (a b c : Nat) => (mbx op [(1, BitVec.ofNat 64 w), (2, BitVec.ofNat 64 a), (3, BitVec.ofNat 64 b), (4, BitVec.ofNat 64 c)] id).vox
    15 < (m 0x15 0x1000 0 0 0).field 9 1 ∧ (m 0x15 0xF00 0x1000 0x2000 1).field 9 1 = 15 ∧ (m 0x15 0xF00 0x1000 0x2000 1).field 0x20 1 = 1 ∧
    (m 0x15 0xF00 0 0 0).field 0x20 1 = 0 ∧ 7 < (m 0x16 0x80000 0 0 0).field 0xA 1 ∧
    (let v := m 0x16 0x015F17070F00 0 0 0; v.field 9 1 = 15 ∧ v.field 0xA 1 = 7 ∧ v.field 0xB 1 = 23 ∧ v.field 0xC 1 = 95 ∧ v.field 0xD 1 = 1) ∧
    2 ^ 28 ≤ (m 0x17 0 0 (2 ^ 28) 0).field 0x18 4 ∧ addrOk ((m 0x17 0 0x1000 7 0).field 0x10 8) 4096 = true ∧ (m 0x17 0 0x1000 7 0).field 0x18 4 = 7 ∧
    15 < (m 0x18 0x100000 0 0 0).field 0xA 1 ∧ (m 0x18 0xF0F00 1 0 0).field 0xA 1 = 15 ∧ (m 0x18 0xF0F00 1 0 0).field 0x10 1 = 1 ∧
    2 ^ 45 < (m 0x1C 0 (2 ^ 45) 0 0).field 0x10 8 + 512 ∧ (m 0x1C 0 0 0 0).field 0x10 8 = 0 := by decide

/-- ManagementCommands: exports and imports out of host memory, of a VD that is busy and of one that is idle. What a package or a chain
holds is an open function of Config. -/
theorem test_witness_ManagementCommands_migration :
    let s := fun (a : Nat) f => mbx 0x1A [(1, 0), (2, BitVec.ofNat 64 a), (3, 64), (4, 0), (5, 4096)] f
    let idle := s 0 (fun s => { s with regions := [], cipher := { s.cipher with windows := [] } })
    ¬ ((s (2 ^ 45) id).vox.field 0x10 8 + (s (2 ^ 45) id).vox.field 0x18 4 ≤ 2 ^ 45) ∧ idle.vox.field 0x10 8 + idle.vox.field 0x18 4 ≤ 2 ^ 45 ∧
    idle.vox.field 0x20 8 + idle.vox.field 0x28 4 ≤ 2 ^ 45 ∧ (∃ r ∈ (s 0 id).regions, r.vd = 0) ∧ idle.regions = [] ∧ idle.change = none ∧
    idle.cipher.windows = [] := by decide

/-- A `PARTITION` command with the map of its first eight strips, the others unassigned, and no VD moved. -/
def prtn (w : DWord) (f : State → State) : State :=
  mbx 0x20 ((1, w) :: (List.range 14).map (fun k => (k + 2, BitVec.allOnes 64))) f

/-- ManagementCommands: a change of partitions that may complete, and maps with a field out of its limits, of strips that do not join, whose VDs
do not fit, and that are accepted. -/
theorem test_witness_ManagementCommands_partition :
    let m := (List.range 24).map (fun k => if k < 2 then 0 else 255); let firsts := List.replicate 96 255
    let away := fun (s : State) => { s with change := some (m, firsts, []), regions := [], vds := [(0, { vd0 with resident := false })] }
    let fields := fun (s : State) => let m := (List.range 24).map (fun k => s.vox.field (8 + k) 1); let firsts := (List.range 96).map (fun k => s.vox.field (0x20 + k) 1)
      decide ((∀ p ∈ m, p < 24 ∨ p = 255) ∧ (∀ p ∈ firsts, p = 255 ∨ lget m p 255 = p) ∧
        ∀ x ∈ s.vds, x.2.present = true → lget m (s.newPart firsts x.1) 255 = s.newPart firsts x.1)
    let map := fun (s : State) => (List.range 24).map (fun k => s.vox.field (8 + k) 1)
    let big := fun (s : State) => (s.modVd 0 (fun d => { d with q := { d.q with share := 200 } })).modVd 1 (fun d => { d with q := { d.q with share := 200 } })
    (let s := prtn 0xFFFFFFFFFFFF0000 away; decide (s.change = some (m, firsts, [])) = true ∧ s.touched m firsts = [0] ∧ (s.vd 0).resident = false ∧ s.regions = []) ∧
    fields (prtn 0xFFFFFFFFFFFF1800 id) = false ∧ (prtn 0xFFFFFFFFFFFF0000 id).change = none ∧
    fields (prtn 0xFFFFFFFFFFFF0500 id) = true ∧ stripsOk (map (prtn 0xFFFFFFFFFFFF0500 id)) = false ∧
    fields (prtn 0xFFFFFFFFFFFF0000 id) = true ∧ stripsOk (map (prtn 0xFFFFFFFFFFFF0000 id)) = true ∧ map (prtn 0xFFFFFFFFFFFF0000 id) = m ∧
    ((prtn 0xFFFFFFFFFFFF0000 id).changeAreas m firsts).isSome = true ∧ (prtn 0xFFFFFFFFFFFF0000 id).sharesFit m firsts = true ∧
    (prtn 0xFFFFFFFFFFFF0000 big).sharesFit m firsts = false ∧ fields (prtn 0xFFFFFFFFFFFF0000 big) = true := by decide

/-- ManagementCommands: slack of no convoy, of one with a field out of its limits and in them; logs, rings, dump areas and power caps out of their
limits and in them. -/
theorem test_witness_ManagementCommands_monitors :
    let k := fun w => mbx 0x23 [(1, w)] (fun s => s.modVd 0 (fun d => { d with convoys := [(4, convoy0)] }))
    let p := fun op (a b : Nat) => (mbx op [(2, BitVec.ofNat 64 a), (3, BitVec.ofNat 64 b)] id).vox
    (k 0x50000).convoy 0 ((k 0x50000).vox.field 0xA 2) = none ∧ (k 0x40000).convoy 0 ((k 0x40000).vox.field 0xA 2) = some convoy0 ∧
    1 < (k 0x200040000).vox.field 0xC 1 ∧ (k 0x100040000).vox.field 0xC 1 = 1 ∧
    2 ^ 45 < (p 0x30 (2 ^ 45) 64).field 0x10 8 + (p 0x30 (2 ^ 45) 64).field 0x18 4 ∧ (p 0x30 0 4096).field 0x10 8 + (p 0x30 0 4096).field 0x18 4 ≤ 2 ^ 45 ∧
    (p 0x31 1 256).field 0x10 8 % 64 ≠ 0 ∧ (p 0x31 64 65536).field 0x10 8 % 64 = 0 ∧ (p 0x31 64 65536).field 0x18 4 = 256 * 2 ^ 8 ∧
    (p 0x32 0 0).field 0x18 8 < 2 ^ 24 ∧ (p 0x32 4096 (2 ^ 24)).field 0x10 8 % 4096 = 0 ∧ (p 0x32 4096 (2 ^ 24)).field 0x18 8 = 2 ^ 24 ∧
    (p 0x34 0 0).field 0x10 4 < 1000 ∧ (p 0x34 (1000 + 1000000 * 2 ^ 32) 0).field 0x10 4 = 1000 ∧ (p 0x34 (1000 + 1000000 * 2 ^ 32) 0).field 0x14 4 = 1000000 := by
  decide


/-- ManagementMonitors: register offsets of the PF and of VFs, a go with and without a command in hand, legal and not. -/
theorem test_witness_ManagementMonitors_registers :
    let idle := { base with vox := { base.vox with devstate := 2, buf := [(0, 1 + 8 * 65536)] } }
    let x := { idle.vox with record := idle.vox.buf, busy := true }
    (at3 base 0 3 8).cur.y % 8 ≠ 0 ∧ (at3 base 0 8 4).cur.z ≠ 8 ∧ (at3 base 0 8 8).cur.x = 0 ∧ (at3 base 0 8 8).cur.z = 8 ∧ (at3 base 1 0x1000 8).cur.x = 1 ∧ (base.vd (1 - 1)).present = true ∧
    (1 : DWord).getLsbD 0 = true ∧ (0 : DWord).getLsbD 0 = false ∧ ({ base.vox with busy := true }).busy = true ∧ idle.vox.busy = false ∧
    x.field 0 2 = 1 ∧ idle.commandStatus { x with latched := some 1 } 1 = 0 ∧ idle.commandStatus { x with latched := some 0x77 } 0x77 = 1 := by decide

/-- ManagementMonitors: temperatures at each limit, a zone whose flow has failed, and power samples below 100 of them, over and under the cap. -/
theorem test_witness_ManagementMonitors_sensors :
    let temps := [95, 89, 110, 100] ++ List.replicate 92 50 ++ [105, 85, 79, 95, 89] ++ List.replicate 7 50
    let w := fun n k => ((List.replicate n k) ++ [k]).drop (n + 1 - 100)
    95 ≤ lget temps 0 0 ∧ lget temps 1 0 < 90 ∧ 110 ≤ lget temps 2 0 ∧ 100 ≤ lget temps 3 0 ∧ tfind base.vox.hotSince 3 = none ∧
    105 ≤ lget temps (96 + 0) 0 ∧ 85 ≤ lget temps (96 + 1) 0 ∧ lget temps (96 + 2) 0 < 80 ∧ 95 ≤ lget temps (96 + 3) 0 ∧ lget temps (96 + 4) 0 < 90 ∧
    vg base.vox.zones 5 0 ≠ 2 ∧ (at3 base 1 0 0).cur.x % 4 ≠ 0 ∧ (w 5 3000).length < 100 ∧ (w 100 3201).length = 100 ∧
    100 * base.vox.cap < (w 100 3201).sum ∧ base.vox.capSince = 0 ∧ base.vox.events.length < 1023 ∧ (w 100 3200).sum ≤ 100 * base.vox.cap ∧
    95 * base.vox.cap ≤ (w 100 3200).sum := by decide

set_option maxRecDepth 20000 in
/-- ManagementMonitors: a batch to close for its length and for its age, an event to deliver, a region that has stalled, and VDs to quarantine. -/
theorem test_witness_ManagementMonitors_events :
    let l : LogEntry := { seq := 0, chron := 0, guest := 0, kind := 1, vals := [] }
    let ev : Event := { chron := 0, src := 1, code := 2, vd := 0, detail := [] }
    let v := { base.vox with ring := some (64, 256, true), events := [ev] }
    256 ≤ ({ UsageLog.empty with openEntries := List.replicate 256 l }).openEntries.length ∧
    ({ UsageLog.empty with openEntries := [l] }).openedAt + 100000000 ≤ 100000000 ∧ v.ring = some (64, 256, true) ∧
    pickEvent v.events = some (ev, []) ∧ ev.chron.toNat + 4000 ≤ 4000 ∧ (v.evSeq + 2 ^ 32 - v.evcons) % 2 ^ 32 ≤ 256 ∧ v.lost = 0 ∧
    (base.region 0).all (fun r => decide (r.running ≠ .frozen) && decide (r.seen + 1000 * base.vox.watchdog ≤ 1000 * 100000)) = true ∧
    base.vox.watchdog ≠ 0 ∧ (base.vd 0).present = true ∧ (base.vd 0).quarantined = false ∧ (base.vd 1).present = false ∧ base.vox.devstate ≠ 3 ∧
    base.vox.dump = none := by decide

/-- ManagementMonitors: a VD that counts guest time, one that a restore holds, one that is away with time stolen and without, and ticks that end a period
and an interval. -/
theorem test_witness_ManagementMonitors_time :
    let o := { SnapOp.start .mailbox reg0 0 with restore := true }
    let away := { (base.modVd 0 (fun d => { d with resident := false })) with regions := [] }
    (base.vd 0).present = true ∧ (base.vd 0).migrating = false ∧ base.snaps = [] ∧ (base.vd 0).resident = true ∧ (base.vd 0).switching = false ∧
    o.restore = true ∧ o.vd = 0 ∧ (away.vd 0).resident = false ∧ away.hasKept 0 (away.vd 0) = false ∧
    (away.modVd 0 (fun d => { d with saves := [{ rec0 with byHelm := true }] })).hasKept 0 { (away.vd 0) with saves := [{ rec0 with byHelm := true }] } = true ∧
    ((49999 : DWord) + 1).toNat % 50000 = 0 ∧ base.vox.intervalAt + 1000 * base.vox.interval ≤ ((9999999 : DWord) + 1).toNat ∧
    (let s := { base with regions := [{ reg0 with running := .none }] }; s.dueElems = [] ∧ (tfind s.cycleEnd.vds 0).isSome = true ∧
      s.cycleEnd.regions.filter (fun r => r.vd = 0) ≠ []) ∧ base.isFrozen { reg0 with running := .frozen } = true := by decide

/-! ### The whole machine -/

/-- StepRunsDecodedInstruction: a pilot whose word decodes, alone, and one beside a load in flight whose register the word reads, and one whose
word reads no such register; a word that no table assigns. -/
theorem test_witness_StepRunsDecodedInstruction_pilot :
    let s := fun (w : Nat) (l : List PAcc) => { (base.modPilot 0 (fun p => { p with pc := chartBase, pend := l })) with
      agenda := [.pilot 0], mem := flds (chartCell 0 0) [(0, 4, w)] }
    let word := fun (t : State) => (List.range 4).map (fun k => t.byte (chartCell 0 ((t.pilot 0).pc.toNat % 65536 + k)))
    let dec := fun (t : State) => match decodePilotBytes (word t) with | .ok (i, []) => some i | _ => none
    (∀ t ∈ [s 0x04200005 [], s 0x04290005 [load0], s 0x04200005 [load0], s 0x28000000 []], t.acts 0 = true ∧ (t.pilot 0).run = .running ∧
      t.asyncCause 0 = none ∧ (t.pilot 0).waitSince = none ∧ isChart (t.pilot 0).pc = true ∧ (t.pilot 0).pc.toNat % 4 = 0) ∧
    dec (s 0x04200005 []) = some (.addi 1 0 5) ∧ ((s 0x04200005 []).pilot 0).mayIssue 0x04200005 = true ∧ jumps 0x04200005 = false ∧
    dec (s 0x04290005 [load0]) = some (.addi 1 9 5) ∧ ((s 0x04290005 [load0]).pilot 0).mayIssue 0x04290005 = false ∧
    ((s 0x04200005 [load0]).pilot 0).mayIssue 0x04200005 = true ∧ ((s 0x04200005 [load0]).pilot 0).pend.any PAcc.isLoad = true ∧
    dec (s 0x28000000 []) = none ∧ ((s 0x28000000 []).pilot 0).pend.any PAcc.isLoad = false := by decide

/-- StepRunsDecodedInstruction: an element's turn with a slot that fires, whose parity holds, and with none; one that the slack step of a convoy
holds; one that swaps; and an event's turn. -/
theorem test_witness_StepRunsDecodedInstruction_element :
    let s := fun (l : List (BitVec 48)) (f : Region → Region) => { (el (fun k => { k with cfg := vs k.cfg 0 { ElemCfg.empty with loaded := true, slots := l } })) with
      agenda := [.element 0], regions := (el id).regions.map f }
    let b := fun l => State.modElem { s l id with agenda := [] } 0 (fun m => { m with last := (s l id).cycle + 1 })
    let ok := fun (t : State) => (t.regionOfElem 0).all (fun r => t.fires r && decide (t.cycle % t.divOf r 0 = 0)) = true ∧ (t.regionOfElem 0).isSome = true ∧
      (t.elem 0).last ≠ t.cycle + 1 ∧ t.agenda = .element 0 :: []
    let held := fun (t : State) => (t.regionOfElem 0).all (fun r => t.slackHolds r 0); let swaps := fun (t : State) => (t.regionOfElem 0).all (fun r => t.swapsNow r 0)
    (∀ l ∈ [[], [0x39107FF41000]], ok (s l id) ∧ held (s l id) = false ∧ swaps (s l id) = false) ∧
    (b []).firing 0 = none ∧ (b [0x39107FF41000]).firing 0 ≠ none ∧ ((b [0x39107FF41000]).firing 0).all (fun x => !x.2.badParity 0 false x.2.cur.slot) = true ∧
    (due base (.event .heartbeatGap 1 2 3)).agenda = .event .heartbeatGap 1 2 3 :: [] := by decide

/-- StepRunsDecodedInstruction: an element that the slack step of a convoy holds, and one that swaps. -/
theorem test_witness_StepRunsDecodedInstruction_held :
    (let s := (el id).modVd 0 (fun d => { d with steps := [(farConvoy 3, (30, 0))] }); let r := { reg0 with joined := [3] }
     s.convoysOf r = [farConvoy 3] ∧ s.slackStep r = 30 ∧ s.slackHolds r 0 = true) ∧
    (let b := { swp (fun r => { r with shadow := .armed, shImg := some Image.empty }) id with chron := 1, agenda := [.element 0] }
     (b.regionOfElem 0).all (fun r => b.fires r && decide (b.cycle % b.divOf r 0 = 0) && !b.slackHolds r 0 && b.swapsNow r 0) = true ∧
     (b.regionOfElem 0).isSome = true ∧ (b.elem 0).last ≠ b.cycle + 1) := by
  refine ⟨⟨by decide, by decide, ?_⟩, by decide⟩
  have h : ∀ i, slackFires 30 i = false := by intro i; simp [slackFires]
  have h1 : ((el id).modVd 0 (fun d => { d with steps := [(farConvoy 3, (30, 0))] })).slackStep { reg0 with joined := [3] } = 30 := by decide
  simp only [State.slackHolds, h1, h]; rfl

/-- EveryStepGoesOn: memory that has its form. -/
theorem test_witness_EveryStepGoesOn : Memory.wf State.reset.mem = true ∧ Memory.wf (hl [] id).mem = true := by decide

/-- DecodeEncode: well-formed instructions that have a pilot word and an element word, and words that decode. -/
theorem test_witness_DecodeEncode :
    (Instr.addi 1 0 5).wellFormed = true ∧ encodePilot (.addi 1 0 5) = some 0x04200005 ∧ (0x04200005 < 2 ^ 32) ∧
    (match decodePilot 0x04200005 with | .ok i => some i | .error _ => none) = some (.addi 1 0 5) ∧
    (Instr.vecAdd (op 1 0 3 2 0)).wellFormed = true ∧ encodeOpWord (.vecAdd (op 1 0 3 2 0)) = some 0x00100D00 ∧
    (match decodeOpWord 0x00100D00 with | .ok i => some i | .error _ => none) = some (.vecAdd (op 1 0 3 2 0)) := by decide

end Sys2Proof.Tests
end

section
/-!
PROOF. The trigger instructions on predicates, loop counters, the repeat state and control tokens (R213, R220 to R222, R225, R226,
R233). Each changes the firing context alone, `MOVC` a control port too.
-/
namespace Sys2Proof.Machine
open Sys2Proof Sys2Proof.Claims

/-! ### The bits of a predicate -/

theorem sum_bits_lt (g : Nat → Bool) (n : Nat) : ((List.range n).map (fun k => b2n (g k) * 2 ^ k)).sum < 2 ^ n := by
  induction n with
  | zero => simp
  | succ n ih =>
    simp only [List.range_succ, List.map_append, List.sum_append, List.map_singleton, List.sum_singleton]
    have hb : b2n (g n) * 2 ^ n ≤ 2 ^ n := by cases g n <;> simp [b2n]
    omega

theorem testBit_sum_bits (g : Nat → Bool) (n k : Nat) (h : k < n) :
    ((List.range n).map (fun k => b2n (g k) * 2 ^ k)).sum.testBit k = g k := by
  induction n with
  | zero => omega
  | succ n ih =>
    simp only [List.range_succ, List.map_append, List.sum_append, List.map_singleton, List.sum_singleton]
    rw [Nat.add_comm, Nat.mul_comm, Nat.testBit_two_pow_mul_add _ (sum_bits_lt g n)]
    by_cases hk : k < n
    · rw [if_pos hk, ih hk]
    · obtain rfl : k = n := by omega
      cases g k <;> simp [b2n]

/-! ### Firings that change the firing context alone -/

/-- A change of the firing context and nothing else. -/
structure CtxStep (s t : State) : Prop extends CoreStep s t where
  draws : t.draws = s.draws
  only : t.core = { s.core with ctx := t.core.ctx }

theorem CtxStep.refl (s : State) : CtxStep s s := ⟨.refl s, rfl, rfl⟩

theorem CtxStep.trans {s t u : State} (h : CtxStep s t) (g : CtxStep t u) : CtxStep s u :=
  ⟨h.toCoreStep.trans g.toCoreStep, g.draws.trans h.draws, by rw [g.only, h.only]⟩

theorem CtxStep.modCtx (s : State) (f : Ctx → Ctx) : CtxStep s (s.modCtx f) :=
  ⟨.modCtx s f, rfl, by unfold State.modCtx; rw [State.core_modCore]⟩

theorem CtxStep.reserve (s : State) (lat : Nat) (d : List Dest) (g : Option Nat) : CtxStep s (s.reserve lat d g) := by
  unfold State.reserve
  split
  · exact .refl s
  · exact .modCtx s _

theorem CtxStep.psnIf (s : State) (c : Bool) : CtxStep s (s.psnIf c) := by
  unfold State.psnIf
  split
  · exact .modCtx s _
  · exact .refl s

theorem CtxStep.writeP (s : State) (p : Nat) (f : Nat → Bool) : CtxStep s (s.writeP p f) := .modCtx s _

theorem CtxStep.runs {s t : State} (h : CtxStep s t) (k : Nat) : t.runs k = s.runs k := by unfold State.runs; rw [h.cur]

theorem CtxStep.inp {s t : State} (h : CtxStep s t) : t.core.inp = s.core.inp := by rw [h.only]

theorem CtxStep.out {s t : State} (h : CtxStep s t) : t.core.out = s.core.out := by rw [h.only]

theorem CtxStep.elems {s t : State} (h : CtxStep s t) : t = { s with elems := t.elems } := by
  have hr := h.rest
  rw [h.draws] at hr
  exact hr

/-- The statements' frame of a firing that first dequeues and then changes its context alone. -/
theorem CtxStep.firingFrame_dequeue {s t : State} {o : Op} (h : CtxStep (s.dequeue o) t) : firingFrame s t o := by
  obtain ⟨q, _, _, qi⟩ := State.dequeue_spec s o
  have c := q.trans h.toCoreStep
  exact ⟨c.rest, c.others, c.elem, c.core, c.ctxs, fun k hk => by rw [h.inp]; exact qi k hk, c.byte⟩

/-- The statements' frame of a firing that changes its context alone. -/
theorem CtxStep.firingFrame {s t : State} (h : CtxStep s t) (o : Op) : firingFrame s t { o with dqa := false, dqb := false } :=
  h.firingFrame_dequeue (o := { o with dqa := false, dqb := false })

/-! ### Predicates written (R213) -/

/-- Writing a predicate changes its bits in the executing lanes. -/
theorem State.writeP_spec (s : State) (p : Nat) (f : Nat → Bool) (hc : s.cur.ctx < 8) (hp : p < 8) :
    (s.writeP p f).ctx = { s.ctx with p := (s.writeP p f).ctx.p } ∧
      (∀ n, n ≠ p → vg (s.writeP p f).ctx.p n 0 = vg s.ctx.p n 0) ∧
      ∀ k, k < 8 → (vg (s.writeP p f).ctx.p p 0).getLsbD k = if s.runs k = true then f k else (vg s.ctx.p p 0).getLsbD k := by
  unfold State.writeP
  rw [State.ctx_modCtx _ _ hc]
  refine ⟨rfl, fun n hn => vg_vs_ne _ _ _ _ _ hn, fun k hk => ?_⟩
  rw [vg_vs_same _ _ _ _ hp, BitVec.getLsbD_ofNat,
    testBit_sum_bits (fun k => if s.runs k then f k else (vg s.ctx.p p 0).getLsbD k) 8 k hk]
  simp [hk]

/-- A predicate written behind a change `w` of the context that leaves the predicates as they are. -/
theorem CtxStep.writeP_after {s w : State} {p : Nat} {v : Nat → Bool} (h : CtxStep s w) (hwp : w.ctx.p = s.ctx.p)
    (hc : s.cur.ctx < 8) (hp : p < 8) :
    CtxStep s (w.writeP p v) ∧ (w.writeP p v).ctx = { w.ctx with p := (w.writeP p v).ctx.p } ∧
      (∀ n, n ≠ p → vg (w.writeP p v).ctx.p n 0 = vg s.ctx.p n 0) ∧
      ∀ k, k < 8 → (vg (w.writeP p v).ctx.p p 0).getLsbD k = if s.runs k = true then v k else (vg s.ctx.p p 0).getLsbD k := by
  obtain ⟨wc, wn, wk⟩ := w.writeP_spec p v (by rw [h.cur]; exact hc) hp
  exact ⟨h.trans (.writeP w p v), wc, fun n hn => by rw [wn n hn, hwp], fun k hk => by rw [wk k hk, h.runs, hwp]⟩

/-- The form of the statements about instructions that write predicate `p`: the executing lanes take `v`, the other lanes and predicates,
the outputs and everything outside the context stay, and `P` holds of the state after. -/
def setsPredicate (i : Instr) (s : State) (o : Op) (p : Nat) (v : Nat → Bool) (P : State → Prop) : Prop :=
  ∃ t, exec i s = .next t ∧ t = { s with elems := t.elems } ∧ firingFrame s t { o with dqa := false, dqb := false } ∧
    t.core.out = s.core.out ∧ (∀ n, n ≠ p → vg t.ctx.p n 0 = vg s.ctx.p n 0) ∧ P t ∧
    ∀ k, k < 8 → (vg t.ctx.p p 0).getLsbD k = if s.runs k = true then v k else (vg s.ctx.p p 0).getLsbD k

/-- The firing context keeps all but its predicates and its outstanding results. -/
def onlyPredicates (s t : State) : Prop := t.ctx = { s.ctx with p := t.ctx.p, outst := t.ctx.outst }

/-- A firing that changes its context to `u`, which has the same predicates, and writes a predicate. -/
theorem setsPredicate_of_writeP {i : Instr} {s u : State} {p : Nat} {v : Nat → Bool} (o : Op) (P : State → Prop)
    (hc : s.cur.ctx < 8) (hp : p < 8) (hu : CtxStep s u) (hup : u.ctx.p = s.ctx.p) (he : exec i s = .next (u.writeP p v))
    (hP : ∀ t : State, t.ctx = { u.ctx with p := t.ctx.p } → P t) : setsPredicate i s o p v P := by
  obtain ⟨ht, wc, wn, wk⟩ := hu.writeP_after (v := v) hup hc hp
  exact ⟨_, he, ht.elems, ht.firingFrame o, ht.out, wn, hP _ wc, wk⟩

/-- Reserving a result changes only the outstanding results of the context (R245). -/
theorem State.ctx_reserve (s : State) (d : List Dest) (hc : s.cur.ctx < 8) :
    (s.reserve 1 d none).ctx = { s.ctx with outst := (s.reserve 1 d none).ctx.outst } := by
  obtain ⟨_, _, _, hctx⟩ := s.reserve_spec 1 d none hc
  exact hctx

/-- A firing that reserves a predicate and writes it. -/
theorem setsPredicate_of_reserve {i : Instr} {s : State} {p : Nat} {v : Nat → Bool} (o : Op) (hc : s.cur.ctx < 8) (hp : p < 8)
    (he : exec i s = .next ((s.reserve 1 [.pred p] none).writeP p v)) : setsPredicate i s o p v (onlyPredicates s) := by
  have hr := s.ctx_reserve [.pred p] hc
  exact setsPredicate_of_writeP o _ hc hp (.reserve s 1 _ none) (by rw [hr]) he
    fun t ht => by unfold onlyPredicates; rw [ht, hr]

/-- `PSET` (R221): the immediate's bit of the lane, or whether the element has the column or row offset. -/
theorem setsPredicate_pset (s : State) (o : Op) (hc : s.cur.ctx < 8) (hd : o.dst.toNat < 8) (hm : o.imm / 2048 < 3) :
    setsPredicate (.pset o) s o o.dst.toNat (fun k =>
      if o.imm / 2048 = 0 then decide (o.imm % 256 / 2 ^ k % 2 = 1)
      else if o.imm / 2048 = 1 then decide (s.conf.ox = o.imm % 256) else decide (s.conf.oy = o.imm % 256)) (onlyPredicates s) := by
  apply setsPredicate_of_reserve o hc hd
  show execPset o s = _
  unfold execPset
  simp only [Nat.mod_eq_of_lt hd]
  match h : o.imm / 2048, hm with
  | 0, _ => rfl
  | 1, _ => rfl
  | 2, _ => rfl

/-- The operations of `PLOG` (R222). -/
theorem plogBit_eq (op : Nat) (h : op < 8) (x y any : Bool) :
    plogBit op x y any =
      if op = 0 then x && y else if op = 1 then x || y else if op = 2 then x ^^ y else if op = 3 then x && !y
      else if op = 4 then x || !y else if op = 5 then !x else if op = 6 then x else any := by
  match op, h with
  | 0, _ | 1, _ | 2, _ | 3, _ | 4, _ | 5, _ | 6, _ | 7, _ => rfl

/-- `PLOG` (R222): the operands are those of the state before. -/
theorem setsPredicate_plog (s : State) (o : Op) (hc : s.cur.ctx < 8) (hd : o.dst.toNat < 8) (hm : o.md.toNat < 8) :
    let bit := fun (p : Nat) (k : Nat) => (vg s.ctx.p p 0).getLsbD k
    setsPredicate (.plog o) s o o.dst.toNat (fun k =>
      let x := bit (o.a.toNat % 8) k; let y := bit (o.b.toNat % 8) k; let op := o.md.toNat
      if op = 0 then x && y else if op = 1 then x || y else if op = 2 then x ^^ y else if op = 3 then x && !y
      else if op = 4 then x || !y else if op = 5 then !x else if op = 6 then x
      else (List.range 8).any (fun j => s.runs j && bit (o.a.toNat % 8) j)) (onlyPredicates s) := by
  apply setsPredicate_of_reserve o hc hd
  show execPlog o s = _
  unfold execPlog
  simp only [Nat.mod_eq_of_lt hd, Nat.mod_eq_of_lt hm, plogBit_eq _ hm]

/-! ### Loop counters and the repeat state (R225, R226) -/

/-- Loop counter `n` of the firing context set. -/
def State.setLoop (s : State) (n : Nat) (x : BitVec 16) : State := s.modCtx (fun c => { c with l := vs c.l n x })

theorem CtxStep.setLoop (s : State) (n : Nat) (x : BitVec 16) : CtxStep s (s.setLoop n x) := .modCtx s _

theorem State.setLoop_spec (s : State) (n : Nat) (x : BitVec 16) (hc : s.cur.ctx < 8) (hn : n < 2) :
    (s.setLoop n x).ctx = { s.ctx with l := (s.setLoop n x).ctx.l } ∧ vg (s.setLoop n x).ctx.l n 0 = x ∧
      vg (s.setLoop n x).ctx.l (1 - n) 0 = vg s.ctx.l (1 - n) 0 := by
  unfold State.setLoop
  rw [State.ctx_modCtx _ _ hc]
  exact ⟨rfl, vg_vs_same _ _ _ _ hn, vg_vs_ne _ _ _ _ _ (by omega)⟩

/-- A loop counter after `LDEC`. -/
def countDown (l : BitVec 16) : BitVec 16 := if l = 0 then l else l - 1

theorem toNat_countDown (l : BitVec 16) : (countDown l).toNat = l.toNat - 1 := by
  unfold countDown
  split
  case isTrue h => simp [h]
  case isFalse h => bv_omega

theorem countDown_ne_zero (l : BitVec 16) : (countDown l != 0) = decide (1 < l.toNat) := by
  have h := toNat_countDown l
  rw [Bool.eq_iff_iff, bne_iff_ne, decide_eq_true_eq]
  bv_omega

theorem exec_ldec (s : State) (o : Op) (hd : o.dst.toNat < 8) :
    exec (.ldec o) s = .next (((s.reserve 1 [.pred o.dst.toNat] none).setLoop (o.a.toNat % 2)
      (countDown (vg s.ctx.l (o.a.toNat % 2) 0))).writeP o.dst.toNat (fun _ => decide (1 < (vg s.ctx.l (o.a.toNat % 2) 0).toNat))) := by
  rw [← countDown_ne_zero]
  show execLdec o s = _
  unfold execLdec
  rw [Nat.mod_eq_of_lt hd]
  rfl

/-- `LDEC` (R225): the counter goes down by one and stops at zero; the predicate says whether a pass is left. -/
theorem setsPredicate_ldec (s : State) (o : Op) (hc : s.cur.ctx < 8) (hd : o.dst.toNat < 8) :
    let n := o.a.toNat % 2; let l := (vg s.ctx.l n 0).toNat
    setsPredicate (.ldec o) s o o.dst.toNat (fun _ => decide (1 < l)) (fun t =>
      t.ctx = { s.ctx with p := t.ctx.p, l := t.ctx.l, outst := t.ctx.outst } ∧ (vg t.ctx.l n 0).toNat = l - 1 ∧
      vg t.ctx.l (1 - n) 0 = vg s.ctx.l (1 - n) 0) := by
  intro n l
  have hr := s.ctx_reserve [.pred o.dst.toNat] hc
  have sr := CtxStep.reserve s 1 [.pred o.dst.toNat] none
  obtain ⟨lc, ln, lo⟩ := State.setLoop_spec _ n (countDown (vg s.ctx.l n 0)) (by rw [sr.cur]; exact hc) (Nat.mod_lt _ (by decide))
  refine setsPredicate_of_writeP o _ hc hd (sr.trans (.setLoop _ _ _)) (by rw [lc, hr]) (exec_ldec s o hd) fun t ht => ?_
  refine ⟨by rw [ht, lc, hr], ?_, ?_⟩
  · rw [ht, ln, toNat_countDown]
  · rw [ht, lo, hr]

/-- Dequeuing leaves the firing context as it is. -/
theorem State.ctx_dequeue (s : State) (o : Op) : (s.dequeue o).ctx = s.ctx := by
  obtain ⟨q, qc, _, _⟩ := s.dequeue_spec o
  unfold State.ctx
  rw [qc, q.cur]

theorem State.ctx_psnIf (s : State) (c : Bool) (hc : s.cur.ctx < 8) :
    (s.psnIf c).ctx = { s.ctx with aflags := (s.psnIf c).ctx.aflags } := by
  unfold State.psnIf
  split
  · rw [State.ctx_modCtx _ _ hc]
  · rfl

/-- A loop counter set from an operand that may be poisoned. -/
theorem State.psnIf_setLoop_spec (s : State) (n : Nat) (x : BitVec 16) (c : Bool) (hc : s.cur.ctx < 8) (hn : n < 2) :
    CtxStep s ((s.setLoop n x).psnIf c) ∧
      ((s.setLoop n x).psnIf c).ctx =
        { s.ctx with l := ((s.setLoop n x).psnIf c).ctx.l, aflags := ((s.setLoop n x).psnIf c).ctx.aflags } ∧
      vg ((s.setLoop n x).psnIf c).ctx.l n 0 = x ∧ vg ((s.setLoop n x).psnIf c).ctx.l (1 - n) 0 = vg s.ctx.l (1 - n) 0 := by
  have st := CtxStep.setLoop s n x
  obtain ⟨lc, ln, lo⟩ := s.setLoop_spec n x hc hn
  have pc := (s.setLoop n x).ctx_psnIf c (by rw [st.cur]; exact hc)
  exact ⟨st.trans (.psnIf _ c), by rw [pc, lc], by rw [pc, ln], by rw [pc, lo]⟩

/-- What `LOOP` leaves as it was, and the value of counter `n` after it. -/
def setsLoop (s t : State) (o : Op) (n v : Nat) : Prop :=
  firingFrame s t o ∧ t.core.out = s.core.out ∧ t.ctx = { s.ctx with l := t.ctx.l, aflags := t.ctx.aflags } ∧
    vg t.ctx.l (1 - n) 0 = vg s.ctx.l (1 - n) 0 ∧ (vg t.ctx.l n 0).toNat = v

/-- The immediate form of `LOOP`. -/
theorem setsLoop_immediate (s : State) (o : Op) (hc : s.cur.ctx < 8) (h : ¬ o.imm / 4096 % 2 = 1) :
    ∃ t, exec (.loop o) s = .next t ∧ setsLoop s t { o with dqa := false, dqb := false } (o.dst.toNat % 2) (o.imm % 4096) := by
  obtain ⟨lc, ln, lo⟩ := s.setLoop_spec (o.dst.toNat % 2) (BitVec.ofNat 16 (o.imm % 4096)) hc (Nat.mod_lt _ (by decide))
  have st := CtxStep.setLoop s (o.dst.toNat % 2) (BitVec.ofNat 16 (o.imm % 4096))
  refine ⟨_, ?_, st.firingFrame o, st.out, by rw [lc], lo, ?_⟩
  · show execLoop o s = _
    unfold execLoop
    rw [if_neg (by simpa [bit] using h)]
    rfl
  · rw [ln, BitVec.toNat_ofNat]
    omega

/-- The operand form of `LOOP`: a null operand leaves the counter. -/
theorem setsLoop_operand (s : State) (o : Op) (hc : s.cur.ctx < 8) (h : o.imm / 4096 % 2 = 1) :
    ∃ t, exec (.loop o) s = .next t ∧ setsLoop s t o (o.dst.toNat % 2)
      (if (s.opnd o.a.toNat).null = true then (vg s.ctx.l (o.dst.toNat % 2) 0).toNat
        else (lane (s.opnd o.a.toNat).val 0).toNat % 65536) := by
  obtain ⟨q, _, qo, _⟩ := s.dequeue_spec o
  have hb : bit o.imm 12 = true := by simpa [bit] using h
  by_cases hn : (s.opnd o.a.toNat).null = true
  · refine ⟨s.dequeue o, ?_, (CtxStep.refl _).firingFrame_dequeue, qo, by rw [s.ctx_dequeue], by rw [s.ctx_dequeue], ?_⟩
    · show execLoop o s = _
      unfold execLoop
      rw [if_pos hb, if_pos hn]
    · rw [s.ctx_dequeue, if_pos hn]
  · obtain ⟨ht, lc, ln, lo⟩ := (s.dequeue o).psnIf_setLoop_spec (o.dst.toNat % 2)
      ((lane (s.opnd o.a.toNat).val 0).extractLsb' 0 16) (s.opnd o.a.toNat).poison (by rw [q.cur]; exact hc) (Nat.mod_lt _ (by decide))
    rw [s.ctx_dequeue] at lc lo
    refine ⟨_, ?_, ht.firingFrame_dequeue, ht.out.trans qo, lc, lo, ?_⟩
    · show execLoop o s = _
      unfold execLoop
      rw [if_pos hb, if_neg hn]
      rfl
    · rw [ln, if_neg hn, BitVec.extractLsb'_toNat, Nat.shiftRight_zero]

/-- `LOOP` (R225) in both forms, of which only one dequeues. -/
theorem loop_fires (s : State) (o : Op) (hc : s.cur.ctx < 8) :
    let a := s.opnd o.a.toNat; let n := o.dst.toNat % 2; let from' := o.imm / 4096 % 2 = 1
    ∃ t, exec (.loop o) s = .next t ∧ setsLoop s t { o with dqa := o.dqa && decide from', dqb := o.dqb && decide from' } n
      (if from' then (if a.null = true then (vg s.ctx.l n 0).toNat else (lane a.val 0).toNat % 65536) else o.imm % 4096) := by
  intro a n from'
  by_cases h : from'
  · simpa only [h, decide_true, Bool.and_true, if_true] using setsLoop_operand s o hc h
  · simpa only [h, decide_false, Bool.and_false, if_false] using setsLoop_immediate s o hc h

/-- `REP` (R226): the repeat state takes slot and count of the immediate and the executing lanes. -/
theorem rep_fires (s : State) (o : Op) (hc : s.cur.ctx < 8) :
    ∃ t, exec (.rep o) s = .next t ∧ firingFrame s t { o with dqa := false, dqb := false } ∧ t.core.out = s.core.out ∧
      t.ctx = { s.ctx with rep := t.ctx.rep } ∧ t.ctx.rep.slot.toNat = o.imm % 32 ∧ t.ctx.rep.count.toNat = o.imm / 32 % 256 ∧
      t.ctx.rep.lanes = s.cur.lanes := by
  have st := CtxStep.modCtx s (fun c => { c with
    rep := { slot := BitVec.ofNat 5 o.imm, count := BitVec.ofNat 8 (o.imm / 32), lanes := s.cur.lanes } })
  refine ⟨_, rfl, st.firingFrame o, st.out, ?_⟩
  rw [State.ctx_modCtx _ _ hc]
  exact ⟨rfl, BitVec.toNat_ofNat _ _, BitVec.toNat_ofNat _ _, rfl⟩

/-- `YIELD` (R220): the yield flag is set. -/
theorem yield_fires (s : State) (o : Op) (hc : s.cur.ctx < 8) :
    ∃ t, exec (.yield o) s = .next t ∧ firingFrame s t { o with dqa := false, dqb := false } ∧ t.core.out = s.core.out ∧
      t.ctx = { s.ctx with yielded := true } := by
  have st := CtxStep.modCtx s (fun c => { c with yielded := true })
  exact ⟨_, rfl, st.firingFrame o, st.out, s.ctx_modCtx _ hc⟩

/-! ### Control tokens (R233) -/

/-- Outside the firing element nothing differs; in it only the firing context and the control ports may. -/
def controlFrame (s t : State) : Prop :=
  t = { s with elems := t.elems } ∧ (∀ e, e ≠ s.cur.elem → t.elem e = s.elem e) ∧
    t.elem s.cur.elem = { s.elem s.cur.elem with core := t.core } ∧
    t.core = { s.core with ctx := t.core.ctx, qin := t.core.qin, qout := t.core.qout } ∧
    ∀ c, c ≠ s.cur.ctx → vg t.core.ctx c (Ctx.activated 0) = vg s.core.ctx c (Ctx.activated 0)

/-- A change of the control ports, then of the firing context. -/
theorem controlFrame_of_modCore {s t : State} (f : ElemCore → ElemCore)
    (hf : f s.core = { s.core with qin := (f s.core).qin, qout := (f s.core).qout }) (h : CtxStep (s.modCore f) t) :
    controlFrame s t := by
  have hcore := h.only
  rw [State.core_modCore, hf] at hcore
  refine ⟨h.elems, fun e he => ?_, ?_, by rw [hcore], fun c hc => ?_⟩
  · rw [h.others e he]
    exact State.elem_modElem_ne s _ e _ he
  · rw [← s.modCore_cur f, h.elem]
    show { (s.modElem s.cur.elem _).elem s.cur.elem with core := t.core } = _
    rw [State.elem_modElem_same]
    rfl
  · rw [h.ctxs c hc, State.core_modCore, hf]

/-- Changing other parts of the core leaves the firing context. -/
theorem State.ctx_modCore (s : State) (f : ElemCore → ElemCore) (h : (f s.core).ctx = s.core.ctx) : (s.modCore f).ctx = s.ctx := by
  unfold State.ctx
  rw [State.core_modCore, h, State.modCore_cur]

/-- The send form of `MOVC` (R233): one token behind the others of the control output. -/
theorem movc_sends (s : State) (o : Op) (h : o.imm / 4096 % 2 = 0) :
    let port := o.dst.toNat % 2; let p := o.imm / 256 % 8; let k := o.imm / 32 % 8
    ∃ t, exec (.movc o) s = .next t ∧ controlFrame s t ∧ t.ctx = s.ctx ∧ t.core.qin = s.core.qin ∧
      vg t.core.qout port [] = vg s.core.qout port [] ++
        [if o.imm / 2048 % 2 = 1 then (vg s.ctx.p p 0).getLsbD k else decide (o.imm % 2 = 1)] ∧
      vg t.core.qout (1 - port) [] = vg s.core.qout (1 - port) [] := by
  intro port p k
  have hport : port < 2 := Nat.mod_lt _ (by decide)
  have he : exec (.movc o) s = .next (s.modCore (fun c => { c with qout := vs c.qout port (vg c.qout port [] ++
      [if o.imm / 2048 % 2 = 1 then (vg s.ctx.p p 0).getLsbD k else decide (o.imm % 2 = 1)]) })) := by
    show execMovc o s = _
    unfold execMovc
    rw [if_neg (by simp [bit, h])]
    simp only [bit, beq_iff_eq, Nat.pow_zero, Nat.div_one]
    rfl
  refine ⟨_, he, controlFrame_of_modCore _ rfl (.refl _), s.ctx_modCore _ rfl, ?_⟩
  rw [State.core_modCore]
  exact ⟨rfl, vg_vs_same _ _ _ _ hport, vg_vs_ne _ _ _ _ _ (by omega)⟩

/-- The head control token of a control input removed. -/
def State.takeControl (s : State) (port : Nat) : State :=
  s.modCore (fun c => { c with qin := vs c.qin port (vg c.qin port []).tail })

/-- The take form of `MOVC` (R233): the head control token goes to the predicate. -/
theorem movc_takes (s : State) (o : Op) (hc : s.cur.ctx < 8) (h : o.imm / 4096 % 2 = 1) (v : Bool) (q : List Bool)
    (hq : vg s.core.qin (o.dst.toNat % 2) [] = v :: q) :
    let port := o.dst.toNat % 2; let p := o.imm / 256 % 8
    ∃ t, exec (.movc o) s = .next t ∧ controlFrame s t ∧ onlyPredicates s t ∧ t.core.qout = s.core.qout ∧
      vg t.core.qin port [] = q ∧ vg t.core.qin (1 - port) [] = vg s.core.qin (1 - port) [] ∧
      (∀ m, m ≠ p → vg t.ctx.p m 0 = vg s.ctx.p m 0) ∧
      ∀ k, k < 8 → (vg t.ctx.p p 0).getLsbD k = if s.runs k = true then v else (vg s.ctx.p p 0).getLsbD k := by
  intro port p
  have hport : port < 2 := Nat.mod_lt _ (by decide)
  have hp : p < 8 := Nat.mod_lt _ (by decide)
  have he : exec (.movc o) s = .next (((s.takeControl port).reserve 1 [.pred p] none).writeP p (fun _ => v)) := by
    show execMovc o s = _
    unfold execMovc
    rw [if_pos (by simp [bit, h]), hq]
    rfl
  have uc : (s.takeControl port).ctx = s.ctx := s.ctx_modCore _ rfl
  have ucore : (s.takeControl port).core = { s.core with qin := vs s.core.qin port (vg s.core.qin port []).tail } :=
    s.core_modCore _
  have hr := (s.takeControl port).ctx_reserve [.pred p] hc
  obtain ⟨ht, wc, wn, wk⟩ := (CtxStep.reserve (s.takeControl port) 1 [.pred p] none).writeP_after (v := fun _ => v) (by rw [hr]) hc hp
  rw [uc] at hr wn wk
  refine ⟨_, he, controlFrame_of_modCore _ rfl ht, ?_, by rw [ht.only, ucore], ?_, ?_, wn, wk⟩
  · unfold onlyPredicates
    rw [wc, hr]
  · rw [ht.only, ucore]
    show vg (vs s.core.qin port _) port [] = q
    rw [vg_vs_same _ _ _ _ hport, hq]
    rfl
  · rw [ht.only, ucore]
    exact vg_vs_ne _ _ _ _ _ (by omega)

/-- Settles O33, instruction by instruction: each fires as a change of its context alone (`CtxStep`), `MOVC` behind a change of a control
port. -/
theorem triggerPredicatesAndLoops : Obligations.TriggerPredicatesAndLoops := fun s o hc =>
  ⟨rfl, yield_fires s o hc, setsPredicate_pset s o hc, setsPredicate_plog s o hc, setsPredicate_ldec s o hc, loop_fires s o hc,
    rep_fires s o hc, movc_sends s o, movc_takes s o hc⟩

end Sys2Proof.Machine
end

section
/-!
PROOF. The pilot's integer instructions (R322): each answers its value through `State.result`, so what is left to prove is that the
model's value is the table's.
-/
namespace Sys2Proof.Machine
open Sys2Proof Sys2Proof.Claims

/-- An instruction whose meaning is one result writes it and nothing else. -/
theorem writes_of_result {i : Instr} {s : State} {d : Reg} {v : DWord} {P : DWord → Prop} (he : exec i s = s.result d v) (hP : P v) :
    writes i s d P := by
  obtain ⟨t, ht, hw⟩ := s.result_next d v
  exact ⟨t, v, he.trans ht, hw, hP⟩

/-! ### Immediates (R73) -/

theorem toInt_simm (i : BitVec 16) : (simm i).toInt = i.toInt := BitVec.toInt_signExtend_of_le (by decide)

theorem simm_eq_ofInt (i : BitVec 16) : simm i = BitVec.ofInt 64 i.toInt := by
  rw [← toInt_simm, BitVec.ofInt_toInt]

theorem add_simm (x : DWord) (i : BitVec 16) : x + simm i = BitVec.ofInt 64 (x.toInt + i.toInt) := by
  rw [BitVec.ofInt_add, BitVec.ofInt_toInt, simm_eq_ofInt]

theorem getLsbD_zimm (i : BitVec 16) (k : Nat) : (zimm i).getLsbD k = i.getLsbD k := by
  unfold zimm
  rw [BitVec.zeroExtend, BitVec.getLsbD_setWidth]
  by_cases hk : k < 64
  · simp [hk]
  · rw [BitVec.getLsbD_of_ge i k (by omega), Bool.and_false]

/-- `LUI`'s product fits in 64 bits. -/
theorem toInt_simm_shl (i : BitVec 16) : (simm i <<< 16).toInt = i.toInt * 2 ^ 16 := by
  have hlo := i.le_toInt
  have hhi := i.toInt_lt
  have he : simm i <<< 16 = BitVec.ofInt 64 (i.toInt * 2 ^ 16) := by
    rw [BitVec.shiftLeft_eq_mul_twoPow, BitVec.ofInt_mul, simm_eq_ofInt]
    rfl
  rw [he, BitVec.toInt_ofInt_eq_self (by decide)] <;> omega

/-! ### Sums, products and shifts -/

theorem toNat_sub_eq (x y : DWord) : (x - y).toNat = (x.toNat + (2 ^ 64 - y.toNat)) % 2 ^ 64 := by
  rw [BitVec.toNat_sub, Nat.add_comm]

theorem toNat_shl (x : DWord) (c : Nat) : (x <<< c).toNat = x.toNat * 2 ^ c % 2 ^ 64 := by
  rw [BitVec.toNat_shiftLeft, Nat.shiftLeft_eq]

theorem toNat_shr (x : DWord) (c : Nat) : (x >>> c).toNat = x.toNat / 2 ^ c := by
  rw [BitVec.toNat_ushiftRight, Nat.shiftRight_eq_div_pow]

theorem toInt_sra (x : DWord) (c : Nat) : (x.sshiftRight c).toInt = x.toInt / 2 ^ c := by
  rw [BitVec.toInt_sshiftRight, Int.shiftRight_eq_div_pow, Int.natCast_pow]
  rfl

/-- The product of two signed 64-bit numbers has a high half of 64 bits. -/
theorem toInt_pilotMulh (x y : DWord) : (pilotMulh x y).toInt = x.toInt * y.toInt / 2 ^ 64 := by
  have hhi : x.toInt * y.toInt ≤ 2 ^ 126 := BitVec.toInt_mul_toInt_le
  have hlo : -(2 ^ 126) ≤ x.toInt * y.toInt := BitVec.le_toInt_mul_toInt
  unfold pilotMulh
  rw [BitVec.toInt_ofInt_eq_self (by decide)] <;> omega

/-! ### Quotients and remainders -/

theorem pilotDiv_eq (x y : DWord) :
    pilotDiv x y = if y = 0 then BitVec.ofInt 64 (-1) else BitVec.ofInt 64 (x.toInt.tdiv y.toInt) := by
  unfold pilotDiv
  split
  · rfl
  · exact BitVec.eq_of_toInt_eq (by rw [BitVec.toInt_sdiv, BitVec.toInt_ofInt])

theorem toNat_pilotDivn (x y : DWord) : (pilotDivn x y).toNat = if y = 0 then 2 ^ 64 - 1 else x.toNat / y.toNat := by
  unfold pilotDivn
  split
  · rfl
  · rw [BitVec.toNat_udiv]

theorem pilotRem_eq (x y : DWord) :
    pilotRem x y = if y = 0 then x else BitVec.ofInt 64 (x.toInt - y.toInt * x.toInt.tdiv y.toInt) := by
  unfold pilotRem
  split
  · rfl
  · rw [← Int.tmod_def, ← BitVec.toInt_srem, BitVec.ofInt_toInt]

theorem toNat_pilotRemn (x y : DWord) : (pilotRemn x y).toNat = if y = 0 then x.toNat else x.toNat % y.toNat := by
  unfold pilotRemn
  split
  · rfl
  · rw [BitVec.toNat_umod]

/-! ### Comparisons, minimum and maximum -/

theorem ofBool_decide (p : Prop) [Decidable p] : ofBool (decide p) = if p then 1 else 0 := by
  by_cases h : p <;> simp [ofBool, h]

theorem ofBool_slt (x y : DWord) : ofBool (x.slt y) = if x.toInt < y.toInt then 1 else 0 := by
  rw [BitVec.slt_eq_decide, ofBool_decide]

theorem ofBool_ult (x y : DWord) : ofBool (x.ult y) = if x.toNat < y.toNat then 1 else 0 := by
  rw [BitVec.ult_eq_decide, ofBool_decide]

theorem ofBool_slt_simm (x : DWord) (i : BitVec 16) : ofBool (x.slt (simm i)) = if x.toInt < i.toInt then 1 else 0 := by
  rw [ofBool_slt, toInt_simm]

theorem toInt_smin (x y : DWord) : (if x.sle y then x else y).toInt = min x.toInt y.toInt := by
  rw [apply_ite BitVec.toInt, Int.min_def]
  simp only [BitVec.sle_iff_toInt_le]

theorem toInt_smax (x y : DWord) : (if x.sle y then y else x).toInt = max x.toInt y.toInt := by
  rw [apply_ite BitVec.toInt, Int.max_def]
  simp only [BitVec.sle_iff_toInt_le]

/-! ### Counts of bits -/

/-- `bitLen` is the length of a number in bits: it is below `2 ^ bitLen`, and its highest bit is one. -/
theorem lt_two_pow_bitLen (n : Nat) : n < 2 ^ bitLen n := by
  unfold bitLen
  split
  · omega
  · exact Nat.lt_log2_self

theorem testBit_bitLen_sub_one {n : Nat} (h : 0 < bitLen n) : n.testBit (bitLen n - 1) = true := by
  unfold bitLen at h ⊢
  by_cases hn : n = 0
  · simp [hn] at h
  · rw [if_neg hn, Nat.add_sub_cancel]
    exact Nat.testBit_log2 hn

theorem bitLen_le {n w : Nat} (h : n < 2 ^ w) : bitLen n ≤ w := by
  unfold bitLen
  split
  · omega
  · next hn => exact (Nat.log2_lt hn).2 h

theorem toNat_pilotClz (x : DWord) : (pilotClz x).toNat = 64 - bitLen x.toNat :=
  Nat.mod_eq_of_lt (by omega)

/-- `CLZ`: the bits from `64 - v` up are zero, and the one below them is one where there is one. -/
theorem pilotClz_spec (x : DWord) :
    (pilotClz x).toNat ≤ 64 ∧ (∀ k, 64 ≤ k + (pilotClz x).toNat → x.getLsbD k = false) ∧
      ((pilotClz x).toNat < 64 → x.getLsbD (63 - (pilotClz x).toNat) = true) := by
  have hle : bitLen x.toNat ≤ 64 := bitLen_le x.isLt
  rw [toNat_pilotClz]
  refine ⟨by omega, fun k hk => ?_, fun h => ?_⟩
  · exact Nat.testBit_lt_two_pow
      (Nat.lt_of_lt_of_le (lt_two_pow_bitLen _) (Nat.pow_le_pow_right (by decide) (by omega)))
  · have hk : 63 - (64 - bitLen x.toNat) = bitLen x.toNat - 1 := by omega
    rw [hk]
    exact testBit_bitLen_sub_one (by omega)

theorem popCount_eq_sum (n w : Nat) : popCount w n = ((List.range n).map (fun k => if w.testBit k then 1 else 0)).sum := by
  induction n generalizing w with
  | zero => rfl
  | succ n ih =>
    have hbit : (if w.testBit 0 then 1 else 0) = w % 2 := by
      rw [Nat.testBit_zero]
      rcases Nat.mod_two_eq_zero_or_one w with h | h <;> simp [h]
    rw [popCount, ih, List.range_succ_eq_map, List.map_cons, List.sum_cons, List.map_map, hbit]
    simp only [Function.comp_def, Nat.succ_eq_add_one, Nat.testBit_add_one]

theorem popCount_le (n w : Nat) : popCount w n ≤ n := by
  induction n generalizing w with
  | zero => exact Nat.le_refl 0
  | succ n ih =>
    have := ih (w / 2)
    rw [popCount]
    omega

theorem toNat_pilotPopc (x : DWord) :
    (pilotPopc x).toNat = ((List.range 64).map (fun k => if x.getLsbD k then 1 else 0)).sum := by
  have hle := popCount_le 64 x.toNat
  calc (pilotPopc x).toNat = popCount x.toNat 64 := Nat.mod_eq_of_lt (by omega)
    _ = _ := popCount_eq_sum 64 x.toNat

/-- Settles O1: each instruction answers one result, whose value is the table's. -/
theorem pilotArithmetic : Obligations.PilotArithmetic := by
  intro s d a b imm sh x y c
  exact
    ⟨writes_of_result rfl (BitVec.toNat_add x y),
      writes_of_result rfl (toNat_sub_eq x y),
      writes_of_result rfl (fun _ => BitVec.getLsbD_and),
      writes_of_result rfl (fun _ => BitVec.getLsbD_or),
      writes_of_result rfl (fun _ => BitVec.getLsbD_xor),
      writes_of_result rfl (toNat_shl x c),
      writes_of_result rfl (toNat_shr x c),
      writes_of_result rfl (toInt_sra x c),
      writes_of_result rfl (BitVec.toNat_mul x y),
      writes_of_result rfl (toInt_pilotMulh x y),
      writes_of_result rfl (pilotDiv_eq x y),
      writes_of_result rfl (toNat_pilotDivn x y),
      writes_of_result rfl (pilotRem_eq x y),
      writes_of_result rfl (toNat_pilotRemn x y),
      writes_of_result rfl (ofBool_slt x y),
      writes_of_result rfl (ofBool_ult x y),
      writes_of_result rfl (toInt_smin x y),
      writes_of_result rfl (toInt_smax x y),
      writes_of_result rfl (pilotClz_spec x),
      writes_of_result rfl (toNat_pilotPopc x),
      writes_of_result rfl (add_simm x imm),
      writes_of_result rfl (fun k => by rw [BitVec.getLsbD_and, getLsbD_zimm]),
      writes_of_result rfl (fun k => by rw [BitVec.getLsbD_or, getLsbD_zimm]),
      writes_of_result rfl (fun k => by rw [BitVec.getLsbD_xor, getLsbD_zimm]),
      writes_of_result rfl (toNat_shl x sh.toNat),
      writes_of_result rfl (toNat_shr x sh.toNat),
      writes_of_result rfl (toInt_sra x sh.toNat),
      writes_of_result rfl (ofBool_slt_simm x imm),
      writes_of_result rfl (toInt_simm_shl imm)⟩

end Sys2Proof.Machine
end

section
/-!
PROOF. The pilot's branches and jumps (R325): each is `State.branch` or `State.jump`, whose laws give the two outcomes; and the fetch
fault of a pilot's turn.
-/
namespace Sys2Proof.Machine
open Sys2Proof Sys2Proof.Claims

/-- An instruction whose meaning is a jump goes to its target. -/
theorem goesTo_of_jump {i : Instr} {s : State} {d : Reg} {target : DWord} (he : exec i s = s.jump d target) : goesTo i s d target := by
  unfold goesTo traps
  rw [he]
  exact s.jump_next d target

/-- A word offset of `w` bits, sign-extended and shifted, is four times the signed offset (R73). -/
theorem signExtend_shl_two {w : Nat} (off : BitVec w) (hw : w ≤ 64) :
    off.signExtend 64 <<< 2 = BitVec.ofInt 64 (4 * off.toInt) := by
  rw [← BitVec.toInt_signExtend_of_le hw, BitVec.ofInt_mul, BitVec.ofInt_toInt, BitVec.shiftLeft_eq_mul_twoPow, BitVec.mul_comm]
  rfl

/-- An instruction whose meaning is a branch goes to the target where its condition holds, and otherwise to the next word. -/
theorem branches_of_branch {i : Instr} {s : State} {c : Bool} {off : BitVec 16} {taken : Prop} (he : exec i s = s.branch c off)
    (hc : c = true ↔ taken) :
    (taken → goesTo i s 0 (s.me.pc + 4 + BitVec.ofInt 64 (4 * off.toInt))) ∧ (¬ taken → ∃ t, exec i s = .next t ∧ passed s t) := by
  unfold State.branch at he
  refine ⟨fun ht => goesTo_of_jump ?_, fun hn => ?_⟩
  · rw [he, if_pos (hc.2 ht), signExtend_shl_two off (by decide)]
    rfl
  · rw [he, if_neg (fun h => hn (hc.1 h))]
    exact s.done_next

/-- A step takes the next turn, and the stores of that turn land. -/
theorem step_of_turn {s u t : State} {τ : Turn} (hn : s.nextTurn = (τ, u)) (ht : u.turn τ = .next t) : step s = .next (s.land t) := by
  unfold step
  rw [hn]
  dsimp only
  rw [ht]

theorem State.nextTurn_of_agenda {s : State} {τ : Turn} {l : List Turn} (h : s.agenda = τ :: l) :
    s.nextTurn = (τ, { s with agenda := l }) := by
  unfold State.nextTurn
  rw [h]

/-- A running pilot that no trap interrupts, that does not wait and has no load in flight faults when its
program address is outside chart memory. -/
theorem State.turnPilot_outside_chart (s : State) (p : Nat) (ha : s.acts p = true) (hr : (s.pilot p).run = .running)
    (hc : s.asyncCause p = none) (hw : (s.pilot p).waitSince = none) (hl : (s.pilot p).pend.any PAcc.isLoad = false)
    (hp : isChart (s.pilot p).pc = false) : s.turnPilot p = (s.atPilot p).trap 7 0 (s.pilot p).pc := by
  unfold State.turnPilot
  simp [ha, hr, hc, hw, hl, hp]

/-- Settles O2: the branches and jumps by their shared operations, and the fetch fault by a step whose turn is the pilot's. -/
theorem pilotBranches : Obligations.PilotBranches := by
  intro s d a b off imm far x y next branch
  refine ⟨branches_of_branch rfl beq_iff_eq, branches_of_branch rfl bne_iff_ne, branches_of_branch rfl BitVec.slt_iff_toInt_lt,
    branches_of_branch rfl BitVec.sle_iff_toInt_le, branches_of_branch rfl BitVec.ult_iff_toNat_lt,
    branches_of_branch rfl BitVec.ule_iff_toNat_le, goesTo_of_jump ?_, goesTo_of_jump ?_, ?_⟩
  · rw [← signExtend_shl_two far (by decide)]
    rfl
  · rw [← simm_eq_ofInt]
    rfl
  · intro p l hq q ha hr hc hw hl hp
    have hturn := State.turnPilot_outside_chart { s with agenda := l } p ha hr hc hw hl hp
    obtain ⟨t, ht, htr⟩ := (State.atPilot { s with agenda := l } p).trap_next 7 0 q.pc
    exact ⟨t, step_of_turn (State.nextTurn_of_agenda hq) (hturn.trans ht), htr⟩

end Sys2Proof.Machine
end

section
/-!
PROOF. Entering and leaving a trap handler (R317 to R321, R348): `TRAP` and `ERET`, `PARK`, and the lead pilot's asynchronous traps.
-/
namespace Sys2Proof.Machine
open Sys2Proof Sys2Proof.Claims

/-! ### `ERET` (R348) -/

/-- The status that `ERET` leaves, bit by bit: IE is PIE, TH is 0, every other bit stays. -/
theorem getLsbD_eretStatus (w : DWord) (k : Nat) :
    (eretStatus w).getLsbD k = if k = 0 then w.getLsbD 1 else if k = 2 then false else w.getLsbD k := by
  have he : eretStatus w = (w &&& ~~~ (BitVec.twoPow 64 0 ||| BitVec.twoPow 64 2)) |||
      (if w.getLsbD 1 then BitVec.twoPow 64 0 else 0#64) := rfl
  rw [he]
  by_cases h0 : k = 0
  · subst h0
    cases w.getLsbD 1 <;> simp
  · by_cases h2 : k = 2
    · subst h2
      cases w.getLsbD 1 <;> simp
    · by_cases hk : k < 64
      · cases w.getLsbD 1 <;> simp [h0, h2, hk]
      · rw [if_neg h0, if_neg h2, BitVec.getLsbD_of_ge _ k (Nat.le_of_not_lt hk), BitVec.getLsbD_of_ge w k (Nat.le_of_not_lt hk)]

/-- In a handler, `ERET` resumes at `TRAPADDR` with the status restored, and changes nothing else. -/
theorem eret_in_handler (s : State) (h : s.me.pstatus.getLsbD 2 = true) : ∃ t, exec .eret s = .next t ∧ t.me.pc = s.me.trapaddr ∧
    t.me.pstatus.getLsbD 0 = s.me.pstatus.getLsbD 1 ∧ t.me.pstatus.getLsbD 2 = false ∧
    (∀ k, k ≠ 0 → k ≠ 2 → t.me.pstatus.getLsbD k = s.me.pstatus.getLsbD k) ∧
    t.me = { s.me with pc := t.me.pc, pstatus := t.me.pstatus } ∧ onlyPilot s t := by
  have he : exec .eret s = .next (s.setMe s.me.eret) := if_pos h
  have hs : s.me.eret.pstatus = eretStatus s.me.pstatus := rfl
  refine ⟨_, he, ?_⟩
  rw [State.me_setMe, hs]
  refine ⟨rfl, getLsbD_eretStatus _ 0, getLsbD_eretStatus _ 2, fun k h0 h2 => ?_, rfl, s.onlyPilot_setMe _⟩
  rw [getLsbD_eretStatus, if_neg h0, if_neg h2]

/-- Outside a handler, `ERET` is an illegal instruction. -/
theorem eret_outside_handler (s : State) (h : s.me.pstatus.getLsbD 2 = false) : traps .eret s 1 0 s.word s.me.pc := by
  have he : exec .eret s = s.illegal := if_neg (Bool.eq_false_iff.1 h)
  unfold traps
  rw [he]
  exact s.trap_next 1 0 s.word

/-! ### `TRAP` and `PARK` (R348) -/

/-- `TRAP` takes its trap with the address of the next instruction. -/
theorem trap_traps (s : State) (code : BitVec 16) : traps (.trap code) s 8 0 (BitVec.ofNat 64 code.toNat) (s.me.pc + 4) := by
  rw [BitVec.ofNat_toNat]
  exact ⟨_, rfl, s.trapped_takeTrap 8 0 (code.setWidth 64) (s.me.pc + 4)⟩

/-- `PARK` replaces the record of the acting pilot, and at most makes a step due. -/
theorem execPark_next (s : State) : ∃ l, execPark s = .next { s.setMe { s.me.step with run := .parked } with agenda := l } := by
  unfold execPark
  split
  · split
    · exact ⟨_, rfl⟩
    · exact ⟨_, rfl⟩
  · exact ⟨_, rfl⟩

theorem park_halts (s : State) : ∃ t, exec .park s = .next t ∧ t.me = { s.me with pc := s.me.pc + 4, run := .parked } ∧
    (∀ q, q ≠ s.cur.pilot → t.pilot q = s.pilot q) ∧ t = { s with pilots := t.pilots, agenda := t.agenda } := by
  obtain ⟨l, hl⟩ := execPark_next s
  exact ⟨_, hl, s.me_setMe _, fun q hq => s.pilot_setPilot_ne _ q _ hq, rfl⟩

/-! ### Asynchronous traps (R321) -/

/-- The cause that a lead pilot takes where nothing holds the trap back: 0x10 comes before 0x11. -/
theorem State.asyncCause_eq {s : State} {r : Region} {p : Nat} (hr : s.regionAt p = some r) (hl : r.lead = p)
    (hrun : (s.pilot p).run = .running) (hie : (s.pilot p).ie = true) (hth : (s.pilot p).th = false)
    (hload : (s.pilot p).pend.any PAcc.isLoad = false) (hrw : r.rewrites.any (fun x => x.pilot = p) = false) :
    s.asyncCause p =
      if (s.pilot p).efe = true ∧ r.running = .frozen ∧ r.efrep.isSome = true then some 0x10
      else if (s.pilot p).sfe = true ∧ r.sfq ≠ [] then some 0x11
      else none := by
  unfold State.asyncCause
  rw [hr]
  simp [hl, hrun, hload, hrw, hie, hth, and_assoc]

/-- A pilot that acts takes the asynchronous trap that is due, with the address of the instruction that it executes next. -/
theorem asyncTrap_takes {s : State} {c : Nat} (ha : s.acts s.cur.x = true) (hc : s.asyncCause s.cur.x = some c) :
    ∃ t, exec .asyncTrap s = .next t ∧ trapped (s.atPilot s.cur.x) (t.atPilot s.cur.x) c 0 0 (s.pilot s.cur.x).pc := by
  have he : exec .asyncTrap s = .next (s.setPilot s.cur.x ((s.pilot s.cur.x).takeTrap c 0 0 (s.pilot s.cur.x).pc)) := by
    show execAsyncTrap s = _
    unfold execAsyncTrap
    rw [if_pos ha, hc]
  exact ⟨_, he, (s.atPilot s.cur.x).trapped_takeTrap c 0 0 (s.pilot s.cur.x).pc⟩

/-- Settles O6: `TRAP`, `ERET` and `PARK` one by one, the asynchronous traps by the cause that `State.asyncCause` gives. -/
theorem pilotTrapsAndReturns : Obligations.PilotTrapsAndReturns := by
  refine ⟨trap_traps, eret_in_handler, eret_outside_handler, park_halts, ?_⟩
  intro s r p q ha hr hl hrun hie hth hload hrw taken
  have hc := State.asyncCause_eq hr hl hrun hie hth hload hrw
  refine ⟨fun h5 hf he => asyncTrap_takes ha ?_, fun hn h6 hq => asyncTrap_takes ha ?_⟩
  · exact hc.trans (if_pos ⟨h5, hf, he⟩)
  · exact hc.trans ((if_neg hn).trans (if_pos ⟨h6, hq⟩))

end Sys2Proof.Machine
end
